-- ==== Sys2Proof/Word.lean ====
section
/-! DEFINITION. The word types of the part and their plainest names (spec 00 R1, 06 R148). -/

namespace Sys2Proof

/-- One byte of memory. -/
abbrev Byte := BitVec 8
/-- The contents of an x register (R148). -/
abbrev XWord := BitVec 64
/-- A 72-bit virtual address, the contents of an a register (R148, R234). -/
abbrev AWord := BitVec 72
/-- A 32-bit lane, tile element or bundle index (R148, R183). -/
abbrev Word32 := BitVec 32
/-- A mask over the 512 lanes of the widest core (R148, R181). -/
abbrev LaneMask := BitVec 512

end Sys2Proof
end

