-- ==== Sys2Proof/Syntax.lean ====
section
/-! DEFINITION. The instruction set as syntax: one constructor per row of the opcode table (spec 04 R98 to R114, spec 95 for the events). -/

namespace Sys2Proof

/-- x0 to x63 (R101). -/
abbrev XReg := Fin 64
/-- a0 to a15 (R101). -/
abbrev AReg := Fin 16
/-- p0 to p15 (R101). -/
abbrev PReg := Fin 16
/-- q0 to q7 (R101). -/
abbrev QReg := Fin 8
/-- v0 to v31 (R101). -/
abbrev VReg := Fin 32
/-- b0 to b7 (R101). -/
abbrev BReg := Fin 8
/-- t0 to t31, a tile within the strand's window (R101, R205). -/
abbrev TReg := Fin 32
/-- k0 to k63 (R113). -/
abbrev KReg := Fin 64
/-- tk0 to tk7 (R109). -/
abbrev TokReg := Fin 8

/-- A guard: the predicate named and whether it is negated (R98). -/
structure Guard where
  neg : Bool
  p : PReg
  deriving DecidableEq, Repr

/-- The unguarded case, which is ?p0. -/
def Guard.always : Guard := ⟨false, 0⟩

/-- An immediate: the 7-bit short field, or the 32-bit LIMM lent by the next slot (R103, R156). -/
inductive Imm where
  | short (i : BitVec 7)
  | long (l : BitVec 32)
  deriving DecidableEq, Repr

/-- A landing distance with its byte offset: short form, or the long form of R104. -/
inductive Land where
  | short (l : BitVec 6)
  | long (off : BitVec 20) (l : BitVec 12)
  deriving DecidableEq, Repr

/-- The third operand of VSHL, VSHR and VSHRA: a register of counts, or an immediate count (R191). -/
inductive VCount where
  | reg (t : VReg)
  | imm (u : BitVec 6)
  deriving DecidableEq, Repr

/-- The source of VBCAST (R193). -/
inductive VBSrc where
  | reg (s : XReg)
  | imm (u : BitVec 6)
  | long (l : BitVec 32)
  deriving DecidableEq, Repr

/-- The length operand of COPY: a register, or the lent LIMM with its port slot and add-on-write bit (R109, R283). -/
inductive CopyLen where
  | reg (t : XReg)
  | long (len : BitVec 32) (port : BitVec 2) (addw : Bool)
  deriving DecidableEq, Repr

/-- Condition codes 0 to 9 (R107). -/
inductive Cond where
  | eq | ne | lt | le | gt | ge | ltn | len | gtn | gen
  deriving DecidableEq, Repr

/-- Access sizes .B, .H, .W and .D (R108). -/
inductive Size where
  | b | h | w | d
  deriving DecidableEq, Repr

/-- The operations of ATOM, in opcode order (R274); RED takes the first eight (R276). -/
inductive AtomOp where
  | add | and | or | xor | min | max | minn | maxn | swap
  deriving DecidableEq, Repr

/-- The operations of VRED and VSCAN (R195). -/
inductive RedOp where
  | add | min | max | and | or | xor
  deriving DecidableEq, Repr

/-- Element types, TY codes 0 to 13 (R111). -/
inductive ETy where
  | i32 | n32 | i16 | n16 | i8 | n8 | f32 | bf16 | f16 | e4m3 | e5m2 | e2m1 | i4 | n4
  deriving DecidableEq, Repr

/-- The RM field of a V slot (R99). -/
inductive Rm where
  | fmode | rne | rtz | rup | rdn
  deriving DecidableEq, Repr

/-- Operand formats of MMA and MMAT, FMT codes 0 to 7 (R110). -/
inductive MFmt where
  | mxi8 | i8 | mxe4 | mxe5 | mxf4 | bf16 | f16 | i4
  deriving DecidableEq, Repr

/-- Scopes, narrowest to widest (R12, R114). -/
inductive Scope where
  | strand | core | cluster | gang | device | pool | host | system
  deriving DecidableEq, Repr

/-- The special registers of R151. -/
inductive SReg where
  | core | strand | gang | member | width | hcid | fstat | fmode | seqlen | occ | draft | scnt
  | cycle | segsig | bindsel | bindent
  deriving DecidableEq, Repr

/-- The seven engine queues (R115). -/
inductive Engine where
  | a | c | m | v0 | v1 | x | q
  deriving DecidableEq, Repr

/-- A unit whose health the deck's record holds: a half by its half index, or a front end (R356). -/
inductive HealthUnit where
  | half (h : Fin 72)
  | fe (f : Fin 32)
  deriving DecidableEq, Repr

/-- The instructions and events of the part: one constructor per row of the opcode table.
The first 210 are slot operations, the other 72 the part's own steps and its outside events, of which those without operands stand last. -/
inductive Instr where
  | add (g : Guard) (d s t : XReg)
  | addImm (g : Guard) (d s : XReg) (i : Imm)
  | sub (g : Guard) (d s t : XReg)
  | subImm (g : Guard) (d s : XReg) (i : Imm)
  | mul (g : Guard) (d s t : XReg)
  | mulImm (g : Guard) (d s : XReg) (i : Imm)
  | mulh (g : Guard) (d s t : XReg)
  | mulhImm (g : Guard) (d s : XReg) (i : Imm)
  | mulhn (g : Guard) (d s t : XReg)
  | mulhnImm (g : Guard) (d s : XReg) (i : Imm)
  | div (g : Guard) (d s t : XReg)
  | divImm (g : Guard) (d s : XReg) (i : Imm)
  | divn (g : Guard) (d s t : XReg)
  | divnImm (g : Guard) (d s : XReg) (i : Imm)
  | rem (g : Guard) (d s t : XReg)
  | remImm (g : Guard) (d s : XReg) (i : Imm)
  | remn (g : Guard) (d s t : XReg)
  | remnImm (g : Guard) (d s : XReg) (i : Imm)
  | and (g : Guard) (d s t : XReg)
  | andImm (g : Guard) (d s : XReg) (i : Imm)
  | or (g : Guard) (d s t : XReg)
  | orImm (g : Guard) (d s : XReg) (i : Imm)
  | xor (g : Guard) (d s t : XReg)
  | xorImm (g : Guard) (d s : XReg) (i : Imm)
  | andn (g : Guard) (d s t : XReg)
  | andnImm (g : Guard) (d s : XReg) (i : Imm)
  | shl (g : Guard) (d s t : XReg)
  | shlImm (g : Guard) (d s : XReg) (i : Imm)
  | shr (g : Guard) (d s t : XReg)
  | shrImm (g : Guard) (d s : XReg) (i : Imm)
  | shra (g : Guard) (d s t : XReg)
  | shraImm (g : Guard) (d s : XReg) (i : Imm)
  | rol (g : Guard) (d s t : XReg)
  | rolImm (g : Guard) (d s : XReg) (i : Imm)
  | min (g : Guard) (d s t : XReg)
  | minImm (g : Guard) (d s : XReg) (i : Imm)
  | max (g : Guard) (d s t : XReg)
  | maxImm (g : Guard) (d s : XReg) (i : Imm)
  | minn (g : Guard) (d s t : XReg)
  | minnImm (g : Guard) (d s : XReg) (i : Imm)
  | maxn (g : Guard) (d s t : XReg)
  | maxnImm (g : Guard) (d s : XReg) (i : Imm)
  | clz (g : Guard) (d s : XReg)
  | ctz (g : Guard) (d s : XReg)
  | popc (g : Guard) (d s : XReg)
  | abs (g : Guard) (d s : XReg)
  | sext (g : Guard) (d s : XReg) (n : BitVec 6)
  | zext (g : Guard) (d s : XReg) (n : BitVec 6)
  | bfx (g : Guard) (d s t : XReg)
  | bfxN (g : Guard) (d s t : XReg)
  | bfi (g : Guard) (d s t : XReg)
  | sel (g : Guard) (d s t : XReg)
  | li (g : Guard) (d : XReg) (i : Imm)
  | fadd (g : Guard) (d s t : XReg)
  | fsub (g : Guard) (d s t : XReg)
  | fmul (g : Guard) (d s t : XReg)
  | ffma (g : Guard) (d s t : XReg)
  | fmin (g : Guard) (d s t : XReg)
  | fmax (g : Guard) (d s t : XReg)
  | cvtf (g : Guard) (d s : XReg)
  | cvtfN (g : Guard) (d s : XReg)
  | cvti (g : Guard) (d s : XReg)
  | cvtiN (g : Guard) (d s : XReg)
  | pand (g : Guard) (d s t : PReg)
  | por (g : Guard) (d s t : PReg)
  | pxor (g : Guard) (d s t : PReg)
  | pandn (g : Guard) (d s t : PReg)
  | pget (g : Guard) (d : XReg)
  | pset (g : Guard) (s : XReg)
  | ptb (g : Guard) (d : BReg) (i : Imm)
  | ptbx (g : Guard) (d : BReg) (s : XReg)
  | br (g : Guard) (s : BReg)
  | brl (g : Guard) (d : XReg) (s : BReg)
  | trap (g : Guard) (i : Imm)
  | aadd (g : Guard) (d s : AReg) (t : XReg)
  | aaddImm (g : Guard) (d s : AReg) (i : Imm)
  | aset (g : Guard) (d : AReg) (s : XReg)
  | aget (g : Guard) (d : XReg) (s : AReg)
  | alea (g : Guard) (d s : AReg) (t : XReg)
  | cmp (g : Guard) (c : Cond) (d : PReg) (s t : XReg)
  | cmpImm (g : Guard) (c : Cond) (d : PReg) (s : XReg) (i : Imm)
  | fcmp (g : Guard) (c : Cond) (d : PReg) (s t : XReg)
  | gets (g : Guard) (d : XReg) (r : SReg)
  | puts (g : Guard) (s : XReg) (r : SReg)
  | ld (g : Guard) (z : Size) (d : XReg) (s : AReg) (l : Land)
  | ldN (g : Guard) (z : Size) (d : XReg) (s : AReg) (l : Land)
  | st (g : Guard) (z : Size) (d : XReg) (s : AReg) (o : Imm)
  | ldv (g : Guard) (d : VReg) (s : AReg) (l : Land)
  | ldvFeTake (g : Guard) (one : Bool) (d : VReg) (s : AReg) (l : Land)
  | ldvFeKeep (g : Guard) (one : Bool) (d : VReg) (s : AReg) (l : Land)
  | stv (g : Guard) (d : VReg) (s : AReg) (o : Imm)
  | stvFe (g : Guard) (d : VReg) (s : AReg) (o : Imm)
  | ldvg (g : Guard) (d : VReg) (s : AReg) (l : Land)
  | stvs (g : Guard) (d : VReg) (s : AReg) (t : VReg)
  | setfe (g : Guard) (d : XReg) (s : AReg)
  | clrfe (g : Guard) (d : XReg) (s : AReg)
  | spill (g : Guard) (d : VReg)
  | fill (g : Guard) (d : VReg) (l : Land)
  | pref (g : Guard) (s : AReg) (o : Imm)
  | atom (g : Guard) (op : AtomOp) (dbl : Bool) (d : XReg) (s : AReg) (l : Land)
  | cas (g : Guard) (dbl : Bool) (d : XReg) (s : AReg) (l : Land)
  | red (g : Guard) (op : AtomOp) (dbl : Bool) (d : XReg) (s : AReg) (o : Option (BitVec 32))
  | chkout (g : Guard) (d : XReg) (s : AReg)
  | chkin (g : Guard) (s : AReg)
  | copy (g : Guard) (tk : Option TokReg) (d s : AReg) (n : CopyLen)
  | copys (g : Guard) (tk : Option TokReg) (d s : AReg) (t : XReg)
  | copyg (g : Guard) (tk : Option TokReg) (d s : AReg) (t : VReg)
  | copyfe (g : Guard) (tk : Option TokReg) (d s : AReg) (t : XReg)
  | gemv (g : Guard) (tk : Option TokReg) (d s t : AReg)
  | bankmode (g : Guard) (s : XReg)
  | flush (g : Guard) (d : XReg) (s : AReg)
  | inval (g : Guard) (d : XReg) (s : AReg)
  | mma (g : Guard) (d : TReg) (s t : AReg) (xm xn xk : XReg) (f : MFmt)
  | mmat (g : Guard) (d : TReg) (s t : AReg) (xm xn xk : XReg) (f : MFmt)
  | accz (g : Guard) (d : TReg)
  | accret (g : Guard) (d : TReg) (s : AReg) (ty : ETy)
  | accadd (g : Guard) (d : TReg) (s : AReg) (ty : ETy) (port : BitVec 2)
  | accld (g : Guard) (d : TReg) (s : AReg)
  | accst (g : Guard) (d : TReg) (s : AReg)
  | accrd (g : Guard) (d : VReg) (s : TReg) (xm : XReg)
  | accwr (g : Guard) (d : TReg) (s : VReg) (xm : XReg)
  | vadd (g : Guard) (d s t : VReg) (m : QReg) (ty : ETy) (rm : Rm)
  | vsub (g : Guard) (d s t : VReg) (m : QReg) (ty : ETy) (rm : Rm)
  | vmul (g : Guard) (d s t : VReg) (m : QReg) (ty : ETy) (rm : Rm)
  | vfma (g : Guard) (d s t u : VReg) (m : QReg) (ty : ETy) (rm : Rm)
  | vmin (g : Guard) (d s t : VReg) (m : QReg) (ty : ETy)
  | vmax (g : Guard) (d s t : VReg) (m : QReg) (ty : ETy)
  | vabs (g : Guard) (d s : VReg) (m : QReg) (ty : ETy)
  | vneg (g : Guard) (d s : VReg) (m : QReg) (ty : ETy)
  | vclamp (g : Guard) (d s t u : VReg) (m : QReg) (ty : ETy)
  | vrcp (g : Guard) (d s : VReg) (m : QReg)
  | vrsq (g : Guard) (d s : VReg) (m : QReg)
  | vexp2 (g : Guard) (d s : VReg) (m : QReg)
  | vlog2 (g : Guard) (d s : VReg) (m : QReg)
  | vand (g : Guard) (d s t : VReg) (m : QReg)
  | vor (g : Guard) (d s t : VReg) (m : QReg)
  | vxor (g : Guard) (d s t : VReg) (m : QReg)
  | vshl (g : Guard) (d s : VReg) (t : VCount) (m : QReg)
  | vshr (g : Guard) (d s : VReg) (t : VCount) (m : QReg)
  | vshra (g : Guard) (d s : VReg) (t : VCount) (m : QReg)
  | vcmp (g : Guard) (c : Cond) (d : QReg) (s t : VReg) (m : QReg) (ty : ETy)
  | vsel (g : Guard) (d s t : VReg) (u : QReg) (m : QReg)
  | vmov (g : Guard) (d s : VReg) (m : QReg)
  | vbcast (g : Guard) (d : VReg) (s : VBSrc) (m : QReg)
  | vperm (g : Guard) (d s t : VReg) (m : QReg)
  | vslide (g : Guard) (d s : VReg) (t : XReg) (m : QReg)
  | vslideDn (g : Guard) (d s : VReg) (t : XReg) (m : QReg)
  | vred (g : Guard) (op : RedOp) (d s : VReg) (m : QReg) (ty : ETy) (rm : Rm)
  | vscan (g : Guard) (op : RedOp) (d s : VReg) (m : QReg) (ty : ETy) (rm : Rm)
  | vany (g : Guard) (d : PReg) (s : QReg) (m : QReg)
  | vall (g : Guard) (d : PReg) (s : QReg) (m : QReg)
  | vfirst (g : Guard) (d : XReg) (s : QReg) (m : QReg)
  | vpopc (g : Guard) (d : XReg) (s : QReg) (m : QReg)
  | viota (g : Guard) (d : VReg) (m : QReg)
  | vextr (g : Guard) (d : XReg) (s : VReg) (t : XReg)
  | vins (g : Guard) (d : VReg) (s t : XReg)
  | vcvt (g : Guard) (d s : VReg) (m : QReg) (src dst : ETy) (rm : Rm) (nsat : Bool)
  | vqmx (g : Guard) (d s t : VReg) (ty : ETy) (rm : Rm) (nsat : Bool)
  | vdqmx (g : Guard) (d s t : VReg) (m : QReg) (ty : ETy) (rm : Rm)
  | vrand (g : Guard) (d s t : VReg) (m : QReg) (ty : ETy) (adv : Bool)
  | qand (g : Guard) (d s t : QReg) (m : QReg)
  | qor (g : Guard) (d s t : QReg) (m : QReg)
  | qxor (g : Guard) (d s t : QReg) (m : QReg)
  | qnot (g : Guard) (d s : QReg) (m : QReg)
  | sortb (g : Guard) (asc : Bool) (d s t : VReg)
  | merge (g : Guard) (asc : Bool) (d s : VReg)
  | cmrg (g : Guard) (s t : VReg)
  | cget (g : Guard) (idx : Bool) (d : XReg) (k : KReg)
  | cclr (g : Guard)
  | ctopp (g : Guard) (d s : XReg)
  | cdraw (g : Guard) (d s : XReg)
  | fenceAcq (g : Guard) (c : Scope)
  | fenceRel (g : Guard) (c : Scope)
  | fenceFull (g : Guard) (c : Scope)
  | drain (g : Guard) (c : Scope)
  | push (g : Guard) (d : XReg) (s : AReg) (t : XReg)
  | pop (g : Guard) (d s : XReg)
  | qstat (g : Guard) (d s : XReg)
  | notify (g : Guard) (s : AReg) (t : XReg)
  | launch (g : Guard) (d : XReg) (s : AReg)
  | suspend (g : Guard) (s : XReg)
  | exit (g : Guard)
  | evpost (g : Guard) (s t : XReg)
  | dictld (g : Guard) (d : XReg) (s : AReg) (t : XReg)
  | tlbinvPage (g : Guard) (s : AReg)
  | tlbinvHc (g : Guard) (s : XReg)
  | tlbinvAll (g : Guard)
  | kvlook (g : Guard) (d s t : XReg)
  | kvapp (g : Guard) (d s t : XReg)
  | kvfork (g : Guard) (d s t : XReg)
  | kvtrunc (g : Guard) (d s t : XReg)
  | kvfree (g : Guard) (s t : XReg)
  | pfxfind (g : Guard) (d s t : XReg)
  | pfxins (g : Guard) (d s t : XReg)
  | strunc (g : Guard) (d s t : XReg)
  | scommit (g : Guard) (d s t : XReg)
  | sframe (g : Guard) (d : XReg) (s : AReg) (t : XReg)
  | btsnap (g : Guard) (s : AReg) (t : XReg)
  | obsel (g : Guard) (d : BReg)
  | stage (g : Guard) (s : XReg)
  | tokclr (g : Guard) (s : XReg)
  | bar (g : Guard) (s : XReg)
  | lnscfg (g : Guard) (s t : XReg)
  | lnsrun (g : Guard) (s : XReg)
  | lnsbrk (g : Guard)
  | seqlen (g : Guard) (s : XReg)
  | cntrd (g : Guard) (d s : XReg)
  | cntclr (g : Guard) (s : XReg)
  | resume (g : Guard) (s : XReg)
  | fqpop (g : Guard) (d : XReg) (s : AReg)
  /-- A half or front end finishes its wake test, passing or failing (R356). -/
  | wakeTest (deck : Fin 4) (u : HealthUnit) (ok : Bool)
  /-- The binder of a deck takes its next request (R23, R357). -/
  | binderRun (deck : Fin 4)
  /-- A half or front end is found failed (R453). -/
  | partFailure (deck : Fin 4) (u : HealthUnit)
  /-- A marked, empty cluster rebinds; a half that fails its wake test is named (R29, R30). -/
  | rebind (cluster : Fin 32) (bad : Option (Fin 72))
  /-- One cycle of one core's selector (R343). -/
  | selectorCycle (core : Fin 128)
  /-- The datum of the strand's landing of that number arrives (R57). -/
  | landingDataArrival (core : Fin 128) (strand : Fin 4) (n : Nat)
  /-- The operation at an engine queue's head begins (R118); `defer` leaves its home requests to HOME_REQUEST_RUN. -/
  | engineOpStart (core : Fin 128) (strand : Fin 4) (e : Engine) (defer : Bool)
  /-- The operation an engine has begun completes (R135). -/
  | engineOpComplete (core : Fin 128) (strand : Fin 4) (e : Engine)
  /-- A walk in progress ends (R375). -/
  | tlbWalkComplete (n : Nat)
  /-- The home runs the next request of a line's list (R13). -/
  | homeRequestRun (line : Nat)
  /-- A bank's mode change completes (R244). -/
  | bankModeChange (cluster : Fin 32) (bank : Fin 128)
  /-- A copy in flight performs its next sectors and, with the last, completes (R284, R290). -/
  | copyComplete (n : Nat)
  /-- A GEMV in flight writes its outputs and completes (R296). -/
  | gemvComplete (n : Nat)
  /-- The strand's next copy-schedule entry starts (R292). -/
  | copyschedEntryStart (core : Fin 128) (strand : Fin 4)
  /-- An MMA in flight has read its operands (R211). -/
  | mmaOperandsConsumed (n : Nat)
  /-- An MMA in flight writes its elements (R216). -/
  | mmaComplete (n : Nat)
  /-- A push entry in flight is written at its consumer (R260). -/
  | pushDelivery (n : Nat)
  /-- The dependence conditions of a suspended launch are met (R351). -/
  | suspendDependenceMet (launch : Nat)
  /-- A suspended launch that has been placed again is restored (R65). -/
  | gangResume (launch : Nat)
  /-- The scheduler serves a tail-word signal of a HOST-mode stream (R330). -/
  | tailWordSignal (hc : Fin 64) (stream : Fin 4)
  /-- The scheduler serves a notify queue's signal (R336). -/
  | notifySignal (hc : Fin 64) (stream : Fin 4)
  /-- A placed launch starts (R49, R50). -/
  | gangStart (launch : Nat)
  /-- The next completion record of a stream is written (R42, R43). -/
  | launchComplete (hc : Fin 64) (stream : Fin 4)
  /-- A waiting fault record of a context is written (R437). -/
  | faultRecordWrite (hc : Fin 64)
  /-- A launch runs past its watchdog limit (R446). -/
  | watchdog (launch : Nat)
  /-- An uncorrectable error strikes a context's state (R451). -/
  | uncorrectableError (hc : Fin 64)
  /-- A back-invalidation snoop for a pool line (R258). -/
  | bisnp (line : Nat)
  /-- A host CXL.mem write of bytes at a device-HBM address (R461). -/
  | hostMemWrite (pa : Nat) (bytes : List Byte)
  /-- A host write of eight bytes of BAR0 (R3, R461). -/
  | hostRegisterWrite (off : Nat) (v : BitVec 64)
  /-- A host write of a stream descriptor's MODE (R329). -/
  | streamModeWrite (hc : Fin 64) (stream : Fin 4) (mode : BitVec 2)
  /-- A host write of CONTROL.PAUSE (R462). -/
  | controlPause (hc : Fin 64) (pause : Bool)
  /-- A host write of RESUMEW (R443, R462). -/
  | resumew (hc : Fin 64) (w : BitVec 64)
  /-- HALTCTL level 1 (R460). -/
  | haltSoft (core : Fin 128)
  /-- HALTCTL level 2 (R460). -/
  | haltHard (core : Fin 128)
  /-- HALTCTL level 0 (R460). -/
  | haltRelease (core : Fin 128)
  /-- A half that has been unused for 10 ms is power-gated (R474). -/
  | halfPowerGate (deck : Fin 4) (half : Fin 72)
  /-- An ECC error in a granule of a bank, single-bit or double-bit (R246). -/
  | sramEccError (cluster : Fin 32) (bank : Fin 128) (granule : BitVec 12) (dbl : Bool)
  /-- One head of a pool device fails (R466). -/
  | poolHeadFailover (device : Fin 16) (head : Fin 2)
  /-- A host snoop of a host line, invalidating or downgrading (R240, R490). -/
  | hostSnoop (line : Nat) (inv : Bool)
  /-- The fabric manager adds an extent (R468). -/
  | dcAddEvent (device : Fin 16) (dpa len : Nat)
  /-- The fabric manager asks for an extent back (R468). -/
  | dcReleaseRequest (device : Fin 16) (dpa len : Nat)
  /-- One millisecond's clock step, down or up (R476). -/
  | clockStep (down : Bool)
  /-- The oldest READY launch of a class has waited 2 ms (R338). -/
  | oldestLaunchWait2Ms (cls : Fin 3)
  /-- A device-HBM line's ECC fails, or a correctable error is counted (R246). -/
  | hbmEccFailure (line : Nat) (correctable : Bool)
  /-- An SPDM measurement request over DOE (R472). -/
  | spdmRequest (index : Nat)
  /-- Cold reset (R4). -/
  | coldReset
  /-- One placement pass of the scheduler (R337). -/
  | placementPass
  /-- The next thermal level's threshold is reached (R476). -/
  | thermalLevelEnter
  /-- The current thermal level is left (R476). -/
  | thermalLevelLeave
  /-- Mean module power over 1 ms exceeds PLIMIT (R477). -/
  | powerLimitExceeded
  /-- The critical temperature is reached (R477). -/
  | criticalShutdown
  /-- The hourly write of the lifetime record (R431). -/
  | lifetimeFlush
  | hccreate
  | hcdestroy
  | hcrestart
  | reside
  | unload
  | ptewrite
  | tlbdrop
  | medreg
  | pfxremove
  | streamopen
  | streamclose
  | keyadd
  | clusterreset
  | dcaccept
  | dcrelease
  | liferead
  /-- All HBM stacks are trained (R473). -/
  | stacksTrained
  /-- The near-memory engines are trained (R473). -/
  | nearMemoryEnginesTrained
  /-- Thermal calibration is done (R473). -/
  | thermalCalibrationDone
  /-- Orderly shutdown (R431). -/
  | orderlyShutdown
  deriving DecidableEq, Repr

end Sys2Proof
end

