-- ==== Sys2Proof/WellFormed.lean ====
section
/-! DEFINITION. The checks an instruction must pass beyond its typed fields (spec 04 R102, R104; 07 R184, R185; the forms' own rows). -/

namespace Sys2Proof

/-- ?!p0 is an illegal encoding (R102). -/
def Guard.ok (g : Guard) : Bool := !(g.neg && g.p == 0)

/-- An L of 0 is illegal (R54, R104). -/
def Land.ok : Land → Bool
  | .short l => l != 0
  | .long _ l => l != 0

/-- A count immediate: 0 to 63 in either form (R156). -/
def Imm.countOk : Imm → Bool
  | .short i => i.toNat < 64
  | .long l => l.toNat < 64

/-- Codes 0 to 5, the only ones FCMP and a floating VCMP accept (R107). -/
def Cond.floatOk : Cond → Bool
  | .eq | .ne | .lt | .le | .gt | .ge => true
  | _ => false

/-- TY codes 0 to 8 (R184). -/
def ETy.arith : ETy → Bool
  | .i32 | .n32 | .i16 | .n16 | .i8 | .n8 | .f32 | .bf16 | .f16 => true
  | _ => false

/-- TY codes 0 to 5 (R184). -/
def ETy.arithInt : ETy → Bool
  | .i32 | .n32 | .i16 | .n16 | .i8 | .n8 => true
  | _ => false

/-- The block types of VQMX and VDQMX (R184). -/
def ETy.mx : ETy → Bool
  | .i8 | .e4m3 | .e5m2 | .e2m1 => true
  | _ => false

/-- An arithmetic type with its rounding: RM must be 0 with an integer type (R184). -/
def ETy.arithRm (ty : ETy) (rm : Rm) : Bool := ty.arith && (!ty.arithInt || rm == .fmode)

/-- The types and rounding of VRED and VSCAN (R184). -/
def RedOp.tyOk (op : RedOp) (ty : ETy) (rm : Rm) : Bool :=
  match op with
  | .add => ty.arithRm rm
  | .min | .max => ty.arith && rm == .fmode
  | .and | .or | .xor => ty.arithInt && rm == .fmode

/-- The special registers PUTS may name (R151). -/
def SReg.puttable : SReg → Bool
  | .fstat | .fmode | .bindsel => true
  | _ => false

/-- An even register number (R102). -/
def evenReg {n : Nat} (r : Fin n) : Bool := r.val % 2 == 0

/-- The guard of a slot operation; an event has none. -/
def Instr.guard? : Instr → Option Guard
  | .add g _ _ _ => some g
  | .addImm g _ _ _ => some g
  | .sub g _ _ _ => some g
  | .subImm g _ _ _ => some g
  | .mul g _ _ _ => some g
  | .mulImm g _ _ _ => some g
  | .mulh g _ _ _ => some g
  | .mulhImm g _ _ _ => some g
  | .mulhn g _ _ _ => some g
  | .mulhnImm g _ _ _ => some g
  | .div g _ _ _ => some g
  | .divImm g _ _ _ => some g
  | .divn g _ _ _ => some g
  | .divnImm g _ _ _ => some g
  | .rem g _ _ _ => some g
  | .remImm g _ _ _ => some g
  | .remn g _ _ _ => some g
  | .remnImm g _ _ _ => some g
  | .and g _ _ _ => some g
  | .andImm g _ _ _ => some g
  | .or g _ _ _ => some g
  | .orImm g _ _ _ => some g
  | .xor g _ _ _ => some g
  | .xorImm g _ _ _ => some g
  | .andn g _ _ _ => some g
  | .andnImm g _ _ _ => some g
  | .shl g _ _ _ => some g
  | .shlImm g _ _ _ => some g
  | .shr g _ _ _ => some g
  | .shrImm g _ _ _ => some g
  | .shra g _ _ _ => some g
  | .shraImm g _ _ _ => some g
  | .rol g _ _ _ => some g
  | .rolImm g _ _ _ => some g
  | .min g _ _ _ => some g
  | .minImm g _ _ _ => some g
  | .max g _ _ _ => some g
  | .maxImm g _ _ _ => some g
  | .minn g _ _ _ => some g
  | .minnImm g _ _ _ => some g
  | .maxn g _ _ _ => some g
  | .maxnImm g _ _ _ => some g
  | .clz g _ _ => some g
  | .ctz g _ _ => some g
  | .popc g _ _ => some g
  | .abs g _ _ => some g
  | .sext g _ _ _ => some g
  | .zext g _ _ _ => some g
  | .bfx g _ _ _ => some g
  | .bfxN g _ _ _ => some g
  | .bfi g _ _ _ => some g
  | .sel g _ _ _ => some g
  | .li g _ _ => some g
  | .fadd g _ _ _ => some g
  | .fsub g _ _ _ => some g
  | .fmul g _ _ _ => some g
  | .ffma g _ _ _ => some g
  | .fmin g _ _ _ => some g
  | .fmax g _ _ _ => some g
  | .cvtf g _ _ => some g
  | .cvtfN g _ _ => some g
  | .cvti g _ _ => some g
  | .cvtiN g _ _ => some g
  | .pand g _ _ _ => some g
  | .por g _ _ _ => some g
  | .pxor g _ _ _ => some g
  | .pandn g _ _ _ => some g
  | .pget g _ => some g
  | .pset g _ => some g
  | .ptb g _ _ => some g
  | .ptbx g _ _ => some g
  | .br g _ => some g
  | .brl g _ _ => some g
  | .trap g _ => some g
  | .aadd g _ _ _ => some g
  | .aaddImm g _ _ _ => some g
  | .aset g _ _ => some g
  | .aget g _ _ => some g
  | .alea g _ _ _ => some g
  | .cmp g _ _ _ _ => some g
  | .cmpImm g _ _ _ _ => some g
  | .fcmp g _ _ _ _ => some g
  | .gets g _ _ => some g
  | .puts g _ _ => some g
  | .ld g _ _ _ _ => some g
  | .ldN g _ _ _ _ => some g
  | .st g _ _ _ _ => some g
  | .ldv g _ _ _ => some g
  | .ldvFeTake g _ _ _ _ => some g
  | .ldvFeKeep g _ _ _ _ => some g
  | .stv g _ _ _ => some g
  | .stvFe g _ _ _ => some g
  | .ldvg g _ _ _ => some g
  | .stvs g _ _ _ => some g
  | .setfe g _ _ => some g
  | .clrfe g _ _ => some g
  | .spill g _ => some g
  | .fill g _ _ => some g
  | .pref g _ _ => some g
  | .atom g _ _ _ _ _ => some g
  | .cas g _ _ _ _ => some g
  | .red g _ _ _ _ _ => some g
  | .chkout g _ _ => some g
  | .chkin g _ => some g
  | .copy g _ _ _ _ => some g
  | .copys g _ _ _ _ => some g
  | .copyg g _ _ _ _ => some g
  | .copyfe g _ _ _ _ => some g
  | .gemv g _ _ _ _ => some g
  | .bankmode g _ => some g
  | .flush g _ _ => some g
  | .inval g _ _ => some g
  | .mma g _ _ _ _ _ _ _ => some g
  | .mmat g _ _ _ _ _ _ _ => some g
  | .accz g _ => some g
  | .accret g _ _ _ => some g
  | .accadd g _ _ _ _ => some g
  | .accld g _ _ => some g
  | .accst g _ _ => some g
  | .accrd g _ _ _ => some g
  | .accwr g _ _ _ => some g
  | .vadd g _ _ _ _ _ _ => some g
  | .vsub g _ _ _ _ _ _ => some g
  | .vmul g _ _ _ _ _ _ => some g
  | .vfma g _ _ _ _ _ _ _ => some g
  | .vmin g _ _ _ _ _ => some g
  | .vmax g _ _ _ _ _ => some g
  | .vabs g _ _ _ _ => some g
  | .vneg g _ _ _ _ => some g
  | .vclamp g _ _ _ _ _ _ => some g
  | .vrcp g _ _ _ => some g
  | .vrsq g _ _ _ => some g
  | .vexp2 g _ _ _ => some g
  | .vlog2 g _ _ _ => some g
  | .vand g _ _ _ _ => some g
  | .vor g _ _ _ _ => some g
  | .vxor g _ _ _ _ => some g
  | .vshl g _ _ _ _ => some g
  | .vshr g _ _ _ _ => some g
  | .vshra g _ _ _ _ => some g
  | .vcmp g _ _ _ _ _ _ => some g
  | .vsel g _ _ _ _ _ => some g
  | .vmov g _ _ _ => some g
  | .vbcast g _ _ _ => some g
  | .vperm g _ _ _ _ => some g
  | .vslide g _ _ _ _ => some g
  | .vslideDn g _ _ _ _ => some g
  | .vred g _ _ _ _ _ _ => some g
  | .vscan g _ _ _ _ _ _ => some g
  | .vany g _ _ _ => some g
  | .vall g _ _ _ => some g
  | .vfirst g _ _ _ => some g
  | .vpopc g _ _ _ => some g
  | .viota g _ _ => some g
  | .vextr g _ _ _ => some g
  | .vins g _ _ _ => some g
  | .vcvt g _ _ _ _ _ _ _ => some g
  | .vqmx g _ _ _ _ _ _ => some g
  | .vdqmx g _ _ _ _ _ _ => some g
  | .vrand g _ _ _ _ _ _ => some g
  | .qand g _ _ _ _ => some g
  | .qor g _ _ _ _ => some g
  | .qxor g _ _ _ _ => some g
  | .qnot g _ _ _ => some g
  | .sortb g _ _ _ _ => some g
  | .merge g _ _ _ => some g
  | .cmrg g _ _ => some g
  | .cget g _ _ _ => some g
  | .cclr g => some g
  | .ctopp g _ _ => some g
  | .cdraw g _ _ => some g
  | .fenceAcq g _ => some g
  | .fenceRel g _ => some g
  | .fenceFull g _ => some g
  | .drain g _ => some g
  | .push g _ _ _ => some g
  | .pop g _ _ => some g
  | .qstat g _ _ => some g
  | .notify g _ _ => some g
  | .launch g _ _ => some g
  | .suspend g _ => some g
  | .exit g => some g
  | .evpost g _ _ => some g
  | .dictld g _ _ _ => some g
  | .tlbinvPage g _ => some g
  | .tlbinvHc g _ => some g
  | .tlbinvAll g => some g
  | .kvlook g _ _ _ => some g
  | .kvapp g _ _ _ => some g
  | .kvfork g _ _ _ => some g
  | .kvtrunc g _ _ _ => some g
  | .kvfree g _ _ => some g
  | .pfxfind g _ _ _ => some g
  | .pfxins g _ _ _ => some g
  | .strunc g _ _ _ => some g
  | .scommit g _ _ _ => some g
  | .sframe g _ _ _ => some g
  | .btsnap g _ _ => some g
  | .obsel g _ => some g
  | .stage g _ => some g
  | .tokclr g _ => some g
  | .bar g _ => some g
  | .lnscfg g _ _ => some g
  | .lnsrun g _ => some g
  | .lnsbrk g => some g
  | .seqlen g _ => some g
  | .cntrd g _ _ => some g
  | .cntclr g _ => some g
  | .resume g _ => some g
  | .fqpop g _ _ => some g
  | .coldReset => none
  | .wakeTest _ _ _ => none
  | .binderRun _ => none
  | .partFailure _ _ => none
  | .rebind _ _ => none
  | .halfPowerGate _ _ => none
  | .selectorCycle _ => none
  | .landingDataArrival _ _ _ => none
  | .engineOpStart _ _ _ _ => none
  | .engineOpComplete _ _ _ => none
  | .tlbWalkComplete _ => none
  | .homeRequestRun _ => none
  | .bankModeChange _ _ => none
  | .copyComplete _ => none
  | .gemvComplete _ => none
  | .copyschedEntryStart _ _ => none
  | .mmaOperandsConsumed _ => none
  | .mmaComplete _ => none
  | .pushDelivery _ => none
  | .suspendDependenceMet _ => none
  | .gangResume _ => none
  | .tailWordSignal _ _ => none
  | .notifySignal _ _ => none
  | .placementPass => none
  | .gangStart _ => none
  | .launchComplete _ _ => none
  | .faultRecordWrite _ => none
  | .watchdog _ => none
  | .uncorrectableError _ => none
  | .sramEccError _ _ _ _ => none
  | .poolHeadFailover _ _ => none
  | .bisnp _ => none
  | .hostSnoop _ _ => none
  | .hostMemWrite _ _ => none
  | .dcAddEvent _ _ _ => none
  | .dcReleaseRequest _ _ _ => none
  | .thermalLevelEnter => none
  | .thermalLevelLeave => none
  | .clockStep _ => none
  | .powerLimitExceeded => none
  | .criticalShutdown => none
  | .lifetimeFlush => none
  | .hostRegisterWrite _ _ => none
  | .streamModeWrite _ _ _ => none
  | .controlPause _ _ => none
  | .resumew _ _ => none
  | .haltSoft _ => none
  | .haltHard _ => none
  | .haltRelease _ => none
  | .hccreate => none
  | .hcdestroy => none
  | .hcrestart => none
  | .reside => none
  | .unload => none
  | .ptewrite => none
  | .tlbdrop => none
  | .medreg => none
  | .pfxremove => none
  | .streamopen => none
  | .streamclose => none
  | .keyadd => none
  | .clusterreset => none
  | .dcaccept => none
  | .dcrelease => none
  | .liferead => none
  | .oldestLaunchWait2Ms _ => none
  | .stacksTrained => none
  | .nearMemoryEnginesTrained => none
  | .thermalCalibrationDone => none
  | .hbmEccFailure _ _ => none
  | .spdmRequest _ => none
  | .orderlyShutdown => none

/-- Whether an instruction's fields hold only values its row and description accept. -/
def Instr.wf (i : Instr) : Bool :=
  (match i.guard? with
   | some g => g.ok
   | none => true) &&
  (match i with
   | .shlImm _ _ _ i | .shrImm _ _ _ i | .shraImm _ _ _ i | .rolImm _ _ _ i => i.countOk
   | .fcmp _ c _ _ _ => c.floatOk
   | .puts _ _ r => r.puttable
   | .ld _ _ _ _ l => l.ok
   | .ldN _ z _ _ l => z != .d && l.ok
   | .ldv _ _ _ l => l.ok
   | .ldvFeTake _ _ _ _ l => l.ok
   | .ldvFeKeep _ _ _ _ l => l.ok
   | .ldvg _ _ _ l => l.ok
   | .fill _ _ l => l.ok
   | .atom _ _ _ _ _ l => l.ok
   | .cas _ _ d _ l => evenReg d && d != 0 && l.ok
   | .red _ op _ _ _ _ => op != .swap
   | .vadd _ _ _ _ _ ty rm | .vsub _ _ _ _ _ ty rm | .vmul _ _ _ _ _ ty rm => ty.arithRm rm
   | .vfma _ _ _ _ _ _ ty rm => ty.arithRm rm
   | .vmin _ _ _ _ _ ty | .vmax _ _ _ _ _ ty => ty.arith
   | .vabs _ _ _ _ ty | .vneg _ _ _ _ ty => ty.arith
   | .vclamp _ _ _ _ _ _ ty => ty.arith
   | .vcmp _ c _ _ _ _ ty => ty.arith && (ty.arithInt || c.floatOk)
   | .vred _ op _ _ _ ty rm | .vscan _ op _ _ _ ty rm => op.tyOk ty rm
   | .vqmx _ d _ t ty _ _ => ty.mx && d != t
   | .vdqmx _ _ _ _ _ ty _ => ty.mx
   | .vrand _ d s t _ ty adv =>
       evenReg s && evenReg t && (ty == .n32 || ty == .f32) && !(adv && (d == s || d.val == s.val + 1))
   | .sortb _ _ d _ _ => evenReg d
   | .merge _ _ d s => evenReg d && evenReg s
   | .dcAddEvent _ a n | .dcReleaseRequest _ a n => a % 65536 == 0 && n % 65536 == 0
   | .spdmRequest n => decide (1 ≤ n ∧ n ≤ 7)
   | _ => true)

end Sys2Proof
end

