-- ==== Sys2Proof/Decode.lean ====
section
/-! DEFINITION. Decoding of slot words and bundles, and the encoder of slot operations (spec 03 R69 to R78, 04 R98 to R114). -/

namespace Sys2Proof

/-- The kinds of slot, each with its own opcode map (R106 to R114). -/
inductive SlotKind where
  | s | a | c | m | v | x | q
  deriving DecidableEq, Repr

/-- The width of a slot in bits (R69). -/
def SlotKind.width : SlotKind → Nat
  | .m => 64
  | .v => 48
  | _ => 32

/-- The kind of slot number n (R69). -/
def SlotKind.ofNum : Nat → SlotKind
  | 0 | 1 => .s
  | 2 => .a
  | 3 => .c
  | 4 => .m
  | 5 | 6 => .v
  | 7 => .x
  | _ => .q

/-- The fields of a slot word: the common fields (R98), and the extension fields of V (u, mask, ty, rm; R99) and M (xm, xn, xk, fmt, port, rsv; R100) slots, zero elsewhere. -/
structure Fields where
  op : Nat
  g : Nat := 0
  d : Nat := 0
  s : Nat := 0
  t : Nat := 0
  w : Nat := 0
  u : Nat := 0
  mask : Nat := 0
  ty : Nat := 0
  rm : Nat := 0
  xm : Nat := 0
  xn : Nat := 0
  xk : Nat := 0
  fmt : Nat := 0
  port : Nat := 0
  rsv : Nat := 0
  deriving DecidableEq, Repr

/-- The common 32 bits (R98). -/
def Fields.pack32 (f : Fields) : Nat :=
  f.op * 16777216 + f.g * 524288 + f.d * 8192 + f.s * 128 + f.t * 2 + f.w

/-- A slot word from its fields (R98 to R100). -/
def Fields.pack (k : SlotKind) (f : Fields) : Nat :=
  match k with
  | .v => f.pack32 * 65536 + f.u * 1024 + f.mask * 128 + f.ty * 8 + f.rm
  | .m => f.pack32 * 4294967296 + f.xm * 67108864 + f.xn * 1048576 + f.xk * 16384 + f.fmt * 1024 + f.port * 256 + f.rsv
  | _ => f.pack32

/-- The common fields of 32 bits (R98). -/
def Fields.unpack32 (w : Nat) : Fields :=
  { op := w / 16777216 % 256, g := w / 524288 % 32, d := w / 8192 % 64, s := w / 128 % 64, t := w / 2 % 64, w := w % 2 }

/-- The fields of a slot word (R98 to R100). -/
def Fields.unpack (k : SlotKind) (w : Nat) : Fields :=
  match k with
  | .v => { Fields.unpack32 (w / 65536) with u := w / 1024 % 64, mask := w / 128 % 8, ty := w / 8 % 16, rm := w % 8 }
  | .m => { Fields.unpack32 (w / 4294967296) with
      xm := w / 67108864 % 64, xn := w / 1048576 % 64, xk := w / 16384 % 64, fmt := w / 1024 % 16, port := w / 256 % 4, rsv := w % 256 }
  | _ => Fields.unpack32 w

/-! ### Reading fields -/

/-- A register number of a class of n (R101). -/
def reg? (n v : Nat) : Option (Fin n) := if h : v < n then some ⟨v, h⟩ else none

/-- A condition on the fields that a form's row marks zero (R102). -/
def need (b : Bool) : Option Unit := if b then some () else none

/-- The guard field: bit 4 negates, the rest names p0 to p15 (R98). -/
def guardOf? (v : Nat) : Option Guard := if h : v < 32 then some ⟨decide (16 ≤ v), ⟨v % 16, by omega⟩⟩ else none

/-- A signed, natural or count immediate: imm7, or LIMM with a zero short field (R103). -/
def imm? (f : Fields) (lim : Option Nat) : Option Imm :=
  match lim with
  | none => some (.short (BitVec.ofNat 7 (f.t * 2 + f.w)))
  | some l => if f.t = 0 ∧ f.w = 0 ∧ l < 4294967296 then some (.long (BitVec.ofNat 32 l)) else none

/-- A landing distance with its offset (R104). -/
def land? (f : Fields) (lim : Option Nat) : Option Land :=
  match lim with
  | none => some (.short (BitVec.ofNat 6 f.t))
  | some l => if f.t = 0 ∧ l < 4294967296 then some (.long (BitVec.ofNat 20 (l / 4096)) (BitVec.ofNat 12 (l % 4096))) else none

/-- A token field: W = 1 names tk OP[2:0]; W = 0 with OP[2:0] = 0 names none (R109). -/
def tok? (f : Fields) (base : Nat) : Option (Option TokReg) :=
  if f.w = 1 then (reg? 8 (f.op - base)).map some
  else if f.w = 0 ∧ f.op = base then some none else none

def condOf? : Nat → Option Cond
  | 0 => some .eq | 1 => some .ne | 2 => some .lt | 3 => some .le | 4 => some .gt
  | 5 => some .ge | 6 => some .ltn | 7 => some .len | 8 => some .gtn | 9 => some .gen
  | _ => none

def sizeOf? : Nat → Option Size
  | 0 => some .b | 1 => some .h | 2 => some .w | 3 => some .d | _ => none

def atomOf? : Nat → Option AtomOp
  | 0 => some .add | 1 => some .and | 2 => some .or | 3 => some .xor | 4 => some .min
  | 5 => some .max | 6 => some .minn | 7 => some .maxn | 8 => some .swap | _ => none

def redOf? : Nat → Option RedOp
  | 0 => some .add | 1 => some .min | 2 => some .max | 3 => some .and | 4 => some .or | 5 => some .xor | _ => none

def tyOf? : Nat → Option ETy
  | 0 => some .i32 | 1 => some .n32 | 2 => some .i16 | 3 => some .n16 | 4 => some .i8 | 5 => some .n8
  | 6 => some .f32 | 7 => some .bf16 | 8 => some .f16 | 9 => some .e4m3 | 10 => some .e5m2 | 11 => some .e2m1
  | 12 => some .i4 | 13 => some .n4 | _ => none

def rmOf? : Nat → Option Rm
  | 0 => some .fmode | 1 => some .rne | 2 => some .rtz | 3 => some .rup | 4 => some .rdn | _ => none

def fmtOf? : Nat → Option MFmt
  | 0 => some .mxi8 | 1 => some .i8 | 2 => some .mxe4 | 3 => some .mxe5 | 4 => some .mxf4
  | 5 => some .bf16 | 6 => some .f16 | 7 => some .i4 | _ => none

def scopeOf? : Nat → Option Scope
  | 0 => some .strand | 1 => some .core | 2 => some .cluster | 3 => some .gang | 4 => some .device
  | 5 => some .pool | 6 => some .host | 7 => some .system | _ => none

def sregOf? : Nat → Option SReg
  | 0 => some .core | 1 => some .strand | 2 => some .gang | 3 => some .member | 4 => some .width | 5 => some .hcid
  | 8 => some .fstat | 9 => some .fmode | 16 => some .seqlen | 17 => some .occ | 18 => some .draft | 19 => some .scnt
  | 24 => some .cycle | 25 => some .segsig | 32 => some .bindsel | 33 => some .bindent | _ => none

/-! ### Codes -/

def Guard.code (g : Guard) : Nat := (if g.neg then 16 else 0) + g.p.val

def Cond.code : Cond → Nat
  | .eq => 0 | .ne => 1 | .lt => 2 | .le => 3 | .gt => 4 | .ge => 5 | .ltn => 6 | .len => 7 | .gtn => 8 | .gen => 9

def Size.code : Size → Nat
  | .b => 0 | .h => 1 | .w => 2 | .d => 3

def AtomOp.code : AtomOp → Nat
  | .add => 0 | .and => 1 | .or => 2 | .xor => 3 | .min => 4 | .max => 5 | .minn => 6 | .maxn => 7 | .swap => 8

def RedOp.code : RedOp → Nat
  | .add => 0 | .min => 1 | .max => 2 | .and => 3 | .or => 4 | .xor => 5

def ETy.code : ETy → Nat
  | .i32 => 0 | .n32 => 1 | .i16 => 2 | .n16 => 3 | .i8 => 4 | .n8 => 5 | .f32 => 6 | .bf16 => 7 | .f16 => 8
  | .e4m3 => 9 | .e5m2 => 10 | .e2m1 => 11 | .i4 => 12 | .n4 => 13

def Rm.code : Rm → Nat
  | .fmode => 0 | .rne => 1 | .rtz => 2 | .rup => 3 | .rdn => 4

def MFmt.code : MFmt → Nat
  | .mxi8 => 0 | .i8 => 1 | .mxe4 => 2 | .mxe5 => 3 | .mxf4 => 4 | .bf16 => 5 | .f16 => 6 | .i4 => 7

def Scope.code : Scope → Nat
  | .strand => 0 | .core => 1 | .cluster => 2 | .gang => 3 | .device => 4 | .pool => 5 | .host => 6 | .system => 7

def SReg.code : SReg → Nat
  | .core => 0 | .strand => 1 | .gang => 2 | .member => 3 | .width => 4 | .hcid => 5 | .fstat => 8 | .fmode => 9
  | .seqlen => 16 | .occ => 17 | .draft => 18 | .scnt => 19 | .cycle => 24 | .segsig => 25 | .bindsel => 32 | .bindent => 33

/-! ### Parsers of the forms, by the shape of their rows -/

/-- How a row reads its fields and its LIMM into an instruction. -/
abbrev Parser := Fields → Option Nat → Option Instr

def pXXX (mk : Guard → XReg → XReg → XReg → Instr) : Parser := fun f lim => do
  let g ← guardOf? f.g
  let d ← reg? 64 f.d
  let s ← reg? 64 f.s
  let t ← reg? 64 f.t
  need (f.w == 0 && lim.isNone)
  return mk g d s t

def pXXI (mk : Guard → XReg → XReg → Imm → Instr) : Parser := fun f lim => do
  let g ← guardOf? f.g
  let d ← reg? 64 f.d
  let s ← reg? 64 f.s
  let i ← imm? f lim
  return mk g d s i

def pXX (mk : Guard → XReg → XReg → Instr) : Parser := fun f lim => do
  let g ← guardOf? f.g
  let d ← reg? 64 f.d
  let s ← reg? 64 f.s
  need (f.t == 0 && f.w == 0 && lim.isNone)
  return mk g d s

def pXI (mk : Guard → XReg → Imm → Instr) : Parser := fun f lim => do
  let g ← guardOf? f.g
  let d ← reg? 64 f.d
  let i ← imm? f lim
  need (f.s == 0)
  return mk g d i

def pPPP (mk : Guard → PReg → PReg → PReg → Instr) : Parser := fun f lim => do
  let g ← guardOf? f.g
  let d ← reg? 16 f.d
  let s ← reg? 16 f.s
  let t ← reg? 16 f.t
  need (f.w == 0 && lim.isNone)
  return mk g d s t

def pX (mk : Guard → XReg → Instr) : Parser := fun f lim => do
  let g ← guardOf? f.g
  let d ← reg? 64 f.d
  need (f.s == 0 && f.t == 0 && f.w == 0 && lim.isNone)
  return mk g d

def pSX (mk : Guard → XReg → Instr) : Parser := fun f lim => do
  let g ← guardOf? f.g
  let s ← reg? 64 f.s
  need (f.d == 0 && f.t == 0 && f.w == 0 && lim.isNone)
  return mk g s

def pBI (mk : Guard → BReg → Imm → Instr) : Parser := fun f lim => do
  let g ← guardOf? f.g
  let d ← reg? 8 f.d
  let i ← imm? f lim
  need (f.s == 0)
  return mk g d i

def pBX (mk : Guard → BReg → XReg → Instr) : Parser := fun f lim => do
  let g ← guardOf? f.g
  let d ← reg? 8 f.d
  let s ← reg? 64 f.s
  need (f.t == 0 && f.w == 0 && lim.isNone)
  return mk g d s

def pSB (mk : Guard → BReg → Instr) : Parser := fun f lim => do
  let g ← guardOf? f.g
  let s ← reg? 8 f.s
  need (f.d == 0 && f.t == 0 && f.w == 0 && lim.isNone)
  return mk g s

def pXB (mk : Guard → XReg → BReg → Instr) : Parser := fun f lim => do
  let g ← guardOf? f.g
  let d ← reg? 64 f.d
  let s ← reg? 8 f.s
  need (f.t == 0 && f.w == 0 && lim.isNone)
  return mk g d s

def pI (mk : Guard → Imm → Instr) : Parser := fun f lim => do
  let g ← guardOf? f.g
  let i ← imm? f lim
  need (f.d == 0 && f.s == 0)
  return mk g i

def pAAX (mk : Guard → AReg → AReg → XReg → Instr) : Parser := fun f lim => do
  let g ← guardOf? f.g
  let d ← reg? 16 f.d
  let s ← reg? 16 f.s
  let t ← reg? 64 f.t
  need (f.w == 0 && lim.isNone)
  return mk g d s t

def pAAI (mk : Guard → AReg → AReg → Imm → Instr) : Parser := fun f lim => do
  let g ← guardOf? f.g
  let d ← reg? 16 f.d
  let s ← reg? 16 f.s
  let i ← imm? f lim
  return mk g d s i

def pAX (mk : Guard → AReg → XReg → Instr) : Parser := fun f lim => do
  let g ← guardOf? f.g
  let d ← reg? 16 f.d
  let s ← reg? 64 f.s
  need (f.t == 0 && f.w == 0 && lim.isNone)
  return mk g d s

def pXA (mk : Guard → XReg → AReg → Instr) : Parser := fun f lim => do
  let g ← guardOf? f.g
  let d ← reg? 64 f.d
  let s ← reg? 16 f.s
  need (f.t == 0 && f.w == 0 && lim.isNone)
  return mk g d s

def pPXX (mk : Guard → PReg → XReg → XReg → Instr) : Parser := fun f lim => do
  let g ← guardOf? f.g
  let d ← reg? 16 f.d
  let s ← reg? 64 f.s
  let t ← reg? 64 f.t
  need (f.w == 0 && lim.isNone)
  return mk g d s t

def pPXI (mk : Guard → PReg → XReg → Imm → Instr) : Parser := fun f lim => do
  let g ← guardOf? f.g
  let d ← reg? 16 f.d
  let s ← reg? 64 f.s
  let i ← imm? f lim
  return mk g d s i

def pXAL (mk : Guard → XReg → AReg → Land → Instr) : Parser := fun f lim => do
  let g ← guardOf? f.g
  let d ← reg? 64 f.d
  let s ← reg? 16 f.s
  let l ← land? f lim
  need (f.w == 0)
  return mk g d s l

def pXAI (mk : Guard → XReg → AReg → Imm → Instr) : Parser := fun f lim => do
  let g ← guardOf? f.g
  let d ← reg? 64 f.d
  let s ← reg? 16 f.s
  let i ← imm? f lim
  return mk g d s i

def pVAL (mk : Guard → VReg → AReg → Land → Instr) : Parser := fun f lim => do
  let g ← guardOf? f.g
  let d ← reg? 32 f.d
  let s ← reg? 16 f.s
  let l ← land? f lim
  need (f.w == 0)
  return mk g d s l

def pVAI (mk : Guard → VReg → AReg → Imm → Instr) : Parser := fun f lim => do
  let g ← guardOf? f.g
  let d ← reg? 32 f.d
  let s ← reg? 16 f.s
  let i ← imm? f lim
  return mk g d s i

def pVAV (mk : Guard → VReg → AReg → VReg → Instr) : Parser := fun f lim => do
  let g ← guardOf? f.g
  let d ← reg? 32 f.d
  let s ← reg? 16 f.s
  let t ← reg? 32 f.t
  need (f.w == 0 && lim.isNone)
  return mk g d s t

def pV (mk : Guard → VReg → Instr) : Parser := fun f lim => do
  let g ← guardOf? f.g
  let d ← reg? 32 f.d
  need (f.s == 0 && f.t == 0 && f.w == 0 && lim.isNone)
  return mk g d

def pVL (mk : Guard → VReg → Land → Instr) : Parser := fun f lim => do
  let g ← guardOf? f.g
  let d ← reg? 32 f.d
  let l ← land? f lim
  need (f.s == 0 && f.w == 0)
  return mk g d l

def pSAI (mk : Guard → AReg → Imm → Instr) : Parser := fun f lim => do
  let g ← guardOf? f.g
  let s ← reg? 16 f.s
  let i ← imm? f lim
  need (f.d == 0)
  return mk g s i

def pSA (mk : Guard → AReg → Instr) : Parser := fun f lim => do
  let g ← guardOf? f.g
  let s ← reg? 16 f.s
  need (f.d == 0 && f.t == 0 && f.w == 0 && lim.isNone)
  return mk g s

def pNone (mk : Guard → Instr) : Parser := fun f lim => do
  let g ← guardOf? f.g
  need (f.d == 0 && f.s == 0 && f.t == 0 && f.w == 0 && lim.isNone)
  return mk g

def pSXX (mk : Guard → XReg → XReg → Instr) : Parser := fun f lim => do
  let g ← guardOf? f.g
  let s ← reg? 64 f.s
  let t ← reg? 64 f.t
  need (f.d == 0 && f.w == 0 && lim.isNone)
  return mk g s t

def pSAX (mk : Guard → AReg → XReg → Instr) : Parser := fun f lim => do
  let g ← guardOf? f.g
  let s ← reg? 16 f.s
  let t ← reg? 64 f.t
  need (f.d == 0 && f.w == 0 && lim.isNone)
  return mk g s t

def pXAX (mk : Guard → XReg → AReg → XReg → Instr) : Parser := fun f lim => do
  let g ← guardOf? f.g
  let d ← reg? 64 f.d
  let s ← reg? 16 f.s
  let t ← reg? 64 f.t
  need (f.w == 0 && lim.isNone)
  return mk g d s t

def pB (mk : Guard → BReg → Instr) : Parser := fun f lim => do
  let g ← guardOf? f.g
  let d ← reg? 8 f.d
  need (f.s == 0 && f.t == 0 && f.w == 0 && lim.isNone)
  return mk g d

def pSVV (mk : Guard → VReg → VReg → Instr) : Parser := fun f lim => do
  let g ← guardOf? f.g
  let s ← reg? 32 f.s
  let t ← reg? 32 f.t
  need (f.d == 0 && f.w == 0 && lim.isNone)
  return mk g s t

/-- SEXT and ZEXT: T holds a bit number (R160). -/
def pXXN (mk : Guard → XReg → XReg → BitVec 6 → Instr) : Parser := fun f lim => do
  let g ← guardOf? f.g
  let d ← reg? 64 f.d
  let s ← reg? 64 f.s
  need (f.w == 0 && lim.isNone)
  return mk g d s (BitVec.ofNat 6 f.t)

/-- Forms whose W picks one of two mnemonics, three registers (R106). -/
def pXXXW (mk0 mk1 : Guard → XReg → XReg → XReg → Instr) : Parser := fun f lim => do
  let g ← guardOf? f.g
  let d ← reg? 64 f.d
  let s ← reg? 64 f.s
  let t ← reg? 64 f.t
  need lim.isNone
  return if f.w = 0 then mk0 g d s t else mk1 g d s t

/-- Forms whose W picks one of two mnemonics, two registers (R106). -/
def pXXW (mk0 mk1 : Guard → XReg → XReg → Instr) : Parser := fun f lim => do
  let g ← guardOf? f.g
  let d ← reg? 64 f.d
  let s ← reg? 64 f.s
  need (f.t == 0 && lim.isNone)
  return if f.w = 0 then mk0 g d s else mk1 g d s

/-- GETS: bits [6:0] hold the special number (R106). -/
def pGets : Parser := fun f lim => do
  let g ← guardOf? f.g
  let d ← reg? 64 f.d
  let r ← sregOf? (f.t * 2 + f.w)
  need (f.s == 0 && lim.isNone)
  return .gets g d r

/-- PUTS (R106). -/
def pPuts : Parser := fun f lim => do
  let g ← guardOf? f.g
  let s ← reg? 64 f.s
  let r ← sregOf? (f.t * 2 + f.w)
  need (f.d == 0 && lim.isNone)
  return .puts g s r

/-- LDV.FE forms: W = 1 is .G (R108). -/
def pFe (mk : Guard → Bool → VReg → AReg → Land → Instr) : Parser := fun f lim => do
  let g ← guardOf? f.g
  let d ← reg? 32 f.d
  let s ← reg? 16 f.s
  let l ← land? f lim
  return mk g (f.w == 1) d s l

/-- ATOM and CAS: W = 1 is .D (R108). -/
def pAtom (mk : Guard → Bool → XReg → AReg → Land → Instr) : Parser := fun f lim => do
  let g ← guardOf? f.g
  let d ← reg? 64 f.d
  let s ← reg? 16 f.s
  let l ← land? f lim
  return mk g (f.w == 1) d s l

/-- RED: T is 0 in both forms, LIMM is the byte offset (R108). -/
def pRed (op : AtomOp) : Parser := fun f lim => do
  let g ← guardOf? f.g
  let d ← reg? 64 f.d
  let s ← reg? 16 f.s
  need (f.t == 0)
  match lim with
  | none => return .red g op (f.w == 1) d s none
  | some l => do
      need (decide (l < 4294967296))
      return .red g op (f.w == 1) d s (some (BitVec.ofNat 32 l))

/-- COPY: a length register, or the 64-bit LIMM (R109). -/
def pCopy : Parser := fun f lim => do
  let g ← guardOf? f.g
  let d ← reg? 16 f.d
  let s ← reg? 16 f.s
  let tk ← tok? f 0x10
  match lim with
  | none => do
      let t ← reg? 64 f.t
      return .copy g tk d s (.reg t)
  | some l => do
      need (f.t == 0 && decide (l < 34359738368))
      return .copy g tk d s (.long (BitVec.ofNat 32 l) (BitVec.ofNat 2 (l / 4294967296)) (decide (17179869184 ≤ l)))

/-- COPYS and COPYFE (R109). -/
def pTokX (base : Nat) (mk : Guard → Option TokReg → AReg → AReg → XReg → Instr) : Parser := fun f lim => do
  let g ← guardOf? f.g
  let d ← reg? 16 f.d
  let s ← reg? 16 f.s
  let t ← reg? 64 f.t
  let tk ← tok? f base
  need lim.isNone
  return mk g tk d s t

/-- COPYG (R109). -/
def pCopyg : Parser := fun f lim => do
  let g ← guardOf? f.g
  let d ← reg? 16 f.d
  let s ← reg? 16 f.s
  let t ← reg? 32 f.t
  let tk ← tok? f 0x20
  need lim.isNone
  return .copyg g tk d s t

/-- GEMV (R109). -/
def pGemv : Parser := fun f lim => do
  let g ← guardOf? f.g
  let d ← reg? 16 f.d
  let s ← reg? 16 f.s
  let t ← reg? 16 f.t
  let tk ← tok? f 0x30
  need lim.isNone
  return .gemv g tk d s t

/-- The extension fields of an M form that its row leaves unnamed are zero, W is 0 and nothing is lent (R110). -/
def mZero (f : Fields) (lim : Option Nat) (xm xn xk fmt port : Bool) : Bool :=
  f.w == 0 && lim.isNone && f.rsv == 0 && (xm || f.xm == 0) && (xn || f.xn == 0) && (xk || f.xk == 0) &&
  (fmt || f.fmt == 0) && (port || f.port == 0)

/-- MMA and MMAT (R110, R214). -/
def pMma (mk : Guard → TReg → AReg → AReg → XReg → XReg → XReg → MFmt → Instr) : Parser := fun f lim => do
  let g ← guardOf? f.g
  let d ← reg? 32 f.d
  let s ← reg? 16 f.s
  let t ← reg? 16 f.t
  let xm ← reg? 64 f.xm
  let xn ← reg? 64 f.xn
  let xk ← reg? 64 f.xk
  let fm ← fmtOf? f.fmt
  need (mZero f lim true true true true false)
  return mk g d s t xm xn xk fm

def pAccz : Parser := fun f lim => do
  let g ← guardOf? f.g
  let d ← reg? 32 f.d
  need (f.s == 0 && f.t == 0 && mZero f lim false false false false false)
  return .accz g d

def pAccret : Parser := fun f lim => do
  let g ← guardOf? f.g
  let d ← reg? 32 f.d
  let s ← reg? 16 f.s
  let ty ← tyOf? f.fmt
  need (f.t == 0 && mZero f lim false false false true false)
  return .accret g d s ty

def pAccadd : Parser := fun f lim => do
  let g ← guardOf? f.g
  let d ← reg? 32 f.d
  let s ← reg? 16 f.s
  let ty ← tyOf? f.fmt
  need (f.t == 0 && mZero f lim false false false true true)
  return .accadd g d s ty (BitVec.ofNat 2 f.port)

def pAccMem (mk : Guard → TReg → AReg → Instr) : Parser := fun f lim => do
  let g ← guardOf? f.g
  let d ← reg? 32 f.d
  let s ← reg? 16 f.s
  need (f.t == 0 && mZero f lim false false false false false)
  return mk g d s

/-- ACCRD and ACCWR: XM names the row register (R110, R221). -/
def pAccRow (mk : Guard → Fin 32 → Fin 32 → XReg → Instr) : Parser := fun f lim => do
  let g ← guardOf? f.g
  let d ← reg? 32 f.d
  let s ← reg? 32 f.s
  let xm ← reg? 64 f.xm
  need (f.t == 0 && mZero f lim true false false false false)
  return mk g d s xm

/-- V forms with an element type and rounding, three sources at most: unnamed T and U are zero, W is 0 (R112). -/
def vPlain (f : Fields) (lim : Option Nat) (s t u : Bool) : Bool :=
  f.w == 0 && lim.isNone && (s || f.s == 0) && (t || f.t == 0) && (u || f.u == 0)

def pVVVr (mk : Guard → VReg → VReg → VReg → QReg → ETy → Rm → Instr) : Parser := fun f lim => do
  let g ← guardOf? f.g
  let d ← reg? 32 f.d
  let s ← reg? 32 f.s
  let t ← reg? 32 f.t
  let m ← reg? 8 f.mask
  let ty ← tyOf? f.ty
  let rm ← rmOf? f.rm
  need (vPlain f lim true true false)
  return mk g d s t m ty rm

def pVfma : Parser := fun f lim => do
  let g ← guardOf? f.g
  let d ← reg? 32 f.d
  let s ← reg? 32 f.s
  let t ← reg? 32 f.t
  let u ← reg? 32 f.u
  let m ← reg? 8 f.mask
  let ty ← tyOf? f.ty
  let rm ← rmOf? f.rm
  need (vPlain f lim true true true)
  return .vfma g d s t u m ty rm

def pVVVt (mk : Guard → VReg → VReg → VReg → QReg → ETy → Instr) : Parser := fun f lim => do
  let g ← guardOf? f.g
  let d ← reg? 32 f.d
  let s ← reg? 32 f.s
  let t ← reg? 32 f.t
  let m ← reg? 8 f.mask
  let ty ← tyOf? f.ty
  need (vPlain f lim true true false && f.rm == 0)
  return mk g d s t m ty

def pVVt (mk : Guard → VReg → VReg → QReg → ETy → Instr) : Parser := fun f lim => do
  let g ← guardOf? f.g
  let d ← reg? 32 f.d
  let s ← reg? 32 f.s
  let m ← reg? 8 f.mask
  let ty ← tyOf? f.ty
  need (vPlain f lim true false false && f.rm == 0)
  return mk g d s m ty

def pVclamp : Parser := fun f lim => do
  let g ← guardOf? f.g
  let d ← reg? 32 f.d
  let s ← reg? 32 f.s
  let t ← reg? 32 f.t
  let u ← reg? 32 f.u
  let m ← reg? 8 f.mask
  let ty ← tyOf? f.ty
  need (vPlain f lim true true true && f.rm == 0)
  return .vclamp g d s t u m ty

/-- The architected functions: TY 6, RM 0 (R184). -/
def pVFun (mk : Guard → VReg → VReg → QReg → Instr) : Parser := fun f lim => do
  let g ← guardOf? f.g
  let d ← reg? 32 f.d
  let s ← reg? 32 f.s
  let m ← reg? 8 f.mask
  need (vPlain f lim true false false && f.ty == 6 && f.rm == 0)
  return mk g d s m

/-- No element type: TY and RM are 0 (R111). -/
def vNoTy (f : Fields) : Bool := f.ty == 0 && f.rm == 0

def pVVV (mk : Guard → VReg → VReg → VReg → QReg → Instr) : Parser := fun f lim => do
  let g ← guardOf? f.g
  let d ← reg? 32 f.d
  let s ← reg? 32 f.s
  let t ← reg? 32 f.t
  let m ← reg? 8 f.mask
  need (vPlain f lim true true false && vNoTy f)
  return mk g d s t m

def pVV (mk : Guard → VReg → VReg → QReg → Instr) : Parser := fun f lim => do
  let g ← guardOf? f.g
  let d ← reg? 32 f.d
  let s ← reg? 32 f.s
  let m ← reg? 8 f.mask
  need (vPlain f lim true false false && vNoTy f)
  return mk g d s m

/-- VSHL, VSHR, VSHRA: W = 0 a register of counts, W = 1 the count in U (R112). -/
def pVShift (mk : Guard → VReg → VReg → VCount → QReg → Instr) : Parser := fun f lim => do
  let g ← guardOf? f.g
  let d ← reg? 32 f.d
  let s ← reg? 32 f.s
  let m ← reg? 8 f.mask
  need (lim.isNone && vNoTy f)
  if f.w = 0 then do
    let t ← reg? 32 f.t
    need (f.u == 0)
    return mk g d s (.reg t) m
  else do
    need (f.w == 1 && f.t == 0)
    return mk g d s (.imm (BitVec.ofNat 6 f.u)) m

def pVcmp : Parser := fun f lim => do
  let g ← guardOf? f.g
  let d ← reg? 8 f.d
  let s ← reg? 32 f.s
  let t ← reg? 32 f.t
  let m ← reg? 8 f.mask
  let ty ← tyOf? f.ty
  let c ← condOf? f.u
  need (vPlain f lim true true true && f.rm == 0)
  return .vcmp g c d s t m ty

def pVsel : Parser := fun f lim => do
  let g ← guardOf? f.g
  let d ← reg? 32 f.d
  let s ← reg? 32 f.s
  let t ← reg? 32 f.t
  let u ← reg? 8 f.u
  let m ← reg? 8 f.mask
  need (vPlain f lim true true true && vNoTy f)
  return .vsel g d s t u m

/-- VBCAST: W = 0 an x register, W = 1 U or LIMM (R112, R193). -/
def pVbcast : Parser := fun f lim => do
  let g ← guardOf? f.g
  let d ← reg? 32 f.d
  let m ← reg? 8 f.mask
  need (vNoTy f && f.t == 0)
  match lim with
  | some l => do
      need (f.w == 1 && f.s == 0 && f.u == 0 && decide (l < 4294967296))
      return .vbcast g d (.long (BitVec.ofNat 32 l)) m
  | none =>
      if f.w = 0 then do
        let s ← reg? 64 f.s
        need (f.u == 0)
        return .vbcast g d (.reg s) m
      else do
        need (f.w == 1 && f.s == 0)
        return .vbcast g d (.imm (BitVec.ofNat 6 f.u)) m

def pVslide : Parser := fun f lim => do
  let g ← guardOf? f.g
  let d ← reg? 32 f.d
  let s ← reg? 32 f.s
  let t ← reg? 64 f.t
  let m ← reg? 8 f.mask
  need (lim.isNone && f.u == 0 && vNoTy f)
  return if f.w = 0 then .vslide g d s t m else .vslideDn g d s t m

def pVred (mk : Guard → RedOp → VReg → VReg → QReg → ETy → Rm → Instr) : Parser := fun f lim => do
  let g ← guardOf? f.g
  let d ← reg? 32 f.d
  let s ← reg? 32 f.s
  let m ← reg? 8 f.mask
  let ty ← tyOf? f.ty
  let rm ← rmOf? f.rm
  let op ← redOf? f.u
  need (vPlain f lim true false true)
  return mk g op d s m ty rm

def pVotes (mk : Guard → PReg → QReg → QReg → Instr) : Parser := fun f lim => do
  let g ← guardOf? f.g
  let d ← reg? 16 f.d
  let s ← reg? 8 f.s
  let m ← reg? 8 f.mask
  need (vPlain f lim true false false && vNoTy f)
  return mk g d s m

def pCounts (mk : Guard → XReg → QReg → QReg → Instr) : Parser := fun f lim => do
  let g ← guardOf? f.g
  let d ← reg? 64 f.d
  let s ← reg? 8 f.s
  let m ← reg? 8 f.mask
  need (vPlain f lim true false false && vNoTy f)
  return mk g d s m

def pViota : Parser := fun f lim => do
  let g ← guardOf? f.g
  let d ← reg? 32 f.d
  let m ← reg? 8 f.mask
  need (vPlain f lim false false false && vNoTy f)
  return .viota g d m

/-- VEXTR and VINS require MASK 0 (R112, R185). -/
def pVextr : Parser := fun f lim => do
  let g ← guardOf? f.g
  let d ← reg? 64 f.d
  let s ← reg? 32 f.s
  let t ← reg? 64 f.t
  need (vPlain f lim true true false && vNoTy f && f.mask == 0)
  return .vextr g d s t

def pVins : Parser := fun f lim => do
  let g ← guardOf? f.g
  let d ← reg? 32 f.d
  let s ← reg? 64 f.s
  let t ← reg? 64 f.t
  need (vPlain f lim true true false && vNoTy f && f.mask == 0)
  return .vins g d s t

def pVcvt : Parser := fun f lim => do
  let g ← guardOf? f.g
  let d ← reg? 32 f.d
  let s ← reg? 32 f.s
  let m ← reg? 8 f.mask
  let src ← tyOf? f.u
  let dst ← tyOf? f.ty
  let rm ← rmOf? f.rm
  need (lim.isNone && f.t == 0)
  return .vcvt g d s m src dst rm (f.w == 1)

def pVqmx : Parser := fun f lim => do
  let g ← guardOf? f.g
  let d ← reg? 32 f.d
  let s ← reg? 32 f.s
  let t ← reg? 32 f.t
  let ty ← tyOf? f.ty
  let rm ← rmOf? f.rm
  need (lim.isNone && f.u == 0 && f.mask == 0)
  return .vqmx g d s t ty rm (f.w == 1)

def pVrand : Parser := fun f lim => do
  let g ← guardOf? f.g
  let d ← reg? 32 f.d
  let s ← reg? 32 f.s
  let t ← reg? 32 f.t
  let m ← reg? 8 f.mask
  let ty ← tyOf? f.ty
  need (lim.isNone && f.u == 0 && f.rm == 0)
  return .vrand g d s t m ty (f.w == 1)

def pQQQ (mk : Guard → QReg → QReg → QReg → QReg → Instr) : Parser := fun f lim => do
  let g ← guardOf? f.g
  let d ← reg? 8 f.d
  let s ← reg? 8 f.s
  let t ← reg? 8 f.t
  let m ← reg? 8 f.mask
  need (vPlain f lim true true false && vNoTy f)
  return mk g d s t m

def pQQ : Parser := fun f lim => do
  let g ← guardOf? f.g
  let d ← reg? 8 f.d
  let s ← reg? 8 f.s
  let m ← reg? 8 f.mask
  need (vPlain f lim true false false && vNoTy f)
  return .qnot g d s m

/-- SORTB: W = 1 is ascending (R113). -/
def pSortb : Parser := fun f lim => do
  let g ← guardOf? f.g
  let d ← reg? 32 f.d
  let s ← reg? 32 f.s
  let t ← reg? 32 f.t
  need lim.isNone
  return .sortb g (f.w == 1) d s t

def pMerge : Parser := fun f lim => do
  let g ← guardOf? f.g
  let d ← reg? 32 f.d
  let s ← reg? 32 f.s
  need (lim.isNone && f.t == 0)
  return .merge g (f.w == 1) d s

/-- CGET: W = 1 is the index (R113). -/
def pCget : Parser := fun f lim => do
  let g ← guardOf? f.g
  let d ← reg? 64 f.d
  let k ← reg? 64 f.t
  need (lim.isNone && f.s == 0)
  return .cget g (f.w == 1) d k

/-- FENCE: T is the kind (R114). -/
def pFence (c : Scope) : Parser := fun f lim => do
  let g ← guardOf? f.g
  need (f.d == 0 && f.s == 0 && f.w == 0 && lim.isNone)
  if f.t = 1 then return .fenceAcq g c
  else if f.t = 2 then return .fenceRel g c
  else if f.t = 3 then return .fenceFull g c
  else none

/-! ### The opcode maps -/

/-- Opcodes of S0 and S1 (R106). -/
def sMap : List (Nat × Parser) :=
  [(0x01, pXXX .add),
   (0x02, pXXX .sub),
   (0x03, pXXX .mul),
   (0x04, pXXX .mulh),
   (0x05, pXXX .mulhn),
   (0x06, pXXX .div),
   (0x07, pXXX .divn),
   (0x08, pXXX .rem),
   (0x09, pXXX .remn),
   (0x0A, pXXX .and),
   (0x0B, pXXX .or),
   (0x0C, pXXX .xor)] ++
  [(0x0D, pXXX .andn),
   (0x0E, pXXX .shl),
   (0x0F, pXXX .shr),
   (0x10, pXXX .shra),
   (0x11, pXXX .rol),
   (0x12, pXXX .min),
   (0x13, pXXX .max),
   (0x14, pXXX .minn),
   (0x15, pXXX .maxn),
   (0x41, pXXI .addImm),
   (0x42, pXXI .subImm),
   (0x43, pXXI .mulImm)] ++
  [(0x44, pXXI .mulhImm),
   (0x45, pXXI .mulhnImm),
   (0x46, pXXI .divImm),
   (0x47, pXXI .divnImm),
   (0x48, pXXI .remImm),
   (0x49, pXXI .remnImm),
   (0x4A, pXXI .andImm),
   (0x4B, pXXI .orImm),
   (0x4C, pXXI .xorImm),
   (0x4D, pXXI .andnImm),
   (0x4E, pXXI .shlImm),
   (0x4F, pXXI .shrImm)] ++
  [(0x50, pXXI .shraImm),
   (0x51, pXXI .rolImm),
   (0x52, pXXI .minImm),
   (0x53, pXXI .maxImm),
   (0x54, pXXI .minnImm),
   (0x55, pXXI .maxnImm),
   (0x16, pXX .clz),
   (0x17, pXX .ctz),
   (0x18, pXX .popc),
   (0x19, pXX .abs),
   (0x1A, pXXN .sext),
   (0x1B, pXXN .zext)] ++
  [(0x1C, pXXXW .bfx .bfxN),
   (0x1D, pXXX .bfi),
   (0x1E, pXXX .sel),
   (0x1F, pXI .li),
   (0x20, pXXX .fadd),
   (0x21, pXXX .fsub),
   (0x22, pXXX .fmul),
   (0x23, pXXX .ffma),
   (0x24, pXXX .fmin),
   (0x25, pXXX .fmax),
   (0x26, pXXW .cvtf .cvtfN),
   (0x27, pXXW .cvti .cvtiN)] ++
  [(0x28, pPPP .pand),
   (0x29, pPPP .por),
   (0x2A, pPPP .pxor),
   (0x2B, pPPP .pandn),
   (0x2C, pX .pget),
   (0x2D, pSX .pset),
   (0x30, pBI .ptb),
   (0x31, pBX .ptbx),
   (0x32, pSB .br),
   (0x33, pXB .brl),
   (0x34, pI .trap),
   (0x38, pAAX .aadd)] ++
  [(0x78, pAAI .aaddImm),
   (0x39, pAX .aset),
   (0x3A, pXA .aget),
   (0x3B, pAAX .alea),
   (0x80, pPXX (fun g => .cmp g .eq)),
   (0x81, pPXX (fun g => .cmp g .ne)),
   (0x82, pPXX (fun g => .cmp g .lt)),
   (0x83, pPXX (fun g => .cmp g .le)),
   (0x84, pPXX (fun g => .cmp g .gt)),
   (0x85, pPXX (fun g => .cmp g .ge)),
   (0x86, pPXX (fun g => .cmp g .ltn)),
   (0x87, pPXX (fun g => .cmp g .len))] ++
  [(0x88, pPXX (fun g => .cmp g .gtn)),
   (0x89, pPXX (fun g => .cmp g .gen)),
   (0xC0, pPXI (fun g => .cmpImm g .eq)),
   (0xC1, pPXI (fun g => .cmpImm g .ne)),
   (0xC2, pPXI (fun g => .cmpImm g .lt)),
   (0xC3, pPXI (fun g => .cmpImm g .le)),
   (0xC4, pPXI (fun g => .cmpImm g .gt)),
   (0xC5, pPXI (fun g => .cmpImm g .ge)),
   (0xC6, pPXI (fun g => .cmpImm g .ltn)),
   (0xC7, pPXI (fun g => .cmpImm g .len)),
   (0xC8, pPXI (fun g => .cmpImm g .gtn)),
   (0xC9, pPXI (fun g => .cmpImm g .gen))] ++
  [(0x90, pPXX (fun g => .fcmp g .eq)),
   (0x91, pPXX (fun g => .fcmp g .ne)),
   (0x92, pPXX (fun g => .fcmp g .lt)),
   (0x93, pPXX (fun g => .fcmp g .le)),
   (0x94, pPXX (fun g => .fcmp g .gt)),
   (0x95, pPXX (fun g => .fcmp g .ge)),
   (0xA0, pGets),
   (0xA1, pPuts)]

/-- Opcodes of slot A (R108). -/
def aMap : List (Nat × Parser) :=
  [(0x10, pXAL (fun g => .ld g .b)),
   (0x11, pXAL (fun g => .ld g .h)),
   (0x12, pXAL (fun g => .ld g .w)),
   (0x13, pXAL (fun g => .ld g .d)),
   (0x14, pXAL (fun g => .ldN g .b)),
   (0x15, pXAL (fun g => .ldN g .h)),
   (0x16, pXAL (fun g => .ldN g .w)),
   (0x18, pXAI (fun g => .st g .b)),
   (0x19, pXAI (fun g => .st g .h)),
   (0x1A, pXAI (fun g => .st g .w)),
   (0x1B, pXAI (fun g => .st g .d)),
   (0x20, pVAL .ldv)] ++
  [(0x21, pFe .ldvFeTake),
   (0x22, pFe .ldvFeKeep),
   (0x24, pVAI .stv),
   (0x25, pVAI .stvFe),
   (0x26, pVAL .ldvg),
   (0x27, pVAV .stvs),
   (0x28, pXA .setfe),
   (0x29, pXA .clrfe),
   (0x2A, pV .spill),
   (0x2B, pVL .fill),
   (0x2C, pSAI .pref),
   (0x30, pAtom (fun g => .atom g .add))] ++
  [(0x31, pAtom (fun g => .atom g .and)),
   (0x32, pAtom (fun g => .atom g .or)),
   (0x33, pAtom (fun g => .atom g .xor)),
   (0x34, pAtom (fun g => .atom g .min)),
   (0x35, pAtom (fun g => .atom g .max)),
   (0x36, pAtom (fun g => .atom g .minn)),
   (0x37, pAtom (fun g => .atom g .maxn)),
   (0x38, pAtom (fun g => .atom g .swap)),
   (0x40, pAtom .cas),
   (0x48, pRed .add),
   (0x49, pRed .and),
   (0x4A, pRed .or)] ++
  [(0x4B, pRed .xor),
   (0x4C, pRed .min),
   (0x4D, pRed .max),
   (0x4E, pRed .minn),
   (0x4F, pRed .maxn),
   (0x50, pXA .chkout),
   (0x51, pSA .chkin)]

/-- Opcodes of slot C (R109). -/
def cMap : List (Nat × Parser) :=
  [(0x10, pCopy),
   (0x11, pCopy),
   (0x12, pCopy),
   (0x13, pCopy),
   (0x14, pCopy),
   (0x15, pCopy),
   (0x16, pCopy),
   (0x17, pCopy),
   (0x18, pTokX 0x18 .copys),
   (0x19, pTokX 0x18 .copys),
   (0x1A, pTokX 0x18 .copys),
   (0x1B, pTokX 0x18 .copys)] ++
  [(0x1C, pTokX 0x18 .copys),
   (0x1D, pTokX 0x18 .copys),
   (0x1E, pTokX 0x18 .copys),
   (0x1F, pTokX 0x18 .copys),
   (0x20, pCopyg),
   (0x21, pCopyg),
   (0x22, pCopyg),
   (0x23, pCopyg),
   (0x24, pCopyg),
   (0x25, pCopyg),
   (0x26, pCopyg),
   (0x27, pCopyg)] ++
  [(0x28, pTokX 0x28 .copyfe),
   (0x29, pTokX 0x28 .copyfe),
   (0x2A, pTokX 0x28 .copyfe),
   (0x2B, pTokX 0x28 .copyfe),
   (0x2C, pTokX 0x28 .copyfe),
   (0x2D, pTokX 0x28 .copyfe),
   (0x2E, pTokX 0x28 .copyfe),
   (0x2F, pTokX 0x28 .copyfe),
   (0x30, pGemv),
   (0x31, pGemv),
   (0x32, pGemv),
   (0x33, pGemv)] ++
  [(0x34, pGemv),
   (0x35, pGemv),
   (0x36, pGemv),
   (0x37, pGemv),
   (0x40, pSX .bankmode),
   (0x41, pXA .flush),
   (0x42, pXA .inval)]

/-- Opcodes of slot M (R110). -/
def mMap : List (Nat × Parser) :=
  [(0x01, pMma .mma),
   (0x02, pMma .mmat),
   (0x03, pAccz),
   (0x04, pAccret),
   (0x05, pAccadd),
   (0x06, pAccMem .accld),
   (0x07, pAccMem .accst),
   (0x08, pAccRow .accrd),
   (0x09, pAccRow .accwr)]

/-- Opcodes of V0 and V1 (R112). -/
def vMap : List (Nat × Parser) :=
  [(0x01, pVVVr .vadd),
   (0x02, pVVVr .vsub),
   (0x03, pVVVr .vmul),
   (0x04, pVfma),
   (0x05, pVVVt .vmin),
   (0x06, pVVVt .vmax),
   (0x07, pVVt .vabs),
   (0x08, pVVt .vneg),
   (0x09, pVclamp),
   (0x0A, pVFun .vrcp),
   (0x0B, pVFun .vrsq),
   (0x0C, pVFun .vexp2)] ++
  [(0x0D, pVFun .vlog2),
   (0x10, pVVV .vand),
   (0x11, pVVV .vor),
   (0x12, pVVV .vxor),
   (0x13, pVShift .vshl),
   (0x14, pVShift .vshr),
   (0x15, pVShift .vshra),
   (0x18, pVcmp),
   (0x19, pVsel),
   (0x1A, pVV .vmov),
   (0x1B, pVbcast),
   (0x1C, pVVV .vperm)] ++
  [(0x1D, pVslide),
   (0x1E, pVred .vred),
   (0x1F, pVred .vscan),
   (0x20, pVotes .vany),
   (0x21, pVotes .vall),
   (0x22, pCounts .vfirst),
   (0x23, pCounts .vpopc),
   (0x24, pViota),
   (0x25, pVextr),
   (0x26, pVins),
   (0x28, pVcvt),
   (0x29, pVqmx)] ++
  [(0x2A, pVVVr .vdqmx),
   (0x2B, pVrand),
   (0x30, pQQQ .qand),
   (0x31, pQQQ .qor),
   (0x32, pQQQ .qxor),
   (0x33, pQQ)]

/-- Opcodes of slot X (R113). -/
def xMap : List (Nat × Parser) :=
  [(0x01, pSortb),
   (0x02, pMerge),
   (0x03, pSVV .cmrg),
   (0x04, pCget),
   (0x05, pNone .cclr),
   (0x06, pXX .ctopp),
   (0x07, pXX .cdraw)]

/-- Opcodes of slot Q (R114). -/
def qMap : List (Nat × Parser) :=
  [(0x08, pFence .strand),
   (0x09, pFence .core),
   (0x0A, pFence .cluster),
   (0x0B, pFence .gang),
   (0x0C, pFence .device),
   (0x0D, pFence .pool),
   (0x0E, pFence .host),
   (0x0F, pFence .system),
   (0x10, pNone (fun g => .drain g .strand)),
   (0x11, pNone (fun g => .drain g .core)),
   (0x12, pNone (fun g => .drain g .cluster)),
   (0x13, pNone (fun g => .drain g .gang))] ++
  [(0x14, pNone (fun g => .drain g .device)),
   (0x15, pNone (fun g => .drain g .pool)),
   (0x16, pNone (fun g => .drain g .host)),
   (0x17, pNone (fun g => .drain g .system)),
   (0x20, pXAX .push),
   (0x21, pXX .pop),
   (0x22, pXX .qstat),
   (0x23, pSAX .notify),
   (0x24, pXA .launch),
   (0x25, pSX .suspend),
   (0x26, pNone .exit),
   (0x27, pSXX .evpost)] ++
  [(0x40, pXAX .dictld),
   (0x44, pSA .tlbinvPage),
   (0x45, pSX .tlbinvHc),
   (0x46, pNone .tlbinvAll),
   (0x50, pXXX .kvlook),
   (0x51, pXXX .kvapp),
   (0x52, pXXX .kvfork),
   (0x53, pXXX .kvtrunc),
   (0x54, pSXX .kvfree),
   (0x55, pXXX .pfxfind),
   (0x56, pXXX .pfxins),
   (0x57, pXXX .strunc)] ++
  [(0x58, pXXX .scommit),
   (0x59, pXAX .sframe),
   (0x5A, pSAX .btsnap),
   (0x5B, pB .obsel),
   (0x60, pSX .stage),
   (0x61, pSX .tokclr),
   (0x62, pSX .bar),
   (0x63, pSXX .lnscfg),
   (0x64, pSX .lnsrun),
   (0x65, pNone .lnsbrk),
   (0x66, pSX .seqlen),
   (0x67, pXX .cntrd)] ++
  [(0x68, pSX .cntclr),
   (0x70, pSX .resume),
   (0x71, pXA .fqpop)]

/-- The map of a kind of slot. -/
def SlotKind.map : SlotKind → List (Nat × Parser)
  | .s => sMap
  | .a => aMap
  | .c => cMap
  | .m => mMap
  | .v => vMap
  | .x => xMap
  | .q => qMap

/-- The instruction a slot's fields and LIMM stand for: the opcode's row reads them, and the fields' values are checked (R102). -/
def parseSlot (k : SlotKind) (f : Fields) (lim : Option Nat) : Option Instr :=
  match k.map.find? (fun r => r.1 == f.op) with
  | none => none
  | some r =>
      match r.2 f lim with
      | none => none
      | some i => if i.wf then some i else none

/-- The instruction of a slot word with the LIMM lent to it (R98 to R104). -/
def decodeSlot (k : SlotKind) (w : Nat) (lim : Option Nat) : Option Instr := parseSlot k (Fields.unpack k w) lim

/-! ### The encoder -/

def Imm.tField : Imm → Nat
  | .short i => i.toNat / 2
  | .long _ => 0
def Imm.wField : Imm → Nat
  | .short i => i.toNat % 2
  | .long _ => 0
def Imm.lim : Imm → Option Nat
  | .short _ => none
  | .long l => some l.toNat
def Land.tField : Land → Nat
  | .short l => l.toNat
  | .long _ _ => 0
def Land.lim : Land → Option Nat
  | .short _ => none
  | .long o l => some (o.toNat * 4096 + l.toNat)
def VCount.tField : VCount → Nat
  | .reg t => t.val
  | .imm _ => 0
def VCount.wField : VCount → Nat
  | .reg _ => 0
  | .imm _ => 1
def VCount.uField : VCount → Nat
  | .reg _ => 0
  | .imm u => u.toNat
def VBSrc.sField : VBSrc → Nat
  | .reg s => s.val
  | _ => 0
def VBSrc.wField : VBSrc → Nat
  | .reg _ => 0
  | _ => 1
def VBSrc.uField : VBSrc → Nat
  | .imm u => u.toNat
  | _ => 0
def VBSrc.lim : VBSrc → Option Nat
  | .long l => some l.toNat
  | _ => none
def CopyLen.tField : CopyLen → Nat
  | .reg t => t.val
  | .long _ _ _ => 0
def CopyLen.lim : CopyLen → Option Nat
  | .reg _ => none
  | .long n p a => some (n.toNat + p.toNat * 4294967296 + a.toNat * 17179869184)
/-- OP[2:0] of a token form (R109). -/
def tokCode : Option TokReg → Nat
  | none => 0
  | some k => k.val

/-- The slot, the fields and the LIMM of a slot operation; an event has none. -/
def Instr.enc : Instr → Option (SlotKind × Fields × Option Nat)
  | .add g d s t => some (.s, { op := 0x01, g := g.code, d := d.val, s := s.val, t := t.val }, none)
  | .sub g d s t => some (.s, { op := 0x02, g := g.code, d := d.val, s := s.val, t := t.val }, none)
  | .mul g d s t => some (.s, { op := 0x03, g := g.code, d := d.val, s := s.val, t := t.val }, none)
  | .mulh g d s t => some (.s, { op := 0x04, g := g.code, d := d.val, s := s.val, t := t.val }, none)
  | .mulhn g d s t => some (.s, { op := 0x05, g := g.code, d := d.val, s := s.val, t := t.val }, none)
  | .div g d s t => some (.s, { op := 0x06, g := g.code, d := d.val, s := s.val, t := t.val }, none)
  | .divn g d s t => some (.s, { op := 0x07, g := g.code, d := d.val, s := s.val, t := t.val }, none)
  | .rem g d s t => some (.s, { op := 0x08, g := g.code, d := d.val, s := s.val, t := t.val }, none)
  | .remn g d s t => some (.s, { op := 0x09, g := g.code, d := d.val, s := s.val, t := t.val }, none)
  | .and g d s t => some (.s, { op := 0x0A, g := g.code, d := d.val, s := s.val, t := t.val }, none)
  | .or g d s t => some (.s, { op := 0x0B, g := g.code, d := d.val, s := s.val, t := t.val }, none)
  | .xor g d s t => some (.s, { op := 0x0C, g := g.code, d := d.val, s := s.val, t := t.val }, none)
  | .andn g d s t => some (.s, { op := 0x0D, g := g.code, d := d.val, s := s.val, t := t.val }, none)
  | .shl g d s t => some (.s, { op := 0x0E, g := g.code, d := d.val, s := s.val, t := t.val }, none)
  | .shr g d s t => some (.s, { op := 0x0F, g := g.code, d := d.val, s := s.val, t := t.val }, none)
  | .shra g d s t => some (.s, { op := 0x10, g := g.code, d := d.val, s := s.val, t := t.val }, none)
  | .rol g d s t => some (.s, { op := 0x11, g := g.code, d := d.val, s := s.val, t := t.val }, none)
  | .min g d s t => some (.s, { op := 0x12, g := g.code, d := d.val, s := s.val, t := t.val }, none)
  | .max g d s t => some (.s, { op := 0x13, g := g.code, d := d.val, s := s.val, t := t.val }, none)
  | .minn g d s t => some (.s, { op := 0x14, g := g.code, d := d.val, s := s.val, t := t.val }, none)
  | .maxn g d s t => some (.s, { op := 0x15, g := g.code, d := d.val, s := s.val, t := t.val }, none)
  | .addImm g d s i => some (.s, { op := 0x41, g := g.code, d := d.val, s := s.val, t := i.tField, w := i.wField }, i.lim)
  | .subImm g d s i => some (.s, { op := 0x42, g := g.code, d := d.val, s := s.val, t := i.tField, w := i.wField }, i.lim)
  | .mulImm g d s i => some (.s, { op := 0x43, g := g.code, d := d.val, s := s.val, t := i.tField, w := i.wField }, i.lim)
  | .mulhImm g d s i => some (.s, { op := 0x44, g := g.code, d := d.val, s := s.val, t := i.tField, w := i.wField }, i.lim)
  | .mulhnImm g d s i => some (.s, { op := 0x45, g := g.code, d := d.val, s := s.val, t := i.tField, w := i.wField }, i.lim)
  | .divImm g d s i => some (.s, { op := 0x46, g := g.code, d := d.val, s := s.val, t := i.tField, w := i.wField }, i.lim)
  | .divnImm g d s i => some (.s, { op := 0x47, g := g.code, d := d.val, s := s.val, t := i.tField, w := i.wField }, i.lim)
  | .remImm g d s i => some (.s, { op := 0x48, g := g.code, d := d.val, s := s.val, t := i.tField, w := i.wField }, i.lim)
  | .remnImm g d s i => some (.s, { op := 0x49, g := g.code, d := d.val, s := s.val, t := i.tField, w := i.wField }, i.lim)
  | .andImm g d s i => some (.s, { op := 0x4A, g := g.code, d := d.val, s := s.val, t := i.tField, w := i.wField }, i.lim)
  | .orImm g d s i => some (.s, { op := 0x4B, g := g.code, d := d.val, s := s.val, t := i.tField, w := i.wField }, i.lim)
  | .xorImm g d s i => some (.s, { op := 0x4C, g := g.code, d := d.val, s := s.val, t := i.tField, w := i.wField }, i.lim)
  | .andnImm g d s i => some (.s, { op := 0x4D, g := g.code, d := d.val, s := s.val, t := i.tField, w := i.wField }, i.lim)
  | .shlImm g d s i => some (.s, { op := 0x4E, g := g.code, d := d.val, s := s.val, t := i.tField, w := i.wField }, i.lim)
  | .shrImm g d s i => some (.s, { op := 0x4F, g := g.code, d := d.val, s := s.val, t := i.tField, w := i.wField }, i.lim)
  | .shraImm g d s i => some (.s, { op := 0x50, g := g.code, d := d.val, s := s.val, t := i.tField, w := i.wField }, i.lim)
  | .rolImm g d s i => some (.s, { op := 0x51, g := g.code, d := d.val, s := s.val, t := i.tField, w := i.wField }, i.lim)
  | .minImm g d s i => some (.s, { op := 0x52, g := g.code, d := d.val, s := s.val, t := i.tField, w := i.wField }, i.lim)
  | .maxImm g d s i => some (.s, { op := 0x53, g := g.code, d := d.val, s := s.val, t := i.tField, w := i.wField }, i.lim)
  | .minnImm g d s i => some (.s, { op := 0x54, g := g.code, d := d.val, s := s.val, t := i.tField, w := i.wField }, i.lim)
  | .maxnImm g d s i => some (.s, { op := 0x55, g := g.code, d := d.val, s := s.val, t := i.tField, w := i.wField }, i.lim)
  | .clz g d s => some (.s, { op := 0x16, g := g.code, d := d.val, s := s.val }, none)
  | .ctz g d s => some (.s, { op := 0x17, g := g.code, d := d.val, s := s.val }, none)
  | .popc g d s => some (.s, { op := 0x18, g := g.code, d := d.val, s := s.val }, none)
  | .abs g d s => some (.s, { op := 0x19, g := g.code, d := d.val, s := s.val }, none)
  | .sext g d s n => some (.s, { op := 0x1A, g := g.code, d := d.val, s := s.val, t := n.toNat }, none)
  | .zext g d s n => some (.s, { op := 0x1B, g := g.code, d := d.val, s := s.val, t := n.toNat }, none)
  | .bfx g d s t => some (.s, { op := 0x1C, g := g.code, d := d.val, s := s.val, t := t.val }, none)
  | .bfxN g d s t => some (.s, { op := 0x1C, g := g.code, d := d.val, s := s.val, t := t.val, w := 1 }, none)
  | .bfi g d s t => some (.s, { op := 0x1D, g := g.code, d := d.val, s := s.val, t := t.val }, none)
  | .sel g d s t => some (.s, { op := 0x1E, g := g.code, d := d.val, s := s.val, t := t.val }, none)
  | .li g d i => some (.s, { op := 0x1F, g := g.code, d := d.val, t := i.tField, w := i.wField }, i.lim)
  | .fadd g d s t => some (.s, { op := 0x20, g := g.code, d := d.val, s := s.val, t := t.val }, none)
  | .fsub g d s t => some (.s, { op := 0x21, g := g.code, d := d.val, s := s.val, t := t.val }, none)
  | .fmul g d s t => some (.s, { op := 0x22, g := g.code, d := d.val, s := s.val, t := t.val }, none)
  | .ffma g d s t => some (.s, { op := 0x23, g := g.code, d := d.val, s := s.val, t := t.val }, none)
  | .fmin g d s t => some (.s, { op := 0x24, g := g.code, d := d.val, s := s.val, t := t.val }, none)
  | .fmax g d s t => some (.s, { op := 0x25, g := g.code, d := d.val, s := s.val, t := t.val }, none)
  | .cvtf g d s => some (.s, { op := 0x26, g := g.code, d := d.val, s := s.val }, none)
  | .cvtfN g d s => some (.s, { op := 0x26, g := g.code, d := d.val, s := s.val, w := 1 }, none)
  | .cvti g d s => some (.s, { op := 0x27, g := g.code, d := d.val, s := s.val }, none)
  | .cvtiN g d s => some (.s, { op := 0x27, g := g.code, d := d.val, s := s.val, w := 1 }, none)
  | .pand g d s t => some (.s, { op := 0x28, g := g.code, d := d.val, s := s.val, t := t.val }, none)
  | .por g d s t => some (.s, { op := 0x29, g := g.code, d := d.val, s := s.val, t := t.val }, none)
  | .pxor g d s t => some (.s, { op := 0x2A, g := g.code, d := d.val, s := s.val, t := t.val }, none)
  | .pandn g d s t => some (.s, { op := 0x2B, g := g.code, d := d.val, s := s.val, t := t.val }, none)
  | .pget g d => some (.s, { op := 0x2C, g := g.code, d := d.val }, none)
  | .pset g s => some (.s, { op := 0x2D, g := g.code, s := s.val }, none)
  | .ptb g d i => some (.s, { op := 0x30, g := g.code, d := d.val, t := i.tField, w := i.wField }, i.lim)
  | .ptbx g d s => some (.s, { op := 0x31, g := g.code, d := d.val, s := s.val }, none)
  | .br g s => some (.s, { op := 0x32, g := g.code, s := s.val }, none)
  | .brl g d s => some (.s, { op := 0x33, g := g.code, d := d.val, s := s.val }, none)
  | .trap g i => some (.s, { op := 0x34, g := g.code, t := i.tField, w := i.wField }, i.lim)
  | .aadd g d s t => some (.s, { op := 0x38, g := g.code, d := d.val, s := s.val, t := t.val }, none)
  | .aaddImm g d s i => some (.s, { op := 0x78, g := g.code, d := d.val, s := s.val, t := i.tField, w := i.wField }, i.lim)
  | .aset g d s => some (.s, { op := 0x39, g := g.code, d := d.val, s := s.val }, none)
  | .aget g d s => some (.s, { op := 0x3A, g := g.code, d := d.val, s := s.val }, none)
  | .alea g d s t => some (.s, { op := 0x3B, g := g.code, d := d.val, s := s.val, t := t.val }, none)
  | .cmp g c d s t => some (.s, { op := 0x80 + c.code, g := g.code, d := d.val, s := s.val, t := t.val }, none)
  | .cmpImm g c d s i => some (.s, { op := 0xC0 + c.code, g := g.code, d := d.val, s := s.val, t := i.tField, w := i.wField }, i.lim)
  | .fcmp g c d s t => some (.s, { op := 0x90 + c.code, g := g.code, d := d.val, s := s.val, t := t.val }, none)
  | .gets g d r => some (.s, { op := 0xA0, g := g.code, d := d.val, t := r.code / 2, w := r.code % 2 }, none)
  | .puts g s r => some (.s, { op := 0xA1, g := g.code, s := s.val, t := r.code / 2, w := r.code % 2 }, none)
  | .ld g z d s l => some (.a, { op := 0x10 + z.code, g := g.code, d := d.val, s := s.val, t := l.tField }, l.lim)
  | .ldN g z d s l => some (.a, { op := 0x14 + z.code, g := g.code, d := d.val, s := s.val, t := l.tField }, l.lim)
  | .st g z d s o => some (.a, { op := 0x18 + z.code, g := g.code, d := d.val, s := s.val, t := o.tField, w := o.wField }, o.lim)
  | .ldv g d s l => some (.a, { op := 0x20, g := g.code, d := d.val, s := s.val, t := l.tField }, l.lim)
  | .ldvFeTake g one d s l => some (.a, { op := 0x21, g := g.code, d := d.val, s := s.val, w := one.toNat, t := l.tField }, l.lim)
  | .ldvFeKeep g one d s l => some (.a, { op := 0x22, g := g.code, d := d.val, s := s.val, w := one.toNat, t := l.tField }, l.lim)
  | .stv g d s o => some (.a, { op := 0x24, g := g.code, d := d.val, s := s.val, t := o.tField, w := o.wField }, o.lim)
  | .stvFe g d s o => some (.a, { op := 0x25, g := g.code, d := d.val, s := s.val, t := o.tField, w := o.wField }, o.lim)
  | .ldvg g d s l => some (.a, { op := 0x26, g := g.code, d := d.val, s := s.val, t := l.tField }, l.lim)
  | .stvs g d s t => some (.a, { op := 0x27, g := g.code, d := d.val, s := s.val, t := t.val }, none)
  | .setfe g d s => some (.a, { op := 0x28, g := g.code, d := d.val, s := s.val }, none)
  | .clrfe g d s => some (.a, { op := 0x29, g := g.code, d := d.val, s := s.val }, none)
  | .spill g d => some (.a, { op := 0x2A, g := g.code, d := d.val }, none)
  | .fill g d l => some (.a, { op := 0x2B, g := g.code, d := d.val, t := l.tField }, l.lim)
  | .pref g s o => some (.a, { op := 0x2C, g := g.code, s := s.val, t := o.tField, w := o.wField }, o.lim)
  | .atom g op dbl d s l => some (.a, { op := 0x30 + op.code, g := g.code, d := d.val, s := s.val, w := dbl.toNat, t := l.tField }, l.lim)
  | .cas g dbl d s l => some (.a, { op := 0x40, g := g.code, d := d.val, s := s.val, w := dbl.toNat, t := l.tField }, l.lim)
  | .red g op dbl d s o => some (.a, { op := 0x48 + op.code, g := g.code, d := d.val, s := s.val, w := dbl.toNat }, o.map BitVec.toNat)
  | .chkout g d s => some (.a, { op := 0x50, g := g.code, d := d.val, s := s.val }, none)
  | .chkin g s => some (.a, { op := 0x51, g := g.code, s := s.val }, none)
  | .copy g tk d s n => some (.c, { op := 0x10 + tokCode tk, g := g.code, d := d.val, s := s.val, t := n.tField, w := tk.isSome.toNat }, n.lim)
  | .copys g tk d s t => some (.c, { op := 0x18 + tokCode tk, g := g.code, d := d.val, s := s.val, t := t.val, w := tk.isSome.toNat }, none)
  | .copyg g tk d s t => some (.c, { op := 0x20 + tokCode tk, g := g.code, d := d.val, s := s.val, t := t.val, w := tk.isSome.toNat }, none)
  | .copyfe g tk d s t => some (.c, { op := 0x28 + tokCode tk, g := g.code, d := d.val, s := s.val, t := t.val, w := tk.isSome.toNat }, none)
  | .gemv g tk d s t => some (.c, { op := 0x30 + tokCode tk, g := g.code, d := d.val, s := s.val, t := t.val, w := tk.isSome.toNat }, none)
  | .bankmode g s => some (.c, { op := 0x40, g := g.code, s := s.val }, none)
  | .flush g d s => some (.c, { op := 0x41, g := g.code, d := d.val, s := s.val }, none)
  | .inval g d s => some (.c, { op := 0x42, g := g.code, d := d.val, s := s.val }, none)
  | .mma g d s t xm xn xk f => some (.m, { op := 1, g := g.code, d := d.val, s := s.val, t := t.val, xm := xm.val, xn := xn.val, xk := xk.val, fmt := f.code }, none)
  | .mmat g d s t xm xn xk f => some (.m, { op := 2, g := g.code, d := d.val, s := s.val, t := t.val, xm := xm.val, xn := xn.val, xk := xk.val, fmt := f.code }, none)
  | .accz g d => some (.m, { op := 3, g := g.code, d := d.val }, none)
  | .accret g d s ty => some (.m, { op := 4, g := g.code, d := d.val, s := s.val, fmt := ty.code }, none)
  | .accadd g d s ty port => some (.m, { op := 5, g := g.code, d := d.val, s := s.val, fmt := ty.code, port := port.toNat }, none)
  | .accld g d s => some (.m, { op := 6, g := g.code, d := d.val, s := s.val }, none)
  | .accst g d s => some (.m, { op := 7, g := g.code, d := d.val, s := s.val }, none)
  | .accrd g d s xm => some (.m, { op := 8, g := g.code, d := d.val, s := s.val, xm := xm.val }, none)
  | .accwr g d s xm => some (.m, { op := 9, g := g.code, d := d.val, s := s.val, xm := xm.val }, none)
  | .vadd g d s t m ty rm => some (.v, { op := 1, g := g.code, d := d.val, s := s.val, t := t.val, mask := m.val, ty := ty.code, rm := rm.code }, none)
  | .vsub g d s t m ty rm => some (.v, { op := 2, g := g.code, d := d.val, s := s.val, t := t.val, mask := m.val, ty := ty.code, rm := rm.code }, none)
  | .vmul g d s t m ty rm => some (.v, { op := 3, g := g.code, d := d.val, s := s.val, t := t.val, mask := m.val, ty := ty.code, rm := rm.code }, none)
  | .vfma g d s t u m ty rm => some (.v, { op := 4, g := g.code, d := d.val, s := s.val, t := t.val, u := u.val, mask := m.val, ty := ty.code, rm := rm.code }, none)
  | .vmin g d s t m ty => some (.v, { op := 5, g := g.code, d := d.val, s := s.val, t := t.val, mask := m.val, ty := ty.code }, none)
  | .vmax g d s t m ty => some (.v, { op := 6, g := g.code, d := d.val, s := s.val, t := t.val, mask := m.val, ty := ty.code }, none)
  | .vabs g d s m ty => some (.v, { op := 7, g := g.code, d := d.val, s := s.val, mask := m.val, ty := ty.code }, none)
  | .vneg g d s m ty => some (.v, { op := 8, g := g.code, d := d.val, s := s.val, mask := m.val, ty := ty.code }, none)
  | .vclamp g d s t u m ty => some (.v, { op := 9, g := g.code, d := d.val, s := s.val, t := t.val, u := u.val, mask := m.val, ty := ty.code }, none)
  | .vrcp g d s m => some (.v, { op := 10, g := g.code, d := d.val, s := s.val, mask := m.val, ty := 6 }, none)
  | .vrsq g d s m => some (.v, { op := 11, g := g.code, d := d.val, s := s.val, mask := m.val, ty := 6 }, none)
  | .vexp2 g d s m => some (.v, { op := 12, g := g.code, d := d.val, s := s.val, mask := m.val, ty := 6 }, none)
  | .vlog2 g d s m => some (.v, { op := 13, g := g.code, d := d.val, s := s.val, mask := m.val, ty := 6 }, none)
  | .vand g d s t m => some (.v, { op := 0x10, g := g.code, d := d.val, s := s.val, t := t.val, mask := m.val }, none)
  | .vor g d s t m => some (.v, { op := 0x11, g := g.code, d := d.val, s := s.val, t := t.val, mask := m.val }, none)
  | .vxor g d s t m => some (.v, { op := 0x12, g := g.code, d := d.val, s := s.val, t := t.val, mask := m.val }, none)
  | .vshl g d s t m => some (.v, { op := 0x13, g := g.code, d := d.val, s := s.val, t := t.tField, w := t.wField, u := t.uField, mask := m.val }, none)
  | .vshr g d s t m => some (.v, { op := 0x14, g := g.code, d := d.val, s := s.val, t := t.tField, w := t.wField, u := t.uField, mask := m.val }, none)
  | .vshra g d s t m => some (.v, { op := 0x15, g := g.code, d := d.val, s := s.val, t := t.tField, w := t.wField, u := t.uField, mask := m.val }, none)
  | .vcmp g c d s t m ty => some (.v, { op := 0x18, g := g.code, d := d.val, s := s.val, t := t.val, u := c.code, mask := m.val, ty := ty.code }, none)
  | .vsel g d s t u m => some (.v, { op := 0x19, g := g.code, d := d.val, s := s.val, t := t.val, u := u.val, mask := m.val }, none)
  | .vmov g d s m => some (.v, { op := 0x1A, g := g.code, d := d.val, s := s.val, mask := m.val }, none)
  | .vbcast g d s m => some (.v, { op := 0x1B, g := g.code, d := d.val, s := s.sField, w := s.wField, u := s.uField, mask := m.val }, s.lim)
  | .vperm g d s t m => some (.v, { op := 0x1C, g := g.code, d := d.val, s := s.val, t := t.val, mask := m.val }, none)
  | .vslide g d s t m => some (.v, { op := 0x1D, g := g.code, d := d.val, s := s.val, t := t.val, mask := m.val }, none)
  | .vslideDn g d s t m => some (.v, { op := 0x1D, g := g.code, d := d.val, s := s.val, t := t.val, w := 1, mask := m.val }, none)
  | .vred g op d s m ty rm => some (.v, { op := 0x1E, g := g.code, d := d.val, s := s.val, u := op.code, mask := m.val, ty := ty.code, rm := rm.code }, none)
  | .vscan g op d s m ty rm => some (.v, { op := 0x1F, g := g.code, d := d.val, s := s.val, u := op.code, mask := m.val, ty := ty.code, rm := rm.code }, none)
  | .vany g d s m => some (.v, { op := 0x20, g := g.code, d := d.val, s := s.val, mask := m.val }, none)
  | .vall g d s m => some (.v, { op := 0x21, g := g.code, d := d.val, s := s.val, mask := m.val }, none)
  | .vfirst g d s m => some (.v, { op := 0x22, g := g.code, d := d.val, s := s.val, mask := m.val }, none)
  | .vpopc g d s m => some (.v, { op := 0x23, g := g.code, d := d.val, s := s.val, mask := m.val }, none)
  | .viota g d m => some (.v, { op := 0x24, g := g.code, d := d.val, mask := m.val }, none)
  | .vextr g d s t => some (.v, { op := 0x25, g := g.code, d := d.val, s := s.val, t := t.val }, none)
  | .vins g d s t => some (.v, { op := 0x26, g := g.code, d := d.val, s := s.val, t := t.val }, none)
  | .vcvt g d s m src dst rm nsat => some (.v, { op := 0x28, g := g.code, d := d.val, s := s.val, w := nsat.toNat, u := src.code, mask := m.val, ty := dst.code, rm := rm.code }, none)
  | .vqmx g d s t ty rm nsat => some (.v, { op := 0x29, g := g.code, d := d.val, s := s.val, t := t.val, w := nsat.toNat, ty := ty.code, rm := rm.code }, none)
  | .vdqmx g d s t m ty rm => some (.v, { op := 0x2A, g := g.code, d := d.val, s := s.val, t := t.val, mask := m.val, ty := ty.code, rm := rm.code }, none)
  | .vrand g d s t m ty adv => some (.v, { op := 0x2B, g := g.code, d := d.val, s := s.val, t := t.val, w := adv.toNat, mask := m.val, ty := ty.code }, none)
  | .qand g d s t m => some (.v, { op := 0x30, g := g.code, d := d.val, s := s.val, t := t.val, mask := m.val }, none)
  | .qor g d s t m => some (.v, { op := 0x31, g := g.code, d := d.val, s := s.val, t := t.val, mask := m.val }, none)
  | .qxor g d s t m => some (.v, { op := 0x32, g := g.code, d := d.val, s := s.val, t := t.val, mask := m.val }, none)
  | .qnot g d s m => some (.v, { op := 0x33, g := g.code, d := d.val, s := s.val, mask := m.val }, none)
  | .sortb g asc d s t => some (.x, { op := 1, g := g.code, d := d.val, s := s.val, t := t.val, w := asc.toNat }, none)
  | .merge g asc d s => some (.x, { op := 2, g := g.code, d := d.val, s := s.val, w := asc.toNat }, none)
  | .cmrg g s t => some (.x, { op := 3, g := g.code, s := s.val, t := t.val }, none)
  | .cget g idx d k => some (.x, { op := 4, g := g.code, d := d.val, t := k.val, w := idx.toNat }, none)
  | .cclr g => some (.x, { op := 5, g := g.code }, none)
  | .ctopp g d s => some (.x, { op := 6, g := g.code, d := d.val, s := s.val }, none)
  | .cdraw g d s => some (.x, { op := 7, g := g.code, d := d.val, s := s.val }, none)
  | .fenceAcq g c => some (.q, { op := 0x08 + c.code, g := g.code, t := 1 }, none)
  | .fenceRel g c => some (.q, { op := 0x08 + c.code, g := g.code, t := 2 }, none)
  | .fenceFull g c => some (.q, { op := 0x08 + c.code, g := g.code, t := 3 }, none)
  | .drain g c => some (.q, { op := 0x10 + c.code, g := g.code }, none)
  | .push g d s t => some (.q, { op := 0x20, g := g.code, d := d.val, s := s.val, t := t.val }, none)
  | .pop g d s => some (.q, { op := 0x21, g := g.code, d := d.val, s := s.val }, none)
  | .qstat g d s => some (.q, { op := 0x22, g := g.code, d := d.val, s := s.val }, none)
  | .notify g s t => some (.q, { op := 0x23, g := g.code, s := s.val, t := t.val }, none)
  | .launch g d s => some (.q, { op := 0x24, g := g.code, d := d.val, s := s.val }, none)
  | .suspend g s => some (.q, { op := 0x25, g := g.code, s := s.val }, none)
  | .exit g => some (.q, { op := 0x26, g := g.code }, none)
  | .evpost g s t => some (.q, { op := 0x27, g := g.code, s := s.val, t := t.val }, none)
  | .dictld g d s t => some (.q, { op := 0x40, g := g.code, d := d.val, s := s.val, t := t.val }, none)
  | .tlbinvPage g s => some (.q, { op := 0x44, g := g.code, s := s.val }, none)
  | .tlbinvHc g s => some (.q, { op := 0x45, g := g.code, s := s.val }, none)
  | .tlbinvAll g => some (.q, { op := 0x46, g := g.code }, none)
  | .kvlook g d s t => some (.q, { op := 0x50, g := g.code, d := d.val, s := s.val, t := t.val }, none)
  | .kvapp g d s t => some (.q, { op := 0x51, g := g.code, d := d.val, s := s.val, t := t.val }, none)
  | .kvfork g d s t => some (.q, { op := 0x52, g := g.code, d := d.val, s := s.val, t := t.val }, none)
  | .kvtrunc g d s t => some (.q, { op := 0x53, g := g.code, d := d.val, s := s.val, t := t.val }, none)
  | .kvfree g s t => some (.q, { op := 0x54, g := g.code, s := s.val, t := t.val }, none)
  | .pfxfind g d s t => some (.q, { op := 0x55, g := g.code, d := d.val, s := s.val, t := t.val }, none)
  | .pfxins g d s t => some (.q, { op := 0x56, g := g.code, d := d.val, s := s.val, t := t.val }, none)
  | .strunc g d s t => some (.q, { op := 0x57, g := g.code, d := d.val, s := s.val, t := t.val }, none)
  | .scommit g d s t => some (.q, { op := 0x58, g := g.code, d := d.val, s := s.val, t := t.val }, none)
  | .sframe g d s t => some (.q, { op := 0x59, g := g.code, d := d.val, s := s.val, t := t.val }, none)
  | .btsnap g s t => some (.q, { op := 0x5A, g := g.code, s := s.val, t := t.val }, none)
  | .obsel g d => some (.q, { op := 0x5B, g := g.code, d := d.val }, none)
  | .stage g s => some (.q, { op := 0x60, g := g.code, s := s.val }, none)
  | .tokclr g s => some (.q, { op := 0x61, g := g.code, s := s.val }, none)
  | .bar g s => some (.q, { op := 0x62, g := g.code, s := s.val }, none)
  | .lnscfg g s t => some (.q, { op := 0x63, g := g.code, s := s.val, t := t.val }, none)
  | .lnsrun g s => some (.q, { op := 0x64, g := g.code, s := s.val }, none)
  | .lnsbrk g => some (.q, { op := 0x65, g := g.code }, none)
  | .seqlen g s => some (.q, { op := 0x66, g := g.code, s := s.val }, none)
  | .cntrd g d s => some (.q, { op := 0x67, g := g.code, d := d.val, s := s.val }, none)
  | .cntclr g s => some (.q, { op := 0x68, g := g.code, s := s.val }, none)
  | .resume g s => some (.q, { op := 0x70, g := g.code, s := s.val }, none)
  | .fqpop g d s => some (.q, { op := 0x71, g := g.code, d := d.val, s := s.val }, none)
  | _ => none

/-- The slot kind, the slot word and the LIMM of a slot operation. -/
def encode (i : Instr) : Option (SlotKind × Nat × Option Nat) :=
  i.enc.map (fun e => (e.1, e.2.1.pack e.1, e.2.2))

/-! ### Bundles -/

/-- A bundle header (R70). -/
structure Header where
  word : BitVec 32
  deriving DecidableEq, Repr

namespace Header
def stop (h : Header) : Bool := h.word.getLsbD 31
def seg (h : Header) : Bool := h.word.getLsbD 30
/-- Whether slot n, 1 to 8, lends (R70). -/
def lends (h : Header) (n : Nat) : Bool := decide (1 ≤ n ∧ n ≤ 8) && h.word.getLsbD (30 - n)
/-- Whether the bundle waits on token k (R71). -/
def waits (h : Header) (k : Nat) : Bool := h.word.getLsbD (14 + k)
def yield (h : Header) : Bool := h.word.getLsbD 13
def first (h : Header) : Bool := h.word.getLsbD 12
def last (h : Header) : Bool := h.word.getLsbD 11
def lvl (h : Header) : Nat := (h.word.extractLsb' 8 3).toNat
def rsv (h : Header) : Nat := (h.word.extractLsb' 0 8).toNat
end Header

/-- The lowest bit of slot n in the bundle (R69). -/
def slotLo : Nat → Nat
  | 0 => 320
  | 1 => 288
  | 2 => 256
  | 3 => 224
  | 4 => 160
  | 5 => 112
  | 6 => 64
  | 7 => 32
  | _ => 0

/-- The word in slot n of a bundle (R69). -/
def slotWord (b : BitVec 384) (n : Nat) : Nat := b.toNat / 2 ^ slotLo n % 2 ^ (SlotKind.ofNum n).width

def headerOf (b : BitVec 384) : Header := ⟨b.extractLsb' 352 32⟩

/-- Whether an opcode has a long-immediate form in its slot's map (R103 to R112). -/
def hasLong (k : SlotKind) (op : Nat) : Bool :=
  match k with
  | .s => (0x41 ≤ op && op ≤ 0x55) || op == 0x1F || op == 0x30 || op == 0x34 || op == 0x78 || (0xC0 ≤ op && op ≤ 0xC9)
  | .a => (0x10 ≤ op && op ≤ 0x16) || (0x18 ≤ op && op ≤ 0x1B) || (0x20 ≤ op && op ≤ 0x22) || (0x24 ≤ op && op ≤ 0x26) ||
      op == 0x2B || op == 0x2C || (0x30 ≤ op && op ≤ 0x38) || op == 0x40 || (0x48 ≤ op && op ≤ 0x4F)
  | .c => 0x10 ≤ op && op ≤ 0x17
  | .v => op == 0x1B
  | _ => false

/-- Whether slot n may lend to slot n − 1 in this bundle (R75, log entry 51). -/
def lendOk (b : BitVec 384) (n : Nat) : Bool :=
  let k := SlotKind.ofNum (n - 1)
  let f := Fields.unpack k (slotWord b (n - 1))
  !(headerOf b).lends (n - 1) && hasLong k f.op && f.t == 0

/-- Whether the header is legal: reserved bits, LVL, SEG without STOP, LEND (R74, R75). -/
def headerOk (b : BitVec 384) : Bool :=
  let h := headerOf b
  h.rsv == 0 && decide (h.lvl < 6) && (h.lvl == 0 || h.first || h.last) && (!h.seg || h.stop) &&
  (List.range 9).all (fun n => !h.lends n || lendOk b n)

/-- A decoded slot: its number, its word, its operation. -/
structure SlotOp where
  slot : Nat
  word : Nat
  instr : Instr
  deriving DecidableEq, Repr

/-- What a bundle decodes to: its operations in slot order, a header cause, or the lowest offending slot (R74, R435). -/
inductive Decoded where
  | ok (h : Header) (ops : List SlotOp)
  | badHeader
  | badSlot (n : Nat)
  deriving DecidableEq, Repr

/-- The operations of slots n to 8, `fuel` of them left; a lender holds none, and a NOP is all zero (R75, R102). -/
def decodeSlots (b : BitVec 384) : (fuel n : Nat) → Except Nat (List SlotOp)
  | 0, _ => .ok []
  | fuel + 1, n =>
      let w := slotWord b n
      if (headerOf b).lends n || w == 0 then decodeSlots b fuel (n + 1)
      else
        let lim := if (headerOf b).lends (n + 1) then some (slotWord b (n + 1)) else none
        match decodeSlot (SlotKind.ofNum n) w lim with
        | none => .error n
        | some i =>
            match decodeSlots b fuel (n + 1) with
            | .error e => .error e
            | .ok ops => .ok (⟨n, w, i⟩ :: ops)

def Instr.isBranch : Instr → Bool
  | .br _ _ | .brl _ _ _ => true
  | _ => false

/-- Whether both S slots hold a branch (R174, log entry 51). -/
def twoBranches (b : BitVec 384) : Bool :=
  match decodeSlots b 2 0 with
  | .ok ops => ops.countP (fun o => o.instr.isBranch) == 2
  | .error _ => false

/-- Decoding of a whole bundle, total on any bits: the header, then the slots in ascending order, a second branch charged to slot 0 (R74, R102, R174, R500). -/
def decodeBundle (b : BitVec 384) : Decoded :=
  if !headerOk b then .badHeader
  else if twoBranches b then .badSlot 0
  else
    match decodeSlots b 9 0 with
    | .error n => .badSlot n
    | .ok ops => .ok (headerOf b) ops

/-- The slots of a bundle that are legal on their own (R500, log entry 66). -/
def legalSlots (b : BitVec 384) : List SlotOp :=
  (List.range 9).flatMap (fun n => match decodeSlots b 1 n with
    | .ok ops => ops
    | .error _ => [])

/-- The slot a table word of that many bits is read in: the opcode table names no slot, so a 32-bit word is read in the first of S, Q, A, C, X whose map takes it (log entry 12). -/
def tableSlot (nbits w : Nat) : Option (Nat × Instr) :=
  if nbits = 48 then (decodeSlot .v w none).map (fun i => (5, i))
  else if nbits = 64 then (decodeSlot .m w none).map (fun i => (4, i))
  else if nbits = 32 then
    [(0, SlotKind.s), (8, .q), (2, .a), (3, .c), (7, .x)].findSome?
      (fun e => (decodeSlot e.2 w none).map (fun i => (e.1, i)))
  else none

/-- The instruction the decoder reads from an opcode-table word (log entry 12). -/
def decodeTableWord (nbits w : Nat) : Option Instr := (tableSlot nbits w).map (·.2)

/-- The slot word's bundle: that word in its slot, STOP set, every other slot NOP (R69, R70). -/
def bundleOf (slot w : Nat) : BitVec 384 := BitVec.ofNat 384 (w * 2 ^ slotLo slot + 2 ^ 383)

end Sys2Proof
end

