-- ==== Sys2Proof/Machine/Flags.lean ====
section
/-! DEFINITION. Number formats and arithmetic: exact values, rounding, flags, the architected functions (spec 05). -/

namespace Sys2Proof

/-- FSTAT's flags as a word: NX 1, UF 2, OF 4, DZ 8, IV 16 (R152). -/
abbrev Fl := BitVec 5
def flNX : Fl := 1
def flUF : Fl := 2
def flOF : Fl := 4
def flDZ : Fl := 8
def flIV : Fl := 16

/-- The rounding modes, coded as FMODE codes them (R129, R153). -/
inductive Mode where
  | rne | rtz | rup | rdn
  deriving DecidableEq, Repr

def Mode.ofBits (b : BitVec 2) : Mode :=
  if b = 0 then .rne else if b = 1 then .rtz else if b = 2 then .rup else .rdn

/-- The effective mode of a V-slot form (R129). -/
def Rm.eff (fmode : BitVec 2) : Rm → Mode
  | .fmode => Mode.ofBits fmode
  | .rne => .rne
  | .rtz => .rtz
  | .rup => .rup
  | .rdn => .rdn

/-- An exact extended value: NaN, an infinity, a signed zero, or ±mag·2^e with mag above 0 (R124, R131). -/
inductive XVal where
  | nan
  | inf (neg : Bool)
  | zero (neg : Bool)
  | num (neg : Bool) (mag : Nat) (e : Int)
  deriving DecidableEq, Repr

/-- A floating format: width, fraction bits, bias, the code of the largest finite magnitude, infinity's code, NaN's code (R124, R126). -/
structure FFmt where
  width : Nat
  f : Nat
  bias : Nat
  maxc : Nat
  infc : Option Nat
  nanc : Option Nat
  deriving DecidableEq, Repr

def fp32 : FFmt := ⟨32, 23, 127, 0x7F7FFFFF, some 0x7F800000, some 0x7FC00000⟩
def fpBf16 : FFmt := ⟨16, 7, 127, 0x7F7F, some 0x7F80, some 0x7FC0⟩
def fp16 : FFmt := ⟨16, 10, 15, 0x7BFF, some 0x7C00, some 0x7E00⟩
def fpE4M3 : FFmt := ⟨8, 3, 7, 0x7E, none, some 0x7F⟩
def fpE5M2 : FFmt := ⟨8, 2, 15, 0x7B, some 0x7C, some 0x7E⟩
def fpE2M1 : FFmt := ⟨4, 1, 1, 7, none, none⟩

/-- The exponent of the smallest subnormal's unit. -/
def FFmt.emin (F : FFmt) : Int := 1 - (F.bias : Int) - (F.f : Int)

/-- The value a code stands for (R124); a magnitude above the largest finite is infinity at the infinity code and NaN elsewhere. -/
def FFmt.decode (F : FFmt) (code : Nat) : XVal :=
  let neg := code.testBit (F.width - 1)
  let c := code % 2 ^ (F.width - 1)
  if F.maxc < c then (if F.infc = some c then .inf neg else .nan)
  else if c = 0 then .zero neg
  else if c < 2 ^ F.f then .num neg c F.emin
  else .num neg (2 ^ F.f + c % 2 ^ F.f) (F.emin + ((c / 2 ^ F.f : Nat) : Int) - 1)

/-- Puts a sign on a magnitude code. -/
def FFmt.signed (F : FFmt) (neg : Bool) (c : Nat) : Nat := if neg then 2 ^ (F.width - 1) + c else c

/-- Whether a magnitude q + r/2^k, r the remainder below 2^k, rounds up (R129). -/
def roundsUp (mode : Mode) (neg : Bool) (q r k : Nat) : Bool :=
  match mode with
  | .rne => decide (2 ^ k < 2 * r) || (decide (2 ^ k = 2 * r) && q % 2 == 1)
  | .rtz => false
  | .rup => !neg && r != 0
  | .rdn => neg && r != 0

/-- mag·2^e rounded to a whole number of units 2^q: the number of units and whether it is inexact. -/
def roundUnits (mode : Mode) (neg : Bool) (mag : Nat) (e q : Int) : Nat × Bool :=
  if q ≤ e then (mag * 2 ^ (e - q).toNat, false)
  else
    let k := (q - e).toNat
    let d := mag / 2 ^ k
    let r := mag % 2 ^ k
    (if roundsUp mode neg d r k then d + 1 else d, r != 0)

/-- The infinity of a format; without one, the canonical NaN of E4M3 or the largest finite of E2M1 (R130). -/
def FFmt.infBits (F : FFmt) (neg : Bool) : Nat :=
  match F.infc with
  | some c => F.signed neg c
  | none => match F.nanc with
    | some c => c
    | none => F.signed neg F.maxc

/-- A NaN delivered to a format: its canonical NaN, or the substitute with IV (R126). -/
def FFmt.nanBits (F : FFmt) : Nat × Fl :=
  match F.nanc with
  | some c => (c, 0)
  | none => (F.maxc, flIV)

/-- The overflow result by mode (R130). -/
def FFmt.overflow (F : FFmt) (mode : Mode) (neg : Bool) : Nat :=
  match mode, neg with
  | .rne, n => F.infBits n
  | .rtz, n => F.signed n F.maxc
  | .rup, false => F.infBits false
  | .rup, true => F.signed true F.maxc
  | .rdn, false => F.signed false F.maxc
  | .rdn, true => F.infBits true

/-- Rounding of ±mag·2^e, mag above 0: the code and the flags. A saturating rounding gives the largest finite in place of R130's overflow result (R6, R129, R130, R132). -/
def FFmt.roundNum (F : FFmt) (mode : Mode) (sat : Bool) (neg : Bool) (mag : Nat) (e : Int) : Nat × Fl :=
  let q := max F.emin (e + (mag.log2 : Int) - (F.f : Int))
  let (u, inexact) := roundUnits mode neg mag e q
  let c := (q - F.emin).toNat * 2 ^ F.f + u
  if F.maxc < c then
    (if sat then F.signed neg F.maxc else F.overflow mode neg, flOF ||| flNX)
  else
    (F.signed neg c,
      if inexact then (if c < 2 ^ F.f then flUF ||| flNX else flNX) else 0)

/-- Whether a conversion to the format saturates unless .NSAT is given: FP8 and FP4 (R132). -/
def FFmt.saturates (F : FFmt) : Bool := F.width < 16

/-- Round an extended value to a format by a mode, without saturation (R6, R129, R130). -/
def FFmt.round (F : FFmt) (mode : Mode) : XVal → Nat × Fl
  | .nan => F.nanBits
  | .inf neg => (F.infBits neg, 0)
  | .zero neg => (F.signed neg 0, 0)
  | .num neg mag e => F.roundNum mode false neg mag e

/-- A conversion to a floating format (R132). -/
def FFmt.convert (F : FFmt) (mode : Mode) (nsat : Bool) : XVal → Nat × Fl
  | .nan => F.nanBits
  | .inf neg =>
      if F.saturates then
        (if nsat then (F.infBits neg, if F.infc.isSome then 0 else flOF ||| flNX)
         else (F.signed neg F.maxc, flOF ||| flNX))
      else (F.infBits neg, 0)
  | .zero neg => (F.signed neg 0, 0)
  | .num neg mag e => F.roundNum mode (F.saturates && !nsat) neg mag e

/-- An integer as an extended value. -/
def XVal.ofInt (i : Int) : XVal := if i = 0 then .zero false else .num (i < 0) i.natAbs 0

/-- The sign of a value; NaN counts as positive. -/
def XVal.sign : XVal → Bool
  | .nan => false
  | .inf n => n
  | .zero n => n
  | .num n _ _ => n

def XVal.isNan : XVal → Bool
  | .nan => true
  | _ => false

def XVal.neg : XVal → XVal
  | .nan => .nan
  | .inf n => .inf (!n)
  | .zero n => .zero (!n)
  | .num n m e => .num (!n) m e

/-- A value times 2^k. -/
def XVal.scale (k : Int) : XVal → XVal
  | .num n m e => .num n m (e + k)
  | x => x

/-- The signed whole number of units 2^q that ±mag·2^e is, for q ≤ e. -/
def unitsAt (neg : Bool) (mag : Nat) (e q : Int) : Int :=
  let u : Int := ((mag * 2 ^ (e - q).toNat : Nat) : Int)
  if neg then -u else u

/-- An exact sum, with R131's zero sign under the mode and IV for ∞ − ∞ (R131, R133). -/
def XVal.add (mode : Mode) (x y : XVal) : XVal × Fl :=
  match x, y with
  | .nan, _ => (.nan, 0)
  | _, .nan => (.nan, 0)
  | .inf a, .inf b => if a = b then (.inf a, 0) else (.nan, flIV)
  | .inf a, _ => (.inf a, 0)
  | _, .inf b => (.inf b, 0)
  | .zero a, .zero b => (.zero (if a = b then a else mode = .rdn), 0)
  | .zero _, y => (y, 0)
  | x, .zero _ => (x, 0)
  | .num a m e, .num b n f =>
      let q := min e f
      let s := unitsAt a m e q + unitsAt b n f q
      (if s = 0 then .zero (mode = .rdn) else .num (s < 0) s.natAbs q, 0)

/-- An exact product, with IV for 0 × ∞ (R131, R133). -/
def XVal.mul (x y : XVal) : XVal × Fl :=
  match x, y with
  | .nan, _ => (.nan, 0)
  | _, .nan => (.nan, 0)
  | .inf _, .zero _ => (.nan, flIV)
  | .zero _, .inf _ => (.nan, flIV)
  | .inf a, y => (.inf (a != y.sign), 0)
  | x, .inf b => (.inf (x.sign != b), 0)
  | .zero a, y => (.zero (a != y.sign), 0)
  | x, .zero b => (.zero (x.sign != b), 0)
  | .num a m e, .num b n f => (.num (a != b) (m * n) (e + f), 0)

/-- u + s × t exactly; the product's IV counts even beside a NaN addend (R133). -/
def XVal.fma (mode : Mode) (u s t : XVal) : XVal × Fl :=
  let (p, f1) := s.mul t
  let (r, f2) := XVal.add mode u p
  (r, f1 ||| f2)

/-- The ordering of two values that are not NaN, with −0 equal to +0: −1, 0 or 1 (R134). -/
def XVal.cmp (x y : XVal) : Int :=
  match x, y with
  | .inf a, .inf b => if a = b then 0 else if a then -1 else 1
  | .inf a, _ => if a then -1 else 1
  | _, .inf b => if b then 1 else -1
  | .zero _, .zero _ => 0
  | .zero _, .num b _ _ => if b then 1 else -1
  | .num a _ _, .zero _ => if a then -1 else 1
  | .num a m e, .num b n f => (unitsAt a m e (min e f) - unitsAt b n f (min e f)).sign
  | .nan, _ => 0
  | _, .nan => 0

/-- x below y in the order of floating minimum and maximum, in which −0 is below +0 (R134). -/
def XVal.below (x y : XVal) : Bool :=
  x.cmp y < 0 || (x.cmp y == 0 && x.sign && !y.sign)

/-- A floating comparison: with a NaN only NE holds (R134). -/
def XVal.test (c : Cond) (x y : XVal) : Bool :=
  if x.isNan || y.isNan then c == .ne
  else match c with
    | .eq => x.cmp y == 0
    | .ne => x.cmp y != 0
    | .lt | .ltn => x.cmp y < 0
    | .le | .len => x.cmp y ≤ 0
    | .gt | .gtn => 0 < x.cmp y
    | .ge | .gen => 0 ≤ x.cmp y

/-- The code of the minimum of two codes of one format (R134). -/
def FFmt.minBits (F : FFmt) (a b : Nat) : Nat :=
  let x := F.decode a
  let y := F.decode b
  if x.isNan then (if y.isNan then F.nanBits.1 else b)
  else if y.isNan then a
  else if y.below x then b else a

/-- The code of the maximum of two codes of one format (R134). -/
def FFmt.maxBits (F : FFmt) (a b : Nat) : Nat :=
  let x := F.decode a
  let y := F.decode b
  if x.isNan then (if y.isNan then F.nanBits.1 else b)
  else if y.isNan then a
  else if x.below y then b else a

/-- SatFinite into an integer range, reporting OF alone (R7, R122, log entry 29). -/
def satInt (lo hi i : Int) : Int × Fl :=
  if i < lo then (lo, flOF) else if hi < i then (hi, flOF) else (i, 0)

/-- A floating value converted to an integer range: rounded, then saturated; NaN gives 0 and IV (R132). -/
def XVal.toInt (mode : Mode) (lo hi : Int) : XVal → Int × Fl
  | .nan => (0, flIV)
  | .inf neg => (if neg then lo else hi, flOF)
  | .zero _ => (0, 0)
  | .num neg mag e =>
      let (u, inexact) := roundUnits mode neg mag e 0
      let (r, f) := satInt lo hi (if neg then -(u : Int) else (u : Int))
      (r, f ||| (if inexact then flNX else 0))

/-! ### Element types -/

/-- The width of an element in bits (R122, R124). -/
def ETy.bits : ETy → Nat
  | .i32 | .n32 | .f32 => 32
  | .i16 | .n16 | .bf16 | .f16 => 16
  | .i8 | .n8 | .e4m3 | .e5m2 => 8
  | .e2m1 | .i4 | .n4 => 4

/-- The floating format of an element type. -/
def ETy.ffmt : ETy → Option FFmt
  | .f32 => some fp32
  | .bf16 => some fpBf16
  | .f16 => some fp16
  | .e4m3 => some fpE4M3
  | .e5m2 => some fpE5M2
  | .e2m1 => some fpE2M1
  | _ => none

/-- Whether an integer type is signed; false for the natural and the floating types. -/
def ETy.signed : ETy → Bool
  | .i32 | .i16 | .i8 | .i4 => true
  | _ => false

/-- The smallest and largest value of an integer type (R122). -/
def ETy.range (ty : ETy) : Int × Int :=
  if ty.signed then (-(2 ^ (ty.bits - 1) : Int), 2 ^ (ty.bits - 1) - 1) else (0, 2 ^ ty.bits - 1)

/-- The integer an element code of an integer type stands for. -/
def ETy.toInt (ty : ETy) (code : Nat) : Int :=
  if ty.signed && code.testBit (ty.bits - 1) then (code : Int) - 2 ^ ty.bits else code

/-- An integer as the low bits of an element. -/
def ETy.ofInt (ty : ETy) (i : Int) : Nat := (i % (2 ^ ty.bits : Int)).toNat

/-- The element of a lane: its low bits (R183). -/
def ETy.elem (ty : ETy) (lane : Word32) : Nat := lane.toNat % 2 ^ ty.bits

/-- The lane that holds an element, the bits above filled as R183 states. -/
def ETy.lane (ty : ETy) (code : Nat) : Word32 :=
  if ty.signed then BitVec.ofInt 32 (ty.toInt (code % 2 ^ ty.bits)) else BitVec.ofNat 32 (code % 2 ^ ty.bits)

/-- The exact value of an element. -/
def ETy.value (ty : ETy) (code : Nat) : XVal :=
  match ty.ffmt with
  | some F => F.decode code
  | none => .ofInt (ty.toInt code)

/-- A conversion of an exact value to an element type (R132, R199). -/
def ETy.convert (ty : ETy) (mode : Mode) (nsat : Bool) (x : XVal) : Nat × Fl :=
  match ty.ffmt with
  | some F => F.convert mode nsat x
  | none =>
      let (i, f) := x.toInt mode ty.range.1 ty.range.2
      (ty.ofInt i, f)

/-- VCVT of one element (R199): a conversion whose types agree copies the element and changes only a NaN. -/
def cvtElem (src dst : ETy) (mode : Mode) (nsat : Bool) (code : Nat) : Nat × Fl :=
  if src = dst then
    (match src.ffmt with
     | some F => if (F.decode code).isNan then (F.nanBits.1, 0) else (code, 0)
     | none => (code, 0))
  else dst.convert mode nsat (src.value code)

/-! ### fp32 helpers -/

def f32 (b : Word32) : XVal := fp32.decode b.toNat
/-- RoundNE to fp32, the bits alone (R6). -/
def rne32 (x : XVal) : Word32 := BitVec.ofNat 32 (fp32.round .rne x).1
def rne32v (x : XVal) : XVal := fp32.decode (fp32.round .rne x).1
/-- RoundNE(a + b, fp32) with flags. -/
def addRne (a b : XVal) : Word32 × Fl :=
  let (s, f) := XVal.add .rne a b
  let (c, g) := fp32.round .rne s
  (BitVec.ofNat 32 c, f ||| g)
/-- RoundNE(p × x + c, fp32), no flags (R9, R139). -/
def fmaStep (c p x : XVal) : XVal := rne32v (XVal.fma .rne c p x).1

def f32Nan : Word32 := 0x7FC00000
def f32Inf : Word32 := 0x7F800000
def f32NegInf : Word32 := 0xFF800000

/-- Floor of ±mag·2^e. -/
def floorX (neg : Bool) (mag : Nat) (e : Int) : Int :=
  let (u, _) := roundUnits .rdn neg mag e 0
  if neg then -(u : Int) else u

/-- Exp2Poly (R9). -/
def exp2Poly (f : XVal) : XVal :=
  let p := fmaStep (f32 0x3E680000) (f32 0x3DA00000) f
  let p := fmaStep (f32 0x3F320000) p f
  fmaStep (f32 0x3F800000) p f

/-- VEXP2 of one lane (R140 to R142). -/
def exp2Lane (b : Word32) : Word32 × Fl :=
  match f32 b with
  | .nan => (f32Nan, 0)
  | .inf neg => (if neg then 0 else f32Inf, 0)
  | .zero _ => (0x3F800000, 0)
  | .num neg mag e =>
      if !neg && 0 ≤ (XVal.num neg mag e).cmp (.num false 1 7) then (f32Inf, flOF ||| flNX)
      else
        let n := floorX neg mag e
        -- far below the range: no value of the polynomial brings the result back above 2^-126
        if n < -256 then (0, flUF ||| flNX)
        else
        let f := rne32v (XVal.add .rne (.num neg mag e) (.ofInt (-n))).1
        let (n, f) := if f.cmp (.num false 1 0) = 0 then (n + 1, XVal.zero false) else (n, f)
        let y := (exp2Poly f).scale n
        if y.cmp (.num false 1 (-126)) < 0 then (0, flUF ||| flNX)
        else
          let (c, g) := fp32.round .rne y
          (BitVec.ofNat 32 c, g)

/-- The normalised split of a magnitude: its exponent e with 1 ≤ m < 2, and m as an exact value. -/
def splitX (mag : Nat) (e : Int) : Int × XVal :=
  let l : Int := mag.log2
  (e + l, .num false mag (-l))

/-- VLOG2 of one lane (R140, R143). -/
def log2Lane (b : Word32) : Word32 × Fl :=
  match f32 b with
  | .nan => (f32Nan, 0)
  | .inf neg => if neg then (f32Nan, flIV) else (f32Inf, 0)
  | .zero _ => (f32NegInf, flDZ)
  | .num neg mag e =>
      if neg then (f32Nan, flIV)
      else
        let (ex, m) := splitX mag e
        let t := (XVal.add .rne m (.num true 1 0)).1
        let p := fmaStep (f32 0xBF280000) (f32 0x3E580000) t
        let p := fmaStep (f32 0x3FB90000) p t
        let p := rne32v (p.mul t).1
        (rne32 (XVal.add .rne (.ofInt ex) p).1, 0)

/-- One refinement step of VRCP (R144). -/
def rcpStep (m y : XVal) : XVal :=
  let d := rne32v (XVal.fma .rne (.num false 1 0) m y.neg).1
  fmaStep y y d

/-- The seed of VRCP: 8192 ÷ (33 + 2i) rounded to the nearest integer, over 256 (R144). -/
def rcpSeed (i : Nat) : Nat := (2 * 8192 + (33 + 2 * i)) / (2 * (33 + 2 * i))

/-- Only the flags of overflow and underflow, with their NX (R139). -/
def rangeFlags (f : Fl) : Fl := if f &&& (flOF ||| flUF) = 0 then 0 else f

/-- VRCP of one lane (R140, R144). -/
def rcpLane (b : Word32) : Word32 × Fl :=
  match f32 b with
  | .nan => (f32Nan, 0)
  | .inf neg => (if neg then 0x80000000 else 0, 0)
  | .zero neg => (if neg then f32NegInf else f32Inf, flDZ)
  | .num neg mag e =>
      let (ex, m) := splitX mag e
      let i := mag * 2 ^ (23 - mag.log2) / 2 ^ 19 % 16
      let y := XVal.num false (rcpSeed i) (-8)
      let y := rcpStep m (rcpStep m (rcpStep m y))
      let r := if neg then y.neg else y
      let (c, g) := fp32.round .rne (r.scale (-ex))
      (BitVec.ofNat 32 c, rangeFlags g)

/-- The seeds of VRSQ, entry 8j + i: 256 ÷ sqrt(2^j × (17 + 2i) ÷ 16) to the nearest integer (R145). -/
def rsqSeeds : List Nat := [248, 235, 223, 214, 205, 197, 190, 184, 176, 166, 158, 151, 145, 139, 134, 130]

/-- One refinement step of VRSQ (R145). -/
def rsqStep (w y : XVal) : XVal :=
  let h := rne32v (w.mul y).1
  let d := rne32v (XVal.fma .rne (.num false 1 0) h y.neg).1
  fmaStep y (y.scale (-1)) d

/-- VRSQ of one lane (R140, R145). -/
def rsqLane (b : Word32) : Word32 × Fl :=
  match f32 b with
  | .nan => (f32Nan, 0)
  | .inf neg => if neg then (f32Nan, flIV) else (0, 0)
  | .zero neg => (if neg then f32NegInf else f32Inf, flDZ)
  | .num neg mag e =>
      if neg then (f32Nan, flIV)
      else
        let (ex, m) := splitX mag e
        let j := ex % 2
        let w := m.scale j
        let i := mag * 2 ^ (23 - mag.log2) / 2 ^ 20 % 8
        let y := XVal.num false (rsqSeeds.getD (8 * j.toNat + i) 0) (-8)
        let y := rsqStep w (rsqStep w (rsqStep w y))
        let (c, g) := fp32.round .rne (y.scale (-((ex - j) / 2)))
        (BitVec.ofNat 32 c, rangeFlags g)

/-! ### MX blocks -/

/-- The element values of MX block formats: fp codes, or int8 times 2^-6 (R127). -/
def mxValue (ty : ETy) (code : Nat) : XVal :=
  match ty.ffmt with
  | some F => F.decode code
  | none => (XVal.ofInt (ty.toInt code)).scale (-6)

/-- emax of a block format (R127). -/
def mxEmax : ETy → Int
  | .e4m3 => 8
  | .e5m2 => 15
  | .e2m1 => 2
  | _ => 0

/-- The exponent floor(log2 |x|) of a finite non-zero value. -/
def XVal.ilog : XVal → Option Int
  | .num _ m e => some (e + (m.log2 : Int))
  | _ => none

/-- One element of a block quantised at scale X, with its flags (R128 steps 4 and 5, log entry 14). -/
def mxQuant (ty : ETy) (mode : Mode) (nsat : Bool) (X : Int) (x : XVal) : Nat × Fl :=
  let y := x.scale (127 - X)
  match ty.ffmt with
  | some F =>
      (match y with
       | .num neg mag e =>
           let (c, g) := F.roundNum mode (!nsat) neg mag e
           (c, if nsat then g else g &&& ~~~flOF)
       | .zero neg => (F.signed neg 0, 0)
       | _ => (0, 0))
  | none =>
      (match y.scale 6 with
       | .num neg mag e =>
           let (u, inexact) := roundUnits mode neg mag e 0
           let i : Int := if neg then -(u : Int) else u
           let beyond := decide (i < -128 ∨ 127 < i)
           let r := (satInt (-128) 127 i).1
           (ty.ofInt r,
             (if inexact then flNX else 0) ||| (if beyond && nsat then flOF ||| flNX else 0))
       | _ => (0, 0))

/-- A block of values quantised: the elements, the scale code, the flags (R128). DESIGN CHOICE (log entry 14): the zero elements of a block that holds only zeros, a NaN or an infinity take code 0, plus zero, whatever the sign of their values. -/
def mxBlock (ty : ETy) (mode : Mode) (nsat : Bool) (xs : List XVal) : List Nat × Nat × Fl :=
  if xs.any (fun x => match x with | .nan => true | .inf _ => true | _ => false) then
    (xs.map (fun _ => 0), 0xFF, flIV)
  else
    match xs.filterMap XVal.ilog with
    | [] => (xs.map (fun _ => 0), 0, 0)
    | l :: ls =>
        let top := ls.foldl max l
        let X := max 0 (min 254 (top - mxEmax ty + 127))
        let rs := xs.map (mxQuant ty mode nsat X)
        (rs.map (·.1), X.toNat, rs.foldl (fun f r => f ||| r.2) 0)

/-- The E8M0 scale 2^(X − 127) applied to a value; X = 0xFF is NaN (R125, R127). -/
def mxScaled (X : Nat) (x : XVal) : XVal := if X = 0xFF then .nan else x.scale ((X : Int) - 127)

/-! ### The VRAND generator (R146) -/

def vrandOut (c k : BitVec 64) : Word32 :=
  let z := c ^^^ k
  let z := (z ^^^ (z >>> 31)) * 0x9E6D5A3BC4F12E97#64
  let z := (z ^^^ (z >>> 29)) * 0xD1B54A327C8E6F05#64
  let z := z ^^^ (z >>> 32)
  z.setWidth 32

/-- out[31:8] × 2^−24 as fp32, exactly (R147). -/
def vrandF32 (o : Word32) : Word32 :=
  let n := o.toNat / 256
  if n = 0 then 0 else rne32 (.num false n (-24))

/-! ### Scalar integer operations (R157 to R161) -/

/-- DIV: truncated toward zero, 0 on a zero divisor, −2^63 on overflow (R158). -/
def divS (s u : XWord) : XWord := if u = 0 then 0 else BitVec.ofInt 64 (s.toInt.tdiv u.toInt)
def divN (s u : XWord) : XWord := if u = 0 then 0 else s / u
def remS (s u : XWord) : XWord := if u = 0 then s else BitVec.ofInt 64 (s.toInt.tmod u.toInt)
def remN (s u : XWord) : XWord := if u = 0 then s else s % u
def mulhS (s u : XWord) : XWord := BitVec.ofInt 64 (s.toInt * u.toInt / 2 ^ 64)
def mulhN (s u : XWord) : XWord := BitVec.ofNat 64 (s.toNat * u.toNat / 2 ^ 64)
def minS (s u : XWord) : XWord := if s.toInt ≤ u.toInt then s else u
def maxS (s u : XWord) : XWord := if s.toInt ≤ u.toInt then u else s
def minN (s u : XWord) : XWord := if s.toNat ≤ u.toNat then s else u
def maxN (s u : XWord) : XWord := if s.toNat ≤ u.toNat then u else s
/-- The leading zero bits of a 64-bit word; 64 for zero (R160). -/
def clz64 (s : XWord) : XWord := if s = 0 then 64 else BitVec.ofNat 64 (63 - s.toNat.log2)
/-- The trailing zero bits: the lowest set bit's number; 64 for zero (R160). -/
def ctz64 (s : XWord) : XWord :=
  BitVec.ofNat 64 ((List.range 64).find? (fun i => s.getLsbD i) |>.getD 64)
/-- The number of one bits (R160). -/
def popc64 (s : XWord) : XWord := BitVec.ofNat 64 ((List.range 64).countP (fun i => s.getLsbD i))
def absS (s : XWord) : XWord := if s.msb then -s else s
/-- xS[n:0] sign-extended from bit n (R160). -/
def sextAt (s : XWord) (n : Nat) : XWord := (s <<< (63 - n)).sshiftRight (63 - n)
def zextAt (s : XWord) (n : Nat) : XWord := (s <<< (63 - n)) >>> (63 - n)
/-- The clipped length of a field word, and its position (R161). -/
def fieldPos (t : XWord) : Nat := t.toNat % 64
def fieldLen (t : XWord) : Nat := min (t.toNat / 256 % 128) (64 - fieldPos t)
def bfxS (s t : XWord) : XWord :=
  if fieldLen t = 0 then 0 else sextAt (s >>> fieldPos t) (fieldLen t - 1)
def bfxN (s t : XWord) : XWord :=
  if fieldLen t = 0 then 0 else zextAt (s >>> fieldPos t) (fieldLen t - 1)
def bfiX (d s t : XWord) : XWord :=
  if fieldLen t = 0 then d
  else
    let mask := (BitVec.allOnes 64 >>> (64 - fieldLen t)) <<< fieldPos t
    (d &&& ~~~mask) ||| ((s <<< fieldPos t) &&& mask)

/-- A condition between two 64-bit words (R164). -/
def condX (c : Cond) (s u : XWord) : Bool :=
  match c with
  | .eq => s == u
  | .ne => s != u
  | .lt => s.toInt < u.toInt
  | .le => s.toInt ≤ u.toInt
  | .gt => u.toInt < s.toInt
  | .ge => u.toInt ≤ s.toInt
  | .ltn => s.toNat < u.toNat
  | .len => s.toNat ≤ u.toNat
  | .gtn => u.toNat < s.toNat
  | .gen => u.toNat ≤ s.toNat

end Sys2Proof
end

