-- ==== Sys2Proof/Config.lean ====
section
/-! DEFINITION. What an implementation fixes, and the free values the spec leaves open (log entries 7, 9, 11). -/

namespace Sys2Proof.Config

/-- A fresh free value: nothing constrains it (log entry 7). -/
opaque freeValue : Nat → BitVec 64
/-- ML-DSA-65 verification of a signature over a digest under a public key; the standard lies outside the spec (R97, R469, log entry 9). -/
opaque mldsaVerify : (key digest signature : List Byte) → Bool
/-- The SHA3-384 digest of a byte string (R97, R469, log entry 9). -/
opaque sha3 : List Byte → List Byte
/-- The ECDSA P-384 signature with SHA-384 over a byte string under the device identity key (R472, log entry 9). -/
opaque ecdsaSign : (key message : List Byte) → List Byte

/-- Depth of each engine's queue per strand (R115): A 64, C 32, M 16, V0 32, V1 32, X 16, Q 32. -/
def depthA : Nat := 64
def depthC : Nat := 32
def depthM : Nat := 16
def depthV : Nat := 32
def depthX : Nat := 16
def depthQ : Nat := 32
/-- Entries of a core's landing buffer (R56). -/
def landingEntries : Nat := 64
/-- Bundles of a front end's dictionary store (R17). -/
def dictEntries : Nat := 8192
/-- Entries of the launch journal (R324). -/
def journalEntries : Nat := 8192
/-- Pending-fault entries of a context (R437). -/
def pendingFaults : Nat := 256
/-- Entries of a core's store-withholding buffer (R448). -/
def withholdEntries : Nat := 2048
/-- Lines of a home slice's twin store (R255). -/
def twinLines : Nat := 65536
/-- Lines a strand may hold checked out (R279). -/
def checkoutLimit : Nat := 64
/-- Primary slots of the Medlar map (R386). -/
def mapSlots : Nat := 4194304
/-- Overflow cells of the Medlar map; cell 0 does not exist (R386). -/
def mapCells : Nat := 1048576
/-- Bytes of device HBM (R239). -/
def hbmBytes : Nat := 768000000000
/-- Physical address of the pool window (R239). -/
def poolBase : Nat := 0x1000000000000
/-- Bytes of the pool window (R239). -/
def poolBytes : Nat := 0x400000000000
/-- Physical address of host memory (R239). -/
def hostBase : Nat := 0x2000000000000
/-- Bytes of host memory (R239). -/
def hostBytes : Nat := 0x1000000000000
/-- Physical address of the launch journal's first copy, in reserved device HBM (R333, log entry 92). -/
def journalBase : Nat := hbmBytes - 16777216
/-- Bytes of a journal entry (R332, log entry 92). -/
def journalStride : Nat := 512
/-- The second copy's offset from the first: 16 KiB and 128 times 32 KiB (R333, log entry 92). -/
def journalCopy : Nat := 16384 + 128 * 32768
/-- Physical address and records of the segment table, in reserved device HBM (R354, R464, log entry 92). -/
def segTableBase : Nat := hbmBytes - 4194304
def segTableEntries : Nat := 65536
/-- Physical addresses of the tables of the generation loop, in reserved device HBM (R378, log entry 94). -/
def tableBase : Nat := hbmBytes - 536870912
/-- The 64 Medlar context records of 32 bytes (R384). -/
def medBase : Nat := tableBase
/-- The 4,096 stream entries of 128 bytes (R395). -/
def strmBase : Nat := tableBase + 1048576
/-- The 65,536 prefix entries of 128 bytes (R392). -/
def pfxBase : Nat := tableBase + 8388608
/-- The overflow cells of 16 bytes (R386). -/
def cellBase : Nat := tableBase + 16777216
/-- The primary slots of 16 bytes (R386). -/
def mapBase : Nat := tableBase + 67108864
/-- The 2^22 block entries of 32 bytes (R385). -/
def blkBase : Nat := tableBase + 268435456
/-- Stride of save areas (R456). -/
def saveStride : Nat := 196608

end Sys2Proof.Config
end

