-- ==== Sys2Proof/Machine/Map.lean ====
section
/-! DEFINITION. Sparse data by key: maps and sets of numbers as sorted lists with no repeats. -/

namespace Sys2Proof.Machine

/-- A sparse map: keys strictly rising. -/
abbrev Map (α : Type) := List (Nat × α)

namespace Map

/-- The entry of a key. -/
def get? {α : Type} (m : Map α) (k : Nat) : Option α := (m.find? (fun e => e.1 == k)).map (·.2)

/-- The entry of a key, or a default. -/
def getD {α : Type} (m : Map α) (k : Nat) (d : α) : α := (m.get? k).getD d

/-- The map with the key's entry replaced. -/
def set {α : Type} (m : Map α) (k : Nat) (v : α) : Map α :=
  m.filter (fun e => e.1 < k) ++ (k, v) :: m.filter (fun e => k < e.1)

/-- The map without the key. -/
def erase {α : Type} (m : Map α) (k : Nat) : Map α := m.filter (fun e => e.1 != k)

/-- Keys strictly rising, as a Boolean. -/
def sorted {α : Type} : Map α → Bool
  | [] => true
  | [_] => true
  | a :: b :: m => decide (a.1 < b.1) && sorted (b :: m)

end Map

/-- A set of numbers, strictly rising. -/
abbrev NSet := List Nat

namespace NSet

def mem (s : NSet) (k : Nat) : Bool := s.any (· == k)
def add (s : NSet) (k : Nat) : NSet := s.filter (· < k) ++ k :: s.filter (k < ·)
def del (s : NSet) (k : Nat) : NSet := s.filter (· != k)
/-- Adds every number of a range. -/
def addRange (s : NSet) (lo n : Nat) : NSet :=
  s.filter (· < lo) ++ (List.range n).map (lo + ·) ++ s.filter (lo + n ≤ ·)
/-- Removes every number of a range. -/
def delRange (s : NSet) (lo n : Nat) : NSet := s.filter (fun k => k < lo || lo + n ≤ k)
/-- Whether every number of a range is in the set. -/
def allRange (s : NSet) (lo n : Nat) : Bool := (List.range n).all (fun i => s.mem (lo + i))
/-- Whether some number of a range is in the set. -/
def anyRange (s : NSet) (lo n : Nat) : Bool := s.any (fun k => lo ≤ k && k < lo + n)

end NSet

end Sys2Proof.Machine
end

