-- ==== Sys2Proof/Machine/Memory.lean ====
section
/-! DEFINITION. Memory as one canonical list of cells, and the addresses of the model's one space (log entry 4). -/

namespace Sys2Proof.Machine

/-- Memory: addresses strictly rising, no entry equal to what an unlisted address reads as. -/
abbrev Mem := List Host.Cell

namespace Mem

/-- What an unlisted address reads as: zero, the reset contents of the banks and of accumulator memory (R208, R241), and for device HBM, pool and host memory, whose reset contents the spec does not give, log entry 4. -/
def unlisted : Byte := 0

/-- One byte. -/
def read (m : Mem) (a : Nat) : Byte := ((m.find? (fun c => c.1 == a)).map (·.2)).getD unlisted

/-- The cells of bytes laid from an address up, without those that read as unlisted. -/
def cells (a : Nat) : List Byte → Mem
  | [] => []
  | b :: bs => if b = unlisted then cells (a + 1) bs else (a, b) :: cells (a + 1) bs

/-- Writes consecutive bytes, keeping the canonical form. -/
def write (m : Mem) (a : Nat) (bs : List Byte) : Mem :=
  m.filter (fun c => c.1 < a) ++ cells a bs ++ m.filter (fun c => a + bs.length ≤ c.1)

/-- Reads n consecutive bytes. -/
def readN (m : Mem) (a n : Nat) : List Byte := (List.range n).map (fun i => m.read (a + i))

/-- Reads n bytes of zero into the range. -/
def zero (m : Mem) (a n : Nat) : Mem := m.filter (fun c => c.1 < a || a + n ≤ c.1)

/-- Whether every cell is above the bound and the list is in canonical form. -/
def wfFrom (lo : Nat) : Mem → Bool
  | [] => true
  | c :: m => decide (lo ≤ c.1) && c.2 != unlisted && wfFrom (c.1 + 1) m

/-- The canonical form. -/
def wf (m : Mem) : Bool := wfFrom 0 m

end Mem

/-- Bytes as a little-endian number (R1). -/
def leNat : List Byte → Nat
  | [] => 0
  | b :: bs => b.toNat + 256 * leNat bs

/-- A number's n low bytes, little-endian (R1). -/
def leBytes : Nat → Nat → List Byte
  | 0, _ => []
  | n + 1, v => BitVec.ofNat 8 v :: leBytes n (v / 256)

/-- Where cluster banks stand in the model's one space: above every physical address (R239). -/
def bankBase : Nat := 2 ^ 52
/-- The address of a byte of a cluster's banks (R235, R236). -/
def bankAddr (cluster off : Nat) : Nat := bankBase + cluster * 8388608 + off
/-- Where accumulator memory stands in the model's one space. -/
def accBase : Nat := 2 ^ 53
/-- The address of element (m, n) of a tile of the core that column offset 0 belongs to. Each position of a ganged core holds 64 columns of all 32 tiles in its own accumulator memory: columns 64p to 64p + 63 lie at the position p beyond the driver (R27). -/
def accAddr (core tile m n : Nat) : Nat := accBase + (core + n / 64) * 524288 + ((tile * 64 + m) * 64 + n % 64) * 4

end Sys2Proof.Machine
end

