-- ==== Sys2Proof/Machine/State.lean ====
section
/-! DEFINITION. The state of the part: everything the spec names, as plain data, and the state right after cold reset (R4). -/

namespace Sys2Proof.Machine

/-! ### Registers of a strand -/

/-- The lanes of a v register of the widest core; a core of width g uses the first 128g (R180). -/
abbrev Lanes := Vector Word32 512

/-- A k entry: fp32 value and index (R227). -/
structure KEnt where
  val : Word32
  idx : Word32
  deriving DecidableEq, Repr

/-- The empty entry (R227). -/
def KEnt.empty : KEnt := ⟨0xFF800000, 0xFFFFFFFF⟩

/-- The front-end registers of a strand: what a slot latches at issue (R117, R148, R151). -/
structure FrontRegs where
  x : Vector XWord 64
  a : Vector AWord 16
  p : Vector Bool 16
  b : Vector Word32 8
  fstat : BitVec 5
  fmode : BitVec 2
  seqlen : BitVec 20
  occ : BitVec 13
  draft : BitVec 7
  scnt : BitVec 16
  bindsel : BitVec 7
  deriving DecidableEq, Repr

/-- The engine registers of a strand (R117, R148). -/
structure EngineRegs where
  v : Vector Lanes 32
  q : Vector LaneMask 8
  k : Vector KEnt 64
  qcnt : Nat
  deriving DecidableEq, Repr

/-- The pending bits (R117, R149); OCC and DRAFT share one, for BTSNAP writes both (R379). -/
structure PendBits where
  x : Vector Bool 64
  p : Vector Bool 16
  b : Vector Bool 8
  occ : Bool
  deriving DecidableEq, Repr

/-- A register under the group rule; s is a special register by its number (R83, R502). -/
inductive GReg where
  | x (n : Nat) | a (n : Nat) | p (n : Nat) | q (n : Nat) | v (n : Nat) | b (n : Nat) | k (n : Nat) | s (n : Nat)
  deriving DecidableEq, Repr

/-- An entry of the redirect queue (R172). -/
structure Redirect where
  due : Nat
  target : Word32
  deriving DecidableEq, Repr

/-- Where a landing writes (R55). -/
inductive Dest where
  | x (r : XReg)
  | v (r : VReg)
  deriving DecidableEq, Repr

/-- A landed value. -/
inductive Datum where
  | x (w : XWord)
  | v (l : Lanes)
  deriving DecidableEq, Repr

/-- An outstanding landing: its operation's number, destination, due count, L, datum once read, whether it has arrived, whether its load is an LDV.FE, its latency class, and whether it has been late (R54 to R57, R267, R427). -/
structure Landing where
  num : Nat
  dest : Dest
  due : Nat
  lat : Nat
  data : Option Datum
  arrived : Bool
  fe : Bool
  cls : Nat
  late : Bool
  deriving DecidableEq, Repr

/-- A landing write to a v register whose landing bundle has issued, waiting for the earlier operations that read or write the register (R118, R263). -/
structure VLand where
  num : Nat
  reg : VReg
  val : Lanes
  deriving DecidableEq, Repr

/-- Token states (R411). -/
inductive TokSt where
  | clear | armed | done | faulted
  deriving DecidableEq, Repr

structure Token where
  st : TokSt
  bytes : Word32
  deriving DecidableEq, Repr

/-- A sequencer level (R417). -/
structure Level where
  ctl : BitVec 64
  strides : Vector (BitVec 64) 8
  run : Bool
  brk : Bool
  iter : BitVec 20
  trip : BitVec 20
  first : Word32
  last : Word32
  deriving DecidableEq, Repr

/-- How far a queued operation has come; a load that is `sent` has left its queue, and its reads wait in the lists of their homes (R116, R118, R257, R438). -/
inductive Stage where
  | queued | walking | started | faulted | sent
  deriving DecidableEq, Repr

/-- An operation in an engine queue with its replay-buffer entry: its number, the count of its bundle, the latched front-end registers, the resolved guard, the engine registers as first read, its token as it stood before the operation armed it, how many of its acts have run, and the image bytes a tile operation has read (R115, R119, R121, R311, R380, R439). -/
structure QOp where
  num : Nat
  cnt : Nat
  eng : Engine
  slot : Nat
  bundle : Word32
  word : Nat
  instr : Instr
  latch : FrontRegs
  guard : Option Bool
  stage : Stage
  cap : Option EngineRegs
  tok : Option Token
  acts : Nat
  got : Option (List Byte)
  deriving DecidableEq, Repr

/-- A spill-map entry with the parked value (R249, R365). -/
structure Park where
  loc : Nat
  bstrand : Nat
  tile : Nat
  sub : Nat
  val : Lanes
  deriving DecidableEq, Repr

/-- A line a strand holds checked out: the pinned copy, its twin unless the check-out is exclusive, and whether the copy is poisoned (R246, R255). -/
structure Held where
  line : Nat
  pclass : Nat
  copy : List Byte
  twin : Option (List Byte)
  way : Nat
  bad : Bool := false
  deriving DecidableEq, Repr

/-- A write withheld in a protected segment, by its place in the model's space (R448). -/
structure Withheld where
  addr : Nat
  bytes : List Byte
  fe : Option Bool
  pclass : Nat
  num : Nat
  deriving DecidableEq, Repr

/-- Strand performance counters (R427). -/
structure Perf where
  issued : BitVec 64
  swout : BitVec 64
  froze : BitVec 64
  late : Vector (BitVec 64) 5
  shortl : BitVec 64
  deriving DecidableEq, Repr

/-- The counters of a push queue that the producer and the consumer hold (R259, R345). -/
structure PushQ where
  res : Word32
  tail : Word32
  headc : Word32
  head : Word32
  tailc : Word32
  deriving DecidableEq, Repr

/-- The checkpoint shadow registers of a protected segment (R447). -/
structure Shadow where
  front : FrontRegs
  q : Vector LaneMask 8
  k : Vector KEnt 64
  qcnt : Nat
  tokens : Vector Token 8
  levels : Vector Level 6
  redirects : List Redirect
  pushes : Map PushQ
  firstNum : Nat
  count : Nat
  deriving DecidableEq, Repr

/-- The life of a strand (R41, R63, R342, R352). -/
inductive Life where
  | free
  | placed
  | running
  | rendezvous
  | exiting
  | exited
  deriving DecidableEq, Repr

/-- What holds a strand at a bundle: a trap of R10 with its handle once recorded, the code and AUX. -/
structure TrapHold where
  code : Nat
  aux : Nat
  info : Nat
  slot : Nat
  deriving DecidableEq, Repr

/-- One strand (R38, R148); `rolling` is the SEG bundle whose failed check the strand's rollback waits to answer (R449). -/
structure Strand where
  front : FrontRegs
  eng : EngineRegs
  pend : PendBits
  life : Life
  launch : Nat
  gang : Word32
  member : Nat
  hc : Nat
  image : Nat
  pc : Word32
  count : Nat
  redirects : List Redirect
  landings : List Landing
  vland : List VLand
  tokens : Vector Token 8
  levels : Vector Level 6
  ops : List QOp
  opNum : Nat
  group : List GReg
  segStart : Word32
  segFresh : Bool
  segcnt : Word32
  segsig : Word32
  tb : Nat
  tn : Nat
  wbase : Nat
  wsize : Nat
  parks : Map Park
  held : List Held
  barWait : Option (Nat × Nat)
  marked : Option Bool
  dep : Option Word32
  trap : Option TrapHold
  holds : Nat
  skipNext : Bool
  rerun : Bool
  rolling : Option Word32
  shadow : Option Shadow
  withheld : List Withheld
  perf : Perf
  yielded : Bool
  schedNext : Nat
  schedOcArm : Option (List Nat)
  schedTok : Bool
  literal : Bool
  deriving DecidableEq, Repr

/-! ### Cores and clusters -/

/-- A window of a dictionary store: place, image and gang core, changed by DICTLD, last use, entries (R358 to R361). -/
structure Window where
  base : Nat
  size : Nat
  image : Nat
  gcore : Nat
  changed : Bool
  stamp : Nat
  entries : List (BitVec 384)
  deriving DecidableEq, Repr

/-- One core: a front-end position that issues; `freeze` says that a freeze of R57 holds (R17, R31, R343, R427). -/
structure Core where
  cur : Nat
  policy : Bool
  freeze : Bool
  halt : BitVec 2
  cycle : BitVec 64
  swcyc : BitVec 64
  frzcyc : BitVec 64
  bubcyc : BitVec 64
  idlecyc : BitVec 64
  windows : List Window
  busy : NSet
  deriving DecidableEq, Repr

/-- A mode change in progress (R244). -/
structure Change where
  mode : Nat
  owner : Option Nat
  strand : Option Nat
  num : Nat
  deriving DecidableEq, Repr

/-- A bank-mode entry with its FIFO counters and its lock count (R208, R241, R367). -/
structure Bank where
  mode : Nat
  owner : Option Nat
  chg : Option Change
  lock : Nat
  fhead : Nat
  ftail : Nat
  deriving DecidableEq, Repr

/-- A line in a cluster cache: bytes, dirty mask of an SW-FL line, class, way and last use, the context that filled it, and whether the copy is poisoned (R243, R246, R251). -/
structure CLine where
  data : List Byte
  dirty : BitVec 64
  pclass : Nat
  way : Nat
  stamp : Nat
  hc : Nat := 64
  bad : Bool := false
  deriving DecidableEq, Repr

/-- A leaf held by a TLB: context, 64 KiB page number, frame, class, writable, from a 1 GiB leaf (R375). -/
structure TlbEnt where
  hc : Nat
  vpage : Nat
  frame : Nat
  pclass : Nat
  w : Bool
  big : Bool
  deriving DecidableEq, Repr

/-- One cluster (R25, R31). -/
structure Cluster where
  width : Nat
  mark : Option Nat
  banks : Map Bank
  lines : Map CLine
  tlb : List TlbEnt
  seccnt : BitVec 64
  deriving DecidableEq, Repr

/-! ### Contexts -/

/-- A ring header (R325). -/
structure Ring where
  head : Word32
  tail : Word32
  logd : Nat
  base : AWord
  deriving DecidableEq, Repr

/-- A stream descriptor (R329), with the tail last read, a waiting write of MODE = 0, and the merged signal of tail writes the scheduler has not served (R330, R336). -/
structure StreamD where
  ringva : AWord
  tailva : AWord
  tmplva : AWord
  nextseq : BitVec 48
  head : Word32
  logd : Nat
  mode : BitVec 2
  lastTail : Word32
  stopping : Bool
  signal : Bool
  stalled : Bool := false
  deriving DecidableEq, Repr

/-- A fault record's fields (R436). -/
structure FaultRec where
  va : Nat
  info : Nat
  aux : Nat
  handle : Nat
  bundle : Nat
  seq : Nat
  stream : Nat
  hc : Nat
  member : Nat
  core : Nat
  strand : Nat
  slot : Nat
  cls : Nat
  code : Nat
  stamp : Nat
  fsect : Nat
  launch : Option Nat
  op : Option Nat
  copy : Option Nat
  deriving DecidableEq, Repr

/-- What a pending fault holds (R437, R443). -/
inductive FaultSubj where
  | op (core strand num : Nat)
  | trap (core strand : Nat)
  | copy (id : Nat)
  deriving DecidableEq, Repr

/-- A pending-fault entry (R437). -/
structure PendFault where
  entry : Nat
  handle : Nat
  code : Nat
  launch : Nat
  subj : FaultSubj
  deriving DecidableEq, Repr

/-- A Medlar context record (R384). -/
structure MedRec where
  arena : BitVec 64
  base : Nat
  count : Nat
  freehead : Nat
  nfree : Nat
  logtpb : Nat
  deriving DecidableEq, Repr

/-- The life of a context (R462 CONTROL.STATE). -/
inductive HcState where
  | free | live | killed
  deriving DecidableEq, Repr

/-- One hardware context: its context block, fault machinery and Medlar record; `resumes` are host resumes that wait for a halted core (R39, R460, R462). -/
structure Hctx where
  st : HcState
  pause : Bool
  tlbgrant : Bool
  rootpa : BitVec 64
  btva : BitVec 64
  saveva : BitVec 64
  saven : Nat
  trust : Word32
  preempt : Nat
  wdog : Nat
  rings : Vector Ring 6
  lost : Nat
  streams : Vector StreamD 4
  held : Nat
  acct : Vector (BitVec 64) 9
  pend : List PendFault
  serial : Nat
  waiting : List FaultRec
  resumes : List (BitVec 64)
  med : MedRec
  deriving DecidableEq, Repr

/-! ### Images and launches -/

/-- A segment record (R94). -/
structure SegRec where
  start : Word32
  endseg : Word32
  icount : Word32
  sign : Word32
  chk : Bool
  safe : Bool
  susp : Bool
  livex : BitVec 64
  livea : BitVec 16
  livep : BitVec 16
  liveq : BitVec 8
  liveb : BitVec 8
  livev : BitVec 32
  livek : BitVec 64
  deriving DecidableEq, Repr

/-- A scratchpad plan record (R95). -/
structure Spad where
  from_ : Nat
  to_ : Nat
  bank : Nat
  off : Nat
  size : Nat
  deriving DecidableEq, Repr

/-- A copy-schedule record (R291). -/
structure SchedEnt where
  soff : Nat
  doff : Nat
  sbase : Nat
  dbase : Nat
  len : Nat
  stage : Nat
  tok : Option TokReg
  oc : Bool
  port : BitVec 2
  addw : Bool
  deriving DecidableEq, Repr

/-- A gang core of an image (R93). -/
structure CoreImg where
  index : List (BitVec 16)
  dict : List (BitVec 384)
  spad : List Spad
  sched : List SchedEnt
  segs : List SegRec
  tn : Nat
  deriving DecidableEq, Repr

/-- A bucket record (R407). -/
structure Bucket where
  valid : Bool
  occl : Nat
  draftl : Nat
  entry : Word32
  deriving DecidableEq, Repr

/-- A push-queue descriptor (R370). -/
structure PushDesc where
  prod : Nat
  cons : Nat
  logd : Nat
  bank : Nat
  goff : Nat
  deriving DecidableEq, Repr

/-- A resident image with its tables (R91 to R96, R364, R370, R407). -/
structure Image where
  handle : Nat
  hc : Nat
  va : AWord
  width : Nat
  clgang : Bool
  depth : Nat
  starts : List Word32
  latency : List Nat
  cores : List CoreImg
  footprint : List (Bool × Nat)
  buckets : Option (List Bucket)
  push : List (Option PushDesc)
  data : Option Nat
  keySlot : Option Nat
  deriving DecidableEq, Repr

/-- A region entry of a launch record (R331). -/
structure Region where
  present : Bool
  write : Bool
  len : Nat
  base : AWord
  deriving DecidableEq, Repr

/-- States of a launch after acceptance (R41). -/
inductive LState where
  | waiting | ready | placing | running | suspended | complete
  deriving DecidableEq, Repr

/-- What a completion record reports (R327). -/
inductive LStatus where
  | done | replayedDone | failed (code : Nat) | lost
  deriving DecidableEq, Repr

/-! ### Home slices, copies and other work in flight -/

/-- What a home request does at its line: a strand's or an I/O-die agent's write, its poison with it; an atomic; a check-out; the changed bytes of a check-in and the dirty bytes of a line, with their poison; a read of n bytes, which fills the cluster's copy or does not; a pool device's snoop; the host's snoop; a write from outside the part; the turn of an act that runs on several lines at once (R13, R246, R256 to R258, R380, R461). -/
inductive HKind where
  | write (bytes : List Byte) (bad : Bool)
  | atom (op : AtomOp) (dbl : Bool) (src : BitVec 64)
  | cas (dbl : Bool) (old new : BitVec 64)
  | chkout
  | chkin (mask : BitVec 64) (data : List Byte) (bad : Bool)
  | flush (mask : BitVec 64) (data : List Byte) (bad : Bool)
  | read (n : Nat) (fill : Bool)
  | bisnp
  | snoop (inv : Bool)
  | outside (bytes : List Byte)
  | turn
  deriving DecidableEq, Repr

/-- A request at a line's home: address, class, requester, whether its old value is answered, kind; the launch it is of, the virtual address it names, whether a copy-schedule entry made it, its bundle with that bundle's count and its slot, and the strands with their launches that have read the value it writes (R13, R262, R277, R303, R315, R436). A requester from core 128 up is none of the strands: 128 an I/O-die agent, 129 a cluster cache, 130 a pool device, 131 the host. -/
structure HReq where
  addr : Nat
  pclass : Nat
  core : Nat
  strand : Nat
  hc : Nat
  num : Nat
  reply : Bool
  kind : HKind
  launch : Nat := 0
  va : Nat := 0
  entry : Bool := false
  bundle : Nat := 0
  cnt : Nat := 0
  slot : Nat := 15
  seen : List (Nat × Nat) := []
  deriving DecidableEq, Repr

/-- What a home answered to a read that had to wait: the requester and its operation, the address, the bytes and their poison (R257). -/
structure Reply where
  core : Nat
  strand : Nat
  num : Nat
  addr : Nat
  data : List Byte
  bad : Bool
  deriving DecidableEq, Repr

/-- The kinds of copy (R283 to R289). -/
inductive CopyKind where
  | plain
  | rows (rowlen rows sstr dstr : Nat)
  | gather (offs : List Nat)
  | fe
  deriving DecidableEq, Repr

/-- A copy in flight or stopped by a fault; `skipped` says that RESUME with SKIP has abandoned it, `data` holds the sectors or granules it has read ahead of their writes, piece by piece; `carry` what it has read of a granule or line that it will write whole, and `halves` the part of a bank granule it has written, each by copy offset and address with its poison (R245, R282 to R292, R310, R311, R441, R443). -/
structure Copy where
  id : Nat
  core : Nat
  strand : Nat
  hc : Nat
  launch : Nat
  num : Nat
  cnt : Nat
  tok : Option TokReg
  src : AWord
  dst : AWord
  len : Nat
  port : Nat
  addw : Bool
  kind : CopyKind
  slot : Nat
  word : Nat
  bundle : Word32
  next : Nat
  missing : List Nat
  bytes : Nat
  fl : BitVec 5
  faulted : Bool
  skipped : Bool
  data : Option (List (Nat × List (List Byte × Bool)))
  carry : List (Nat × Nat × List Byte × Bool) := []
  halves : List (Nat × Nat × Bool) := []
  deriving DecidableEq, Repr

/-- A GEMV in flight; n is 0 until its descriptor has been read, `out` its outputs formed with their flags, empty once they are written (R262, R311, R295 to R297, R443). -/
structure Gemv where
  id : Nat
  core : Nat
  strand : Nat
  hc : Nat
  launch : Nat
  num : Nat
  cnt : Nat
  tok : Option TokReg
  desc : AWord
  dst : AWord
  input : AWord
  wva : AWord
  sva : AWord
  n : Nat
  k : Nat
  word : Nat
  bundle : Word32
  faulted : Bool
  skipped : Bool
  out : Option (List Byte × BitVec 5)
  deriving DecidableEq, Repr

/-- A member of a gang: its place, whether it has exited, the word it suspended with, its continuation record, its sequencer, its next copy-schedule entry and its stopped copies and GEMVs as its suspension left them (R47, R63, R64, R292, R454). -/
structure Member where
  core : Nat
  strand : Nat
  exited : Bool
  dep : Option Word32
  record : List Byte
  levels : Vector Level 6
  schedNext : Nat
  copies : List Copy := []
  gemvs : List Gemv := []
  deriving DecidableEq, Repr

/-- A launch in the journal (R41, R331, R333). -/
structure Launch where
  id : Nat
  hc : Nat
  stream : Nat
  seq : BitVec 48
  cring : Nat
  cls : Nat
  width : Nat
  ncl : Nat
  single : Bool
  image : Nat
  csched : Bool
  regions : List Region
  starts : List Word32
  st : LState
  edges : List Nat
  gang : Word32
  members : List Member
  bars : Vector (Nat × Nat) 16
  pushes : Map PushQ
  areas : List Nat
  everSusp : Bool
  replays : Nat
  side : Bool
  status : Option LStatus
  waited : Bool
  notify : Bool
  thermal : Bool
  markAt : Option Nat
  hostVer : Bool
  wdog : Nat
  owed : Option Bool
  jslot : Nat
  deriving DecidableEq, Repr

/-- An MMA in flight: latched operands, both operand extents as read, locked banks as 128 × cluster + bank, the chunks added so far with their flags (R211, R214 to R216, R223, R320). -/
structure Mma where
  id : Nat
  core : Nat
  strand : Nat
  num : Nat
  tile : Nat
  width : Nat
  trans : Bool
  fmt : MFmt
  m : Nat
  n : Nat
  k : Nat
  opA : List Byte
  opB : List Byte
  banks : List Nat
  consumed : Bool
  chunk : Nat
  fl : BitVec 5
  deriving DecidableEq, Repr

/-- A push entry on its way to its consumer (R260). -/
structure PushEnt where
  id : Nat
  launch : Nat
  queue : Nat
  slot : Nat
  bytes : List Byte
  poison : Bool
  num : Nat
  core : Nat
  strand : Nat
  deriving DecidableEq, Repr

/-- A walk in progress and the operation or copy that started it (R375). -/
structure Walk where
  cluster : Nat
  hc : Nat
  vpage : Nat
  va : Nat
  core : Nat
  strand : Nat
  num : Nat
  deriving DecidableEq, Repr

/-! ### Tables of the generation loop -/

/-- Block states (R385). -/
inductive BlkSt where
  | free | live | retired
  deriving DecidableEq, Repr

/-- A Medlar block entry (R385). -/
structure Blk where
  seq : Word32
  lblk : Nat
  hc : Nat
  st : BlkSt
  ref : Nat
  fill : Nat
  pool : Bool
  frame : Nat
  next : Nat
  deriving DecidableEq, Repr

/-- A map key (R386). -/
structure MKey where
  hc : Nat
  seq : Nat
  lblk : Nat
  deriving DecidableEq, Repr

/-- A primary slot (R386). -/
structure MSlot where
  key : Option (MKey × Nat)
  ovh : Nat
  deriving DecidableEq, Repr

/-- An overflow cell (R386). -/
structure MCell where
  key : MKey
  blk : Nat
  next : Nat
  deriving DecidableEq, Repr

/-- A prefix entry (R392). -/
structure PfxEnt where
  hash : BitVec 64
  hc : Nat
  ntok : Nat
  blks : List Nat
  deriving DecidableEq, Repr

/-- A stream entry (R395). -/
structure StreamE where
  stva : AWord
  snva : AWord
  fva : AWord
  dva : AWord
  seq : Word32
  g : Word32
  p : Word32
  iend : Word32
  sbase : Word32
  fhead : Word32
  dtail : Word32
  pend : Word32
  prev : Word32
  epoch : BitVec 16
  snb : Nat
  flog : Nat
  dlog : Nat
  prevv : Bool
  held : Bool
  barge : Bool
  holdev : Bool
  hc : Nat
  valid : Bool
  deriving DecidableEq, Repr

/-! ### Platform -/

/-- A binding-table entry (R34). -/
structure BindEnt where
  bgen : BitVec 8
  wcode : BitVec 2
  role : BitVec 2
  driver : BitVec 7
  repaired : Bool
  halfhi : BitVec 7
  halflo : BitVec 7
  deriving DecidableEq, Repr

/-- A deck's health record (R356). -/
structure Health where
  halfok : BitVec 72
  feok : BitVec 32
  deriving DecidableEq, Repr

/-- A request to a deck's binder: a bring-up binding, a repair with the unit found failed, a rebind of a cluster (R357, R435). -/
inductive BindReq where
  | bringup
  | repair (u : HealthUnit)
  | rebind (cluster : Nat)
  deriving DecidableEq, Repr

/-- The rebind or repair a binder has begun: the final entries of the positions it has written UNBOUND, the cluster of a rebind, and a repair's clusters to reset with the index of its failed unit (R36, R453). -/
structure BindJob where
  ents : List (Nat × BindEnt)
  rebind : Option Nat
  resets : List Nat
  info : Nat
  deriving DecidableEq, Repr

/-- One deck: its record, the repair block's marks, wake tests still owed, the binder's requests and the job it has begun, gated halves (R36, R356, R357, R474). -/
structure Deck where
  health : Health
  repair : Health
  tests : List HealthUnit
  reqs : List BindReq
  job : Option BindJob
  gated : NSet
  deriving DecidableEq, Repr

/-- The lifetime record (R431). -/
structure Lifetime where
  powerhrs : Word32
  coldrst : Word32
  halfret : BitVec 8
  feret : BitVec 8
  sectot : BitVec 64
  unctot : Word32
  ctxkill : Word32
  temph : Vector Word32 16
  powh : Vector Word32 16
  deriving DecidableEq, Repr

/-- Thermal state and counters (R430, R476). -/
structure Thermal where
  level : Nat
  ttime : Vector (BitVec 64) 4
  tenter : Vector Word32 4
  thpre : Word32
  clock : Nat
  deriving DecidableEq, Repr

/-- BRINGUP (R473). -/
structure Bringup where
  fail : Bool
  cal : Bool
  nmt : Bool
  hbm : Bool
  decks : BitVec 4
  deriving DecidableEq, Repr

/-- A firmware image of on-package flash: version, contents, signature (R469). -/
structure FlashBlk where
  version : Word32
  body : List Byte
  sig : List Byte
  deriving DecidableEq, Repr

/-- A signed configuration block: its version, what it says, the bytes that say it, their signature (R470, log entry 5). -/
structure CfgBlk (α : Type) where
  version : Word32
  val : α
  body : List Byte
  sig : List Byte
  deriving DecidableEq, Repr

/-- What an identity block says: the serial number and the device identity key (R470). -/
structure Identity where
  serial : BitVec 64
  deviceKey : List Byte
  deriving DecidableEq, Repr

/-- What a limits block says: PLIMIT in watts and the thresholds T1 to T4 and critical in tenths of a degree (R470, R476, R477). -/
structure Limits where
  plimit : Nat
  thresholds : Vector Nat 5
  deriving DecidableEq, Repr

/-- Flash: the firmware chain, the vendor key, the blocks of each configuration kind, newest first or not, with the highest recorded versions, and what the blocks in use say (R469, R470, R476, R477). -/
structure Flash where
  romKeyDigest : List Byte
  vendorKey : List Byte
  firmware : List FlashBlk
  identities : List (CfgBlk Identity)
  repairs : List (CfgBlk (Vector Health 4))
  limits : List (CfgBlk Limits)
  highest : Vector Word32 3
  identity : Identity
  limit : Limits
  deriving DecidableEq, Repr

/-- One pool device: failed heads, the primary head, accepted extents, offered extents, release requests (R465, R466, R468). -/
structure PoolDev where
  failed : Vector Bool 2
  primary : Nat
  extents : List (Nat × Nat)
  offered : List (Nat × Nat)
  answered : List (Nat × Nat)
  deriving DecidableEq, Repr

/-- The command mailbox: the command, the doorbell and the result word (R463). -/
structure Mailbox where
  cmd : Vector Byte 64
  busy : Bool
  result : BitVec 64
  deriving DecidableEq, Repr

/-- States of a host line in the host-line agent (R240). -/
inductive Mesi where
  | m | s
  deriving DecidableEq, Repr

/-- A host line the agent holds (R240). -/
structure HostLine where
  st : Mesi
  data : List Byte
  deriving DecidableEq, Repr

/-- The platform: decks, flash, lifetime record, thermal state, bring-up, power, SPDM answer (17). -/
structure Plat where
  decks : Vector Deck 4
  flash : Flash
  life : Lifetime
  lifeStored : Lifetime
  thermal : Thermal
  bringup : Bringup
  poweredOff : Bool
  spdm : List Byte
  deriving DecidableEq, Repr

/-! ### The model's own fields -/

/-- How the operation being performed went. -/
inductive Res where
  | done
  | waiting
  | faulted
  | stopped
  deriving DecidableEq, Repr

/-- The operation being performed: its strand, its slot with the slot's word, its bundle and number, its latched operands, whether its issue checks have been passed, whether its home requests wait for HOME_REQUEST_RUN, how it ends, and whether its bundle is a SEG bundle (log entry 3). -/
structure Ctx where
  core : Nat
  strand : Nat
  slot : Nat
  word : Nat
  bundle : Word32
  num : Nat
  latch : Option FrontRegs
  cap : Option EngineRegs
  admitted : Bool
  guarded : Bool
  defer : Bool
  res : Res
  seg : Bool := false
  deriving DecidableEq, Repr

/-- The whole part. -/
structure State where
  strands : Map Strand
  cores : Map Core
  clusters : Map Cluster
  ctxs : Map Hctx
  mem : Mem
  full : NSet
  poison : NSet
  linePoison : NSet
  agent : Map HostLine
  busyLines : NSet
  home : List HReq
  replies : List Reply
  launches : List Launch
  images : List Image
  copies : List Copy
  gemvs : List Gemv
  mmas : List Mma
  pushes : List PushEnt
  walks : List Walk
  blks : Map Blk
  slots : Map MSlot
  cells : Map MCell
  pfx : Map PfxEnt
  streams : Map StreamE
  binding : Map BindEnt
  pool : Map PoolDev
  mbox : Mailbox
  keys : Map (List Byte)
  reserved : NSet
  retired : NSet
  plat : Plat
  ctx : Ctx
  schedule : List Instr
  nextCore : Nat
  fresh : Nat
  nextId : Nat
  nextGang : Nat
  deriving DecidableEq, Repr

/-- Why the machine stops with a fault. -/
inductive Fault where
  /-- Raised by a step after the critical shutdown has removed power from the package (R477): nothing runs. Safe. -/
  | poweredOff
  deriving DecidableEq, Repr

/-- Why an instruction is refused. -/
inductive Refusal where
  /-- Raised by the arm of an instruction that has no meaning yet. Safe. -/
  | notModelled (mnemonic : String)
  deriving DecidableEq, Repr

/-! ### Reset (R4, R150) -/

def FrontRegs.reset (core : Nat) : FrontRegs :=
  { x := Vector.replicate 64 0, a := Vector.replicate 16 0
    p := (Vector.replicate 16 false).set 0 true, b := Vector.replicate 8 0
    fstat := 0, fmode := 0, seqlen := 0, occ := 0, draft := 0, scnt := 0
    bindsel := BitVec.ofNat 7 core }

def EngineRegs.reset : EngineRegs :=
  { v := Vector.replicate 32 (Vector.replicate 512 0)
    q := (Vector.replicate 8 0).set 0 (BitVec.allOnes 512)
    k := Vector.replicate 64 KEnt.empty, qcnt := 0 }

def PendBits.reset : PendBits :=
  { x := Vector.replicate 64 false, p := Vector.replicate 16 false, b := Vector.replicate 8 false, occ := false }

def Token.reset : Token := ⟨.clear, 0⟩

def Level.reset : Level :=
  { ctl := 0, strides := Vector.replicate 8 0, run := false, brk := false, iter := 0, trip := 0, first := 0, last := 0 }

def Perf.reset : Perf := ⟨0, 0, 0, Vector.replicate 5 0, 0⟩

/-- A strand after cold reset; `core` gives BINDSEL its reset value (R33, R150, R409). -/
def Strand.reset (core : Nat) : Strand :=
  { front := FrontRegs.reset core, eng := EngineRegs.reset, pend := PendBits.reset, life := .free
    launch := 0, gang := 0, member := 0, hc := 0, image := 0, pc := 0, count := 0, redirects := []
    landings := [], vland := [], tokens := Vector.replicate 8 Token.reset, levels := Vector.replicate 6 Level.reset
    ops := [], opNum := 0, group := [], segStart := 0, segFresh := true, segcnt := 0, segsig := 0xFFFFFFFF
    tb := 0, tn := 0, wbase := 0, wsize := 0, parks := [], held := [], barWait := none
    marked := none, dep := none, trap := none, holds := 0, skipNext := false, rerun := false, rolling := none
    shadow := none, withheld := []
    perf := Perf.reset, yielded := false, schedNext := 0, schedOcArm := none, schedTok := false, literal := false }

def Core.reset : Core :=
  { cur := 0, policy := false, freeze := false, halt := 0, cycle := 0, swcyc := 0, frzcyc := 0, bubcyc := 0, idlecyc := 0
    windows := [], busy := [] }

def Bank.reset : Bank := { mode := 0, owner := none, chg := none, lock := 0, fhead := 0, ftail := 0 }

def Cluster.reset : Cluster :=
  { width := 1, mark := none, banks := [], lines := [], tlb := [], seccnt := 0 }

def Ring.reset : Ring := ⟨0, 0, 0, 0⟩

def StreamD.reset : StreamD :=
  { ringva := 0, tailva := 0, tmplva := 0, nextseq := 0, head := 0, logd := 0, mode := 0, lastTail := 0, stopping := false, signal := false }

def MedRec.reset : MedRec := ⟨0, 0, 0, 0, 0, 0⟩

/-- A context's block with the Reset column of R462; `root` is the ROOTPA it keeps. -/
def Hctx.fresh (st : HcState) (root : BitVec 64) : Hctx :=
  { st := st, pause := false, tlbgrant := false, rootpa := root, btva := 0, saveva := 0, saven := 0, trust := 0
    preempt := 20, wdog := 1000, rings := Vector.replicate 6 Ring.reset, lost := 0
    streams := Vector.replicate 4 StreamD.reset, held := 0, acct := Vector.replicate 9 0
    pend := [], serial := 1, waiting := [], resumes := [], med := MedRec.reset }

/-- A context after cold reset: free. -/
def Hctx.reset : Hctx := Hctx.fresh .free 0

/-- A binding entry after cold reset: UNBOUND, its own driver (R34). -/
def BindEnt.reset (id : Nat) : BindEnt :=
  { bgen := 0, wcode := 0, role := 2, driver := BitVec.ofNat 7 id, repaired := false, halfhi := 0, halflo := 0 }

def PushQ.reset : PushQ := ⟨0, 0, 0, 0, 0⟩

def PoolDev.reset (d : Nat) : PoolDev :=
  { failed := Vector.replicate 2 false, primary := if d % 8 ≤ (d + 4) % 8 then 0 else 1
    extents := [], offered := [], answered := [] }

def Lifetime.reset : Lifetime :=
  ⟨0, 0, 0, 0, 0, 0, 0, Vector.replicate 16 0, Vector.replicate 16 0⟩

/-- Every half and front end, whose wake tests bring-up owes (R474). -/
def allUnits : List HealthUnit :=
  (List.finRange 72).map .half ++ (List.finRange 32).map .fe

/-- A deck right after cold reset, started from its repair marks (R356). -/
def Deck.start (r : Health) : Deck :=
  { health := r, repair := r, tests := allUnits, reqs := [.bringup], job := none, gated := [] }

/-- The repair configuration block's marks at the first reset: all healthy (log entry 5). -/
def Health.all : Health := ⟨BitVec.allOnes 72, BitVec.allOnes 32⟩

/-- A configuration block that nothing has written since manufacture (log entry 5). -/
def CfgBlk.shipped {α : Type} (v : α) : CfgBlk α := ⟨0, v, [], []⟩

/-- The identity of the first reset (log entry 5). -/
def Identity.reset : Identity := ⟨0, []⟩

/-- The shipped limits of R476 and R477. -/
def Limits.reset : Limits := ⟨2300, ⟨#[950, 1000, 1030, 1050, 1150], rfl⟩⟩

/-- Flash at the first reset (log entry 5). -/
def Flash.reset : Flash :=
  { romKeyDigest := [], vendorKey := [], firmware := [], identities := [CfgBlk.shipped Identity.reset]
    repairs := [CfgBlk.shipped (Vector.replicate 4 Health.all)], limits := [CfgBlk.shipped Limits.reset]
    highest := Vector.replicate 3 0, identity := Identity.reset, limit := Limits.reset }

def Thermal.reset : Thermal :=
  { level := 0, ttime := Vector.replicate 4 0, tenter := Vector.replicate 4 0, thpre := 0, clock := 12 }

def Bringup.reset : Bringup := ⟨false, false, false, false, 0⟩

def Mailbox.reset : Mailbox := ⟨Vector.replicate 64 0, false, 0⟩

/-- The platform right after a cold reset that finds this flash and these repair marks and keeps the lifetime record (R4, R356, R431). -/
def Plat.start (f : Flash) (r : Vector Health 4) (l stored : Lifetime) : Plat :=
  { decks := r.map Deck.start, flash := f, life := l, lifeStored := stored, thermal := Thermal.reset
    bringup := Bringup.reset, poweredOff := false, spdm := [] }

def Ctx.idle : Ctx :=
  { core := 0, strand := 0, slot := 15, word := 0, bundle := 0, num := 0, latch := none, cap := none, admitted := false
    guarded := false, defer := false, res := .done }

/-- The part right after cold reset over a given platform (R4): sparse tables list nothing, and an unlisted entry reads as its reset value. -/
def State.start (p : Plat) : State :=
  { strands := [], cores := [], clusters := [], ctxs := [], mem := [], full := [], poison := [], linePoison := []
    agent := [], busyLines := [], home := [], replies := [], launches := [], images := [], copies := [], gemvs := [], mmas := []
    pushes := [], walks := [], blks := [], slots := [], cells := [], pfx := [], streams := [], binding := []
    pool := [], mbox := Mailbox.reset, keys := [], reserved := [], retired := []
    plat := p, ctx := Ctx.idle, schedule := [], nextCore := 0, fresh := 0, nextId := 0, nextGang := 0 }

/-- The part right after cold reset (R4). -/
def State.reset : State :=
  State.start (Plat.start Flash.reset (Vector.replicate 4 Health.all) Lifetime.reset Lifetime.reset)

end Sys2Proof.Machine
end

