-- ==== Sys2Proof/Machine/Base.lean ====
section
/-! DEFINITION. The parts of the state and how they are reached: strands, cores, clusters, contexts, granule bits, lines and homes (spec 01, 09). -/

namespace Sys2Proof.Machine

/-- The strand key of strand n of a core. -/
def strandKey (core n : Nat) : Nat := core * 4 + n

namespace State

/-! ### Entries of the sparse tables -/

def strand (s : State) (k : Nat) : Strand := s.strands.getD k (Strand.reset (k / 4))
def setStrand (s : State) (k : Nat) (t : Strand) : State := { s with strands := s.strands.set k t }
def modStrand (s : State) (k : Nat) (f : Strand → Strand) : State := s.setStrand k (f (s.strand k))

def core (s : State) (c : Nat) : Core := s.cores.getD c Core.reset
def setCore (s : State) (c : Nat) (t : Core) : State := { s with cores := s.cores.set c t }
def modCore (s : State) (c : Nat) (f : Core → Core) : State := s.setCore c (f (s.core c))

def cluster (s : State) (c : Nat) : Cluster := s.clusters.getD c Cluster.reset
def setCluster (s : State) (c : Nat) (t : Cluster) : State := { s with clusters := s.clusters.set c t }
def modCluster (s : State) (c : Nat) (f : Cluster → Cluster) : State := s.setCluster c (f (s.cluster c))

def hctx (s : State) (h : Nat) : Hctx := s.ctxs.getD h Hctx.reset
def setHctx (s : State) (h : Nat) (t : Hctx) : State := { s with ctxs := s.ctxs.set h t }
def modHctx (s : State) (h : Nat) (f : Hctx → Hctx) : State := s.setHctx h (f (s.hctx h))

def bank (s : State) (cl b : Nat) : Bank := (s.cluster cl).banks.getD b Bank.reset
def setBank (s : State) (cl b : Nat) (t : Bank) : State :=
  s.modCluster cl (fun c => { c with banks := c.banks.set b t })
def modBank (s : State) (cl b : Nat) (f : Bank → Bank) : State := s.setBank cl b (f (s.bank cl b))

def bindEnt (s : State) (id : Nat) : BindEnt := s.binding.getD id (BindEnt.reset id)
def poolDev (s : State) (d : Nat) : PoolDev := s.pool.getD d (PoolDev.reset d)

/-- A deck of the part (R356). -/
def deck (s : State) (d : Nat) : Deck := s.plat.decks.toList.getD d (Deck.start Health.all)
def modDeck (s : State) (d : Nat) (f : Deck → Deck) : State :=
  { s with plat := { s.plat with decks := Vector.ofFn (fun i : Fin 4 => if i.val = d then f s.plat.decks[i] else s.plat.decks[i]) } }

def launch? (s : State) (id : Nat) : Option Launch := s.launches.find? (fun l => l.id == id)
def modLaunch (s : State) (id : Nat) (f : Launch → Launch) : State :=
  { s with launches := s.launches.map (fun l => if l.id = id then f l else l) }
def image? (s : State) (h : Nat) : Option Image := s.images.find? (fun i => i.handle == h)

/-! ### The strand being acted for -/

/-- The key of the strand whose operation is being performed. -/
def meKey (s : State) : Nat := strandKey s.ctx.core s.ctx.strand
def me (s : State) : Strand := s.strand s.meKey
def setMe (s : State) (t : Strand) : State := s.setStrand s.meKey t
def modMe (s : State) (f : Strand → Strand) : State := s.modStrand s.meKey f
def setRes (s : State) (r : Res) : State := { s with ctx := { s.ctx with res := r } }
/-- The state unchanged but for the note that the operation must wait. -/
def wait (s : State) : State := s.setRes .waiting

/-- The cluster of a core (R31). -/
def clusterOf (core : Nat) : Nat := core / 4
/-- The column of a core's driver in its cluster (R31). -/
def column (core : Nat) : Nat := core % 4
/-- The width g of a core: that of its cluster (R25). -/
def width (s : State) (core : Nat) : Nat := (s.cluster (clusterOf core)).width
/-- The width of the core being acted for. -/
def g (s : State) : Nat := s.width s.ctx.core
/-- The lanes of a v register of the core being acted for: 128g (R180). -/
def lanes (s : State) : Nat := 128 * s.g
/-- The context of the strand being acted for (R151 HCID). -/
def hcid (s : State) : Nat := s.me.hc
/-- The launch of a strand. -/
def launchOf (s : State) (k : Nat) : Option Launch := s.launch? (s.strand k).launch

/-- A fresh free value (log entry 7). -/
def freeVal (s : State) : BitVec 64 × State := (Config.freeValue s.fresh, { s with fresh := s.fresh + 1 })
/-- A fresh name (log entry 8). -/
def newId (s : State) : Nat × State := (s.nextId, { s with nextId := s.nextId + 1 })

/-! ### Granules of banks (R245) -/

/-- The granule of a bank address. -/
def gran (addr : Nat) : Nat := addr / 16
/-- The first granule of an extent and how many granules it touches. -/
def granSpan (addr n : Nat) : Nat × Nat := if n = 0 then (gran addr, 0) else (gran addr, gran (addr + n - 1) + 1 - gran addr)
def setFull (s : State) (addr n : Nat) (b : Bool) : State :=
  let (g, k) := granSpan addr n
  { s with full := if b then s.full.addRange g k else s.full.delRange g k }
def allFull (s : State) (addr n : Nat) : Bool :=
  let (g, k) := granSpan addr n
  s.full.allRange g k
def anyPoison (s : State) (addr n : Nat) : Bool :=
  let (g, k) := granSpan addr n
  s.poison.anyRange g k
/-- The granules wholly inside an extent. -/
def granInner (addr n : Nat) : Nat × Nat :=
  let lo := (addr + 15) / 16
  (lo, (addr + n) / 16 - lo)
/-- Poison after a write: set on every touched granule when the data is poisoned, else cleared on the granules written whole (R245). -/
def notePoison (s : State) (addr n : Nat) (src : Bool) : State :=
  if src then
    let (g, k) := granSpan addr n
    { s with poison := s.poison.addRange g k }
  else
    let (g, k) := granInner addr n
    { s with poison := s.poison.delRange g k }

/-- A plain write of bytes to bank space: bytes and poison (R245). -/
def bankWrite (s : State) (addr : Nat) (bs : List Byte) (src : Bool) : State :=
  { s with mem := s.mem.write addr bs }.notePoison addr bs.length src
/-- A write that sets full-empty bits as well (R245). -/
def bankWriteFe (s : State) (addr : Nat) (bs : List Byte) (src : Bool) : State :=
  (s.bankWrite addr bs src).setFull addr bs.length true

/-- Clears a range of bank space: bytes zero, every bit clear (R244, R248). -/
def bankClear (s : State) (addr n : Nat) : State :=
  let (g, k) := granSpan addr n
  { s with mem := s.mem.zero addr n, full := s.full.delRange g k, poison := s.poison.delRange g k }

/-- A bank returned to its cold-reset state (R241, R368). -/
def bankReset (s : State) (cl b : Nat) : State :=
  (s.bankClear (bankAddr cl (b * 65536)) 65536).setBank cl b Bank.reset

/-! ### Lines, homes and pool devices (R240, R465) -/

/-- The kinds of physical memory (R239). -/
inductive PKind where
  | hbm | pool | host | hole
  deriving DecidableEq, Repr

def pkind (pa : Nat) : PKind :=
  if pa < Config.hbmBytes then .hbm
  else if Config.poolBase ≤ pa ∧ pa < Config.poolBase + Config.poolBytes then .pool
  else if Config.hostBase ≤ pa ∧ pa < Config.hostBase + Config.hostBytes then .host
  else .hole

/-- The pool device of a pool address (R465). -/
def poolDevOf (pa : Nat) : Nat := (pa - Config.poolBase) / 2 ^ 42
/-- Whether both heads of the address's device have failed (R455). -/
def poolDead (s : State) (pa : Nat) : Bool :=
  pkind pa == .pool && (s.poolDev (poolDevOf pa)).failed.toList.all (fun b => b)

/-- The bytes of a range within one line, as its home holds them; a host line the host-line agent holds is read there (R240). -/
def homeRead (s : State) (pa n : Nat) : List Byte :=
  match s.agent.get? (pa / 64) with
  | some h => (List.range n).map (fun i => h.data.getD (pa % 64 + i) 0)
  | none => s.mem.readN pa n

/-- Whether a line is poisoned where it is homed (R246, R455, log entry 21). -/
def homePoison (s : State) (line : Nat) : Bool := s.linePoison.mem line || s.poolDead (line * 64)

/-- Bytes laid over a list at an offset. -/
def overlay (base : List Byte) (off : Nat) (bs : List Byte) : List Byte :=
  base.take off ++ bs ++ base.drop (off + bs.length)

/-- The host-line agent takes a host line in state M (R240, R490). -/
def agentTake (s : State) (line : Nat) (st : Mesi) : State :=
  if pkind (line * 64) == .host then
    let data := s.homeRead (line * 64) 64
    let st := match s.agent.get? line with
      | some h => if h.st == .m then .m else st
      | none => st
    { s with agent := s.agent.set line ⟨st, data⟩ }
  else s

/-- Bytes of one line laid down at its home; a host line is written in the host-line agent's copy, held in M. One write of all 64 bytes clears the line's poison, and poisoned data sets it (R246, R265). -/
def homeWrite (s : State) (pa : Nat) (bs : List Byte) (src : Bool) : State :=
  let line := pa / 64
  let s := s.agentTake line .m
  let s := match s.agent.get? line with
    | some h => { s with agent := s.agent.set line { h with data := overlay h.data (pa % 64) bs } }
    | none => { s with mem := s.mem.write pa bs }
  if src then { s with linePoison := s.linePoison.add line }
  else if bs.length = 64 then { s with linePoison := s.linePoison.del line } else s

/-! ### Translation (R371 to R375) -/

/-- A page-table walk from a table: levels left, table base, page number; the leaf, or nothing at the first entry that is not a usable one (R372, R374). -/
def walkFrom (m : Mem) : (level base va : Nat) → Option TlbEnt
  | 0, base, va =>
      let e := leNat (m.readN (base + va / 65536 % 16384 * 8) 8)
      if e.testBit 63 && e.testBit 62 then
        some ⟨0, va / 65536, e / 65536 % 2 ^ 36 * 65536, e / 2 ^ 60 % 4, e.testBit 59, false⟩
      else none
  | n + 1, base, va =>
      let e := leNat (m.readN (base + va / 65536 / 16384 ^ (n + 1) % 16384 * 8) 8)
      if !e.testBit 63 then none
      else if e.testBit 62 then
        (if n = 0 then some ⟨0, va / 65536, e / 2 ^ 30 % 2 ^ 22 * 2 ^ 30, e / 2 ^ 60 % 4, e.testBit 59, true⟩ else none)
      else walkFrom m n (e / 2 ^ 17 % 2 ^ 35 * 2 ^ 17) va

/-- The leaf that maps an address in a context; window addresses have none (R234, R374). -/
def walk (s : State) (h va : Nat) : Option TlbEnt :=
  if va / 2 ^ 56 = 0xFFFF then none
  else (walkFrom s.mem 3 ((s.hctx h).rootpa.toNat / 2 ^ 17 % 2 ^ 35 * 2 ^ 17) va).map (fun e => { e with hc := h })

/-- The physical address a leaf gives. -/
def leafPa (e : TlbEnt) (va : Nat) : Nat := e.frame + (if e.big then va % 2 ^ 30 else va % 65536)

/-- Whether a leaf covers an address. -/
def leafCovers (e : TlbEnt) (h va : Nat) : Bool :=
  e.hc == h && (if e.big then e.vpage / 16384 == va / 2 ^ 30 else e.vpage == va / 65536)

/-- An address as the I/O die's agents translate it: the leaf's place and class, by a walk of its own (R375). -/
def sysPa (s : State) (h va : Nat) (write : Bool) : Option (Nat × Nat) :=
  match s.walk h va with
  | some e => if write && (!e.w || e.pclass == 2) then none else some (leafPa e va, e.pclass)
  | none => none

/-- The pages an extent touches, each as address and length, `fuel` pages left. -/
def pageChunks : (fuel va n : Nat) → List (Nat × Nat)
  | 0, _, _ => []
  | fuel + 1, va, n =>
      if n = 0 then []
      else
        let k := min n (65536 - va % 65536)
        (va, k) :: pageChunks fuel (va + k) (n - k)

def pagesOf (va n : Nat) : List (Nat × Nat) := pageChunks (n / 65536 + 2) va n

/-- Whether a write of n bytes touches some bytes. -/
def touches (pa n at_ len : Nat) : Bool := decide (pa < at_ + len ∧ at_ < pa + n)

/-- The streams of a context as a write leaves them: its home signals a HOST stream whose tail word the write touches, and the scheduler's copy of a notify queue's TAIL line is invalidated (R330, R336). -/
def signalTails (s : State) (pa n : Nat) (h : Nat) (c : Hctx) : Hctx :=
  let hit (d : StreamD) : Bool :=
    if d.mode = 1 then (match s.sysPa h d.tailva.toNat false with | some p => touches pa n p.1 4 | none => false)
    else if d.mode = 3 then (match s.sysPa h d.ringva.toNat false with | some p => touches pa n p.1 64 | none => false)
    else false
  { c with streams := c.streams.map (fun d => if hit d then { d with signal := true } else d) }

/-- Whether a write touches the VER bytes of a row of a context's batch table (R404). -/
def touchesVer (s : State) (h pa n : Nat) : Bool :=
  (List.range (n + 7)).any (fun i => decide ((pa + i - 7) % 64 = 0 ∧ 7 ≤ pa + i) &&
    (pagesOf (s.hctx h).btva.toNat 262144).any (fun c => match s.sysPa h c.1 false with
      | some p => decide (p.1 ≤ pa + i - 7 ∧ pa + i - 7 < p.1 + c.2)
      | none => false))

/-- What the home of a line does for the scheduler when bytes of it have been written: it signals tail words and VER words (R330, R336, R351, R404). -/
def noteWrite (s : State) (pa n : Nat) : State :=
  { s with
    ctxs := s.ctxs.map (fun e => (e.1, s.signalTails pa n e.1 e.2))
    launches := s.launches.map (fun l => if l.st == .suspended && s.touchesVer l.hc pa n then { l with hostVer := true } else l) }

/-- A write of bytes within one line performed at its home (R246, R330, R404). -/
def homePut (s : State) (pa : Nat) (bs : List Byte) (src : Bool) : State := (s.homeWrite pa bs src).noteWrite pa bs.length

/-- The bytes of a line that a mask marks written at its home with their poison, as one write when it marks them all (R246, R256, R299). -/
def homeMerge (s : State) (line : Nat) (mask : BitVec 64) (data : List Byte) (bad : Bool) : State :=
  if mask = BitVec.allOnes 64 then s.homePut (line * 64) data bad
  else (List.range 64).foldl (fun s i =>
    if mask.getLsbD i then s.homePut (line * 64 + i) [data.getD i 0] bad else s) s

/-- The chunks of an extent by line: address and length, `fuel` lines left. -/
def lineChunks : (fuel pa n : Nat) → List (Nat × Nat)
  | 0, _, _ => []
  | fuel + 1, pa, n =>
      if n = 0 then []
      else
        let k := min n (64 - pa % 64)
        (pa, k) :: lineChunks fuel (pa + k) (n - k)

/-- The chunks of an extent of n bytes by line. -/
def chunksOf (pa n : Nat) : List (Nat × Nat) := lineChunks (n / 64 + 2) pa n

/-! ### Cluster caches (R243) -/

/-- The CACHE banks of a cluster, in ascending order. -/
def cacheBanks (s : State) (cl : Nat) : List Nat :=
  (List.range 128).filter (fun b => (s.bank cl b).mode == 1 && (s.bank cl b).chg.isNone)

def cline (s : State) (cl line : Nat) : Option CLine := (s.cluster cl).lines.get? line
def setLine (s : State) (cl line : Nat) (l : CLine) : State :=
  s.modCluster cl (fun c => { c with lines := c.lines.set line l })
def dropLine (s : State) (cl line : Nat) : State :=
  s.modCluster cl (fun c => { c with lines := c.lines.erase line })

/-- Whether a request that reaches a line's home now runs at once: the line is not busy and none waits there (R13, R257). -/
def homeFree (s : State) (line : Nat) : Bool := !s.busyLines.mem line && !s.home.any (fun r => r.addr / 64 == line)

/-- Whether a write of poisoned bytes to a line takes them off the part's own memory: to the pool or to the host (R247). -/
def leavesPart (line : Nat) (bad : Bool) : Bool := bad && pkind (line * 64) != .hbm

/-- The dirty bytes of a line sent to its home for a requester, as FLUSH sends them: written at once, or waiting in the line's list, where poison on its way to the pool is consumed (R13, R247, R299). -/
def sendDirty (s : State) (core strand num launch bundle : Nat) (line : Nat) (l : CLine) : State :=
  if l.dirty = 0 then s
  else if s.homeFree line && !leavesPart line l.bad then s.homeMerge line l.dirty l.data l.bad
  else { s with home := s.home ++
    [{ addr := line * 64, pclass := l.pclass, core := core, strand := strand, hc := l.hc, num := num, reply := false
       kind := .flush l.dirty l.data l.bad, launch := launch, bundle := bundle }] }

/-- A line leaves a cluster cache: an SW-FL line first sends its dirty bytes (R243, R252). -/
def evictLine (s : State) (cl line : Nat) : State :=
  match s.cline cl line with
  | some l => (s.sendDirty 129 cl 0 0 0 line l).dropLine cl line
  | none => s

/-- The strands of a cluster that hold a line checked out. -/
def clusterHolds (s : State) (cl line : Nat) : Bool :=
  (List.range 16).any (fun i => (s.strand (cl * 16 + i)).held.any (fun h => h.line == line))

/-- The ways of a cluster's set that pinned lines take. -/
def pinnedWays (s : State) (cl line : Nat) : List Nat :=
  (List.range 16).flatMap (fun i =>
    ((s.strand (cl * 16 + i)).held.filter (fun h => h.line % 1024 == line % 1024)).map (·.way))

/-- The least recently used of some lines. -/
def oldestLine : List (Nat × CLine) → Option (Nat × CLine)
  | [] => none
  | e :: es =>
      match oldestLine es with
      | none => some e
      | some b => if b.2.stamp < e.2.stamp then some b else some e

/-- Whether a request is a write of a strand's bytes to its line: a write-through, a check-in, a flush (R306). -/
def isWrite (r : HReq) : Bool := match r.kind with | .write _ _ | .chkin _ _ _ | .flush _ _ _ => true | _ => false

/-- Whether a request changes its line for a strand or a cluster cache: a write, or an atomic (R306, R309). -/
def changesLine (r : HReq) : Bool := isWrite r || (match r.kind with | .atom _ _ _ | .cas _ _ _ => true | _ => false)

/-- The cluster a request comes from: its strand's, or that of the cluster cache that sends its bytes (R31, R252). -/
def clusterFrom (r : HReq) : Nat := if r.core = 129 then r.strand else clusterOf r.core

/-- Whether the home has writes or atomics of the cluster to a line still waiting (R306, R309). -/
def pendingWrite (s : State) (cl line : Nat) : Bool :=
  s.home.any (fun r => r.addr / 64 == line && clusterFrom r == cl && changesLine r)

/-- A way for a line in its set: a free one, else that of the least recently used line, which leaves; a line stays while a write-through of its cluster to it waits at its home; none when every way is taken by such a line or a pinned one, or there is no CACHE bank (R243, R281, R306, log entry 18). -/
def takeWay (s : State) (cl line : Nat) : Option (Nat × State) :=
  let ways := (s.cacheBanks cl).filter (fun w => !(s.pinnedWays cl line).contains w)
  let here := (s.cluster cl).lines.filter (fun e => e.1 % 1024 == line % 1024)
  match ways.find? (fun w => !here.any (fun e => e.2.way == w)) with
  | some w => some (w, s)
  | none =>
      match oldestLine (here.filter (fun e => ways.contains e.2.way && !s.pendingWrite cl e.1)) with
      | some e => some (e.2.way, s.evictLine cl e.1)
      | none => none

/-- The use order of cached lines: one more than the latest of the cluster. -/
def nextStamp (s : State) (cl : Nat) : Nat :=
  ((s.cluster cl).lines.foldl (fun m e => max m e.2.stamp) 0) + 1

/-- A fill of a line into a cluster for a context, with the line's poison, when it has a way to hold it (R243, R246, log entry 18). -/
def fill (s : State) (h cl line pclass : Nat) : State :=
  match s.takeWay cl line with
  | none => s
  | some (w, s) =>
      let s := s.agentTake line .s
      s.setLine cl line ⟨s.homeRead (line * 64) 64, 0, pclass, w, s.nextStamp cl, h, s.homePoison line⟩

/-- Every cluster's clean copy of a line but one cluster's is dropped (R258, R306); pinned copies stay, and so does an SW-FL copy with dirty bytes. -/
def invalidateOthers (s : State) (cl line : Nat) : State :=
  (List.range 32).foldl (fun s c =>
    if c = cl ∨ ((s.cline c line).map (·.dirty)).getD 0 ≠ 0 then s else s.dropLine c line) s

/-- Whether a line is one whose copies are kept coherent: a COH-BI or host line (R306). -/
def coherent (line pclass : Nat) : Bool := pclass == 1 || pkind (line * 64) == .host

/-! ### Homes (R13, R257, R273) -/

/-- The n-byte result of an atomic operation on an old value and a source (R274). -/
def atomResult (op : AtomOp) (n : Nat) (old src : Nat) : Nat :=
  let m := 2 ^ (8 * n)
  let sg (v : Nat) : Int := if 2 * v < m then (v : Int) else (v : Int) - m
  match op with
  | .add => (old + src) % m
  | .and => old &&& src
  | .or => old ||| src
  | .xor => old ^^^ src
  | .min => if sg old ≤ sg src then old else src
  | .max => if sg old ≤ sg src then src else old
  | .minn => min old src
  | .maxn => max old src
  | .swap => src

/-- The bytes of an access: 8 for .D, 4 for .W (R274). -/
def dblBytes (dbl : Bool) : Nat := if dbl then 8 else 4

end State

end Sys2Proof.Machine
end

