-- ==== Sys2Proof/Machine/Ops.lean ====
section
/-! DEFINITION. The named operations every meaning is made of: registers, landings, translation walks, fault records, taking a trap and returning from it, ending a launch, killing a context, homes (spec 06, 09, 13, 16). -/

namespace Sys2Proof.Machine

namespace State

/-! ### Registers (R117, R121, R148) -/

/-- The front-end registers an operation reads: its latched copy, or the live ones (R117, R121). -/
def front (s : State) : FrontRegs := s.ctx.latch.getD s.me.front
/-- The engine registers an operation reads: as it first read them, or the live ones (R118, R121). -/
def eng (s : State) : EngineRegs := s.ctx.cap.getD s.me.eng

/-- x0 reads zero (R101). -/
def rdX (s : State) (r : XReg) : XWord := if r = 0 then 0 else s.front.x[r.val]
def rdA (s : State) (r : AReg) : AWord := s.front.a[r.val]
/-- p0 reads true (R101). -/
def rdP (s : State) (r : PReg) : Bool := if r = 0 then true else s.front.p[r.val]
def rdB (s : State) (r : BReg) : Word32 := s.front.b[r.val]
def rdV (s : State) (r : VReg) : Lanes := s.eng.v[r.val]
/-- q0 reads all-true (R181). -/
def rdQ (s : State) (r : QReg) : LaneMask := if r = 0 then BitVec.allOnes 512 else s.eng.q[r.val]
def rdK (s : State) (r : KReg) : KEnt := s.eng.k[r.val]

/-- An x register written and its pending bit cleared; a write to x0 is discarded (R101, R117). -/
def wrX (s : State) (r : XReg) (v : XWord) : State :=
  if r = 0 then s
  else s.modMe (fun t => { t with
    front := { t.front with x := t.front.x.set r.val v }, pend := { t.pend with x := t.pend.x.set r.val false } })
def wrA (s : State) (r : AReg) (v : AWord) : State :=
  s.modMe (fun t => { t with front := { t.front with a := t.front.a.set r.val v } })
/-- The guards of queued operations that wait for a predicate's pending bit take the value it now has (R119). -/
def takeGuards (n : Nat) (v : Bool) (ops : List QOp) : List QOp :=
  ops.map (fun o => match o.guard, o.instr.guard? with
    | none, some g => if g.p.val = n then { o with guard := some (v != g.neg) } else o
    | _, _ => o)
/-- A predicate written, its pending bit cleared and the guards that waited for it resolved; a write to p0 is discarded (R101, R119, R164). -/
def wrP (s : State) (r : PReg) (v : Bool) : State :=
  if r = 0 then s
  else s.modMe (fun t => { t with
    front := { t.front with p := t.front.p.set r.val v }, pend := { t.pend with p := t.pend.p.set r.val false }
    ops := if t.pend.p[r.val] then takeGuards r.val v t.ops else t.ops })
def wrB (s : State) (r : BReg) (v : Word32) : State :=
  s.modMe (fun t => { t with
    front := { t.front with b := t.front.b.set r.val v }, pend := { t.pend with b := t.pend.b.set r.val false } })
/-- The first n lanes of a register replaced where the mask is set; the other lanes keep their value (R185). -/
def mergeLanes (n : Nat) (m : LaneMask) (old : Lanes) (f : Nat → Word32) : Lanes :=
  Vector.ofFn (fun l : Fin 512 => if l.val < n && m.getLsbD l.val then f l.val else old[l.val])
/-- The active lanes of a v register written (R185). -/
def wrV (s : State) (r : VReg) (m : LaneMask) (f : Nat → Word32) : State :=
  let n := s.lanes
  s.modMe (fun t => { t with eng := { t.eng with v := t.eng.v.set r.val (mergeLanes n m t.eng.v[r.val] f) } })
/-- The first n bits of a mask replaced where the governing mask is set (R185). -/
def mergeMask (n : Nat) (m old : LaneMask) (f : Nat → Bool) : LaneMask :=
  BitVec.ofFnLE (fun l : Fin 512 => if l.val < n && m.getLsbD l.val then f l.val else old.getLsbD l.val)
/-- The active bits of a mask register written; a write to q0 is discarded (R181, R185). -/
def wrQ (s : State) (r : QReg) (m : LaneMask) (f : Nat → Bool) : State :=
  if r = 0 then s
  else
    let n := s.lanes
    s.modMe (fun t => { t with eng := { t.eng with q := t.eng.q.set r.val (mergeMask n m t.eng.q[r.val] f) } })
/-- Flags ORed into FSTAT (R8, R135, log entry 23). -/
def addFlags (s : State) (f : Fl) : State :=
  s.modMe (fun t => { t with front := { t.front with fstat := t.front.fstat ||| f } })
/-- The candidate file and its count written (R208). -/
def wrK (s : State) (k : Vector KEnt 64) (n : Nat) : State :=
  s.modMe (fun t => { t with eng := { t.eng with k := k, qcnt := n } })

/-- Whether a guard holds (R98). -/
def holds (s : State) (g : Guard) : Bool := s.rdP g.p != g.neg

/-! ### Landings (R54 to R59, R105, R117) -/

/-- The datum of the landing of operation `num`: filled in when the landing was reserved at issue, else a landing of its own that counts from the current bundle (R54, R56). -/
def land (s : State) (dest : Dest) (lat cls : Nat) (d : Datum) : State :=
  s.modMe (fun t =>
    if t.landings.any (fun l => l.num == s.ctx.num) then
      { t with landings := t.landings.map (fun l => if l.num = s.ctx.num then { l with data := some d, cls := cls } else l) }
    else { t with landings := t.landings ++ [⟨s.ctx.num, dest, t.count + lat, lat, some d, true, false, cls, false⟩] })

/-- A landing reserved for operation `num` when issue has not reserved it already (R56). -/
def reserveLanding (s : State) (dest : Dest) (lat cls : Nat) : State :=
  s.modMe (fun t =>
    if t.landings.any (fun l => l.num == s.ctx.num) then
      { t with landings := t.landings.map (fun l => if l.num = s.ctx.num then { l with cls := cls } else l) }
    else { t with landings := t.landings ++ [⟨s.ctx.num, dest, t.count + lat, lat, none, false, false, cls, false⟩] })

/-- The datum of a strand's landing, given by the home that ran its request (R274). -/
def landAt (s : State) (k num : Nat) (d : Datum) : State :=
  s.modStrand k (fun t => { t with
    landings := t.landings.map (fun l => if l.num = num then { l with data := some d } else l) })

/-! ### The agents of the I/O die at homes (R13, R257) -/

/-- The answer a home has given to a read that waited. -/
def replyTo (s : State) (core strand num : Nat) (c : Nat × Nat) : Option Reply :=
  s.replies.find? (fun r => r.core == core && r.strand == strand && r.num == num && r.addr == c.1 && r.data.length == c.2)

/-- Whether a requester's read of a chunk has still to wait: the line is not free and no answer has come. -/
def lineHeld (s : State) (core strand num : Nat) (c : Nat × Nat) : Bool :=
  !s.homeFree (c.1 / 64) && (s.replyTo core strand num c).isNone

/-- A read that must wait joins its line's list, once (R13, R257). -/
def askLine (r : HReq) (s : State) : State :=
  let same (q : HReq) : Bool := q.addr == r.addr && q.core == r.core && q.strand == r.strand && q.num == r.num && q.kind == r.kind
  if s.home.any same then s else { s with home := s.home ++ [r] }

/-- The bytes of a chunk as a requester reads them: its answer, or the home's (R257). -/
def chunkOf (s : State) (core strand num : Nat) (c : Nat × Nat) : List Byte :=
  match s.replyTo core strand num c with
  | some r => r.data
  | none => s.homeRead c.1 c.2

/-- The answers of a requester's operation used up. -/
def takeReplies (s : State) (core strand num : Nat) : State :=
  { s with replies := s.replies.filter (fun r => !(r.core == core && r.strand == strand && r.num == num)) }

/-- A request of an agent of the I/O die (R13). -/
def ioReq (addr pclass : Nat) (kind : HKind) : HReq :=
  { addr := addr, pclass := pclass, core := 128, strand := 0, hc := 64, num := 0, reply := false, kind := kind }

/-! ### Turns of acts that run on several lines at once (R13, R257, R380, log entry 94) -/

/-- What takes the turns of an act of the I/O die: the mailbox (1), the records of a context's fault queue (2), those of completion ring r of context h (3, with number 4h + r), the save-area work of a launch (4). -/
def ioTurn (kind n : Nat) : HReq := { ioReq 0 0 .turn with strand := kind, num := n }

/-- Whether a request is a turn of an owner. -/
def isTurn (o r : HReq) : Bool := r.kind == .turn && r.core == o.core && r.strand == o.strand && r.num == o.num

/-- Whether an owner's act may use a line now: the line is not busy, and no request of another waits there before its turn. -/
def lineMine (s : State) (o : HReq) (line : Nat) : Bool :=
  !s.busyLines.mem line && (match s.home.find? (fun r => r.addr / 64 == line) with
    | some r => isTurn o r
    | none => true)

/-- Whether an owner's act may use some lines now. -/
def linesMine (s : State) (o : HReq) (lines : List Nat) : Bool := lines.all (s.lineMine o)

/-- An owner's turns given up. -/
def dropTurns (o : HReq) (s : State) : State := { s with home := s.home.filter (fun r => !isTurn o r) }

/-- An owner's turn taken at the tail of a line's list, once. -/
def joinLine (o : HReq) (line : Nat) (s : State) : State :=
  if s.home.any (fun r => isTurn o r && r.addr / 64 == line) then s else { s with home := s.home ++ [{ o with addr := line * 64 }] }

/-- An owner's turns at some lines, in ascending order: it holds those whose turn has come, waits in the list of the next, and has given up any other, so that no two acts wait for each other (R13, R380). -/
def joinUpTo (o : HReq) : List Nat → State → State
  | [], s => s
  | l :: ls, s =>
      let s := joinLine o l s
      if s.lineMine o l then joinUpTo o ls s
      else { s with home := s.home.filter (fun r => !(isTurn o r && ls.contains (r.addr / 64))) }

/-- An owner's turns at some lines and at no others, taken in ascending order (R380). -/
def joinLines (o : HReq) (lines : List Nat) (s : State) : State :=
  let ls : NSet := lines.foldl NSet.add []
  joinUpTo o ls { s with home := s.home.filter (fun r => !(isTurn o r && !ls.contains (r.addr / 64))) }

/-- The lines where an owner's turn has come. -/
def turnLines (s : State) (o : HReq) : List Nat :=
  ((s.home.filter (isTurn o)).map (fun r => r.addr / 64)).filter (s.lineMine o)

/-- The state an act sees of lines that are its own: without the requests that wait behind it. -/
def openLines (lines : List Nat) (s : State) : State :=
  { s with home := s.home.filter (fun r => !lines.contains (r.addr / 64)), busyLines := s.busyLines.filter (fun l => !lines.contains l) }

/-- The requests at some lines put back in the lists after an act has seen the lines as its own. -/
def keepLines (lines : List Nat) (before after : State) : State :=
  { after with home := before.home.filter (fun r => lines.contains (r.addr / 64)) ++ after.home }

/-- The state after an act in its turn: the requests behind it wait on, and its turns are used up. -/
def closeLines (o : HReq) (lines : List Nat) (before after : State) : State := dropTurns o (keepLines lines before after)

/-- Whether an owner has turns, or requests wait at some lines that are its own. -/
def taken (s : State) (o : HReq) (lines : List Nat) : Bool := s.home.any (fun r => isTurn o r || lines.contains (r.addr / 64))

/-- The state that an owner's act sees of its lines. -/
def asMine (s : State) (o : HReq) (lines : List Nat) : State := if s.taken o lines then openLines lines s else s

/-- The lines of an owner's act kept until it is tried again. -/
def keepBack (o : HReq) (lines : List Nat) (before after : State) : State :=
  if before.taken o lines then keepLines lines before after else after

/-- The lines of an owner's act given back. -/
def giveBack (o : HReq) (lines : List Nat) (before after : State) : State :=
  if before.taken o lines then closeLines o lines before after else after

/-- An owner's turns given up without an act. -/
def giveUp (o : HReq) (s : State) : State := giveBack o [] s s

/-- An act run on some lines in its turn, or the turns taken that it waits for (R13, R257). -/
def inTurn (o : HReq) (lines : List Nat) (f : State → State) (s : State) : State :=
  if s.linesMine o lines then giveBack o lines s (f (s.asMine o lines)) else joinLines o lines s

/-- Bytes written at their homes by an agent of the I/O die, or waiting in the lists of lines that are not free; coherent copies are invalidated first (R13, R306). -/
def sysPut (s : State) (pa pclass : Nat) (bs : List Byte) : State :=
  (chunksOf pa bs.length).foldl (fun s c =>
    let part := (bs.drop (c.1 - pa)).take c.2
    if s.homeFree (c.1 / 64) then
      (if coherent (c.1 / 64) pclass then s.invalidateOthers 32 (c.1 / 64) else s).homePut c.1 part false
    else { s with home := s.home ++ [ioReq c.1 pclass (.write part false)] }) s

/-- Bytes read at their homes by an agent of the I/O die. -/
def sysGet (s : State) (pa n : Nat) : List Byte := (chunksOf pa n).flatMap (s.chunkOf 128 0 0)

/-- The chunks of an extent of a context's memory that the I/O die reads: those of the pages that translate. -/
def sysChunks (s : State) (h va n : Nat) : List ((Nat × Nat) × Nat) :=
  (pagesOf va n).flatMap (fun c => match s.sysPa h c.1 false with
    | some p => (chunksOf p.1 c.2).map (fun x => (x, p.2))
    | none => [])

/-- Whether a read of a context's memory by the I/O die has to wait at some home (R13). -/
def sysHeld (s : State) (h va n : Nat) : Bool := (s.sysChunks h va n).any (fun c => s.lineHeld 128 0 0 c.1)

/-- The reads of the I/O die that must wait join the lists of their lines (R13, R257). -/
def sysAsk (s : State) (h va n : Nat) : State :=
  (s.sysChunks h va n).foldl (fun s c =>
    if s.lineHeld 128 0 0 c.1 then askLine (ioReq c.1.1 c.2 (.read c.1.2 false)) s else s) s

/-- An act of the I/O die that reads some extents of contexts' memory: its reads wait at homes that are not free, and the act is tried again; otherwise it runs, and its answers are used up (R13, R257). -/
def whenRead (es : List (Nat × Nat × Nat)) (f : State → State) (s : State) : State :=
  if es.any (fun e => s.sysHeld e.1 e.2.1 e.2.2) then es.foldl (fun s e => s.sysAsk e.1 e.2.1 e.2.2) s
  else (f s).takeReplies 128 0 0

/-- Bytes of a context's memory as the I/O die reads them; nothing where a page does not translate. -/
def sysRead (s : State) (h va n : Nat) : Option (List Byte) :=
  ((pagesOf va n).mapM (fun c => (s.sysPa h c.1 false).map (fun p => s.sysGet p.1 c.2))).map List.flatten

/-- Bytes of a context's memory as the I/O die writes them. -/
def sysWrite (s : State) (h va : Nat) (bs : List Byte) : Option State :=
  match (pagesOf va bs.length).mapM (fun c => (s.sysPa h c.1 true).map (fun p => (p, c))) with
  | none => none
  | some ps => some (ps.foldl (fun s e => s.sysPut e.1.1 e.1.2 ((bs.drop (e.2.1 - va)).take e.2.2)) s)

/-! ### Rings (R325, R326) -/

/-- The next record written into a context's ring, when the ring has room and its slot translates (R326). Rings 0 to 3 are completion rings, 4 the event queue, 5 the fault queue. -/
def ringPut (s : State) (h : Nat) (r : Fin 6) (rec : List Byte) : Option State :=
  let g := (s.hctx h).rings[r]
  if g.logd = 0 then none
  else if 2 ^ g.logd ≤ (g.tail - g.head).toNat then none
  else
    match s.sysWrite h ((g.base.toNat + rec.length * (g.tail.toNat % 2 ^ g.logd)) % 2 ^ 72) rec with
    | none => none
    | some s => some (s.modHctx h (fun c => { c with rings := c.rings.set r { g with tail := g.tail + 1 } }))

/-- The lines of the next slot of a ring, where its pages translate and the ring has room (R13, R326). -/
def ringLines (s : State) (h : Nat) (r : Fin 6) (n : Nat) : List Nat :=
  let g := (s.hctx h).rings[r]
  if g.logd = 0 ∨ 2 ^ g.logd ≤ (g.tail - g.head).toNat then []
  else (pagesOf ((g.base.toNat + n * (g.tail.toNat % 2 ^ g.logd)) % 2 ^ 72) n).flatMap (fun c => match s.sysPa h c.1 true with
    | some p => (chunksOf p.1 c.2).map (fun x => x.1 / 64)
    | none => [])

/-- A record put into a ring in its turn at the lines of its slot: `put` where they are free, else the turns taken (R13, R326). -/
def ringTurn (s : State) (o : HReq) (h : Nat) (r : Fin 6) (n : Nat) (put : State → Option State) (wait : State → State) : State :=
  let lines := s.ringLines h r n
  if s.linesMine o lines then
    match put (s.asMine o lines) with
    | some t => giveBack o lines s t
    | none => wait (giveUp o s)
  else wait (joinLines o lines s)

/-! ### Fault records (R434 to R437) -/

/-- Fields packed from the top down, each a value and a width. -/
def packBits (fs : List (Nat × Nat)) : Nat := fs.foldl (fun acc f => acc * 2 ^ f.2 + f.1 % 2 ^ f.2) 0

/-- The 64 bytes of a fault record (R436). -/
def faultBytes (r : FaultRec) : List Byte :=
  leBytes 64 (packBits [(r.va, 72), (r.info, 64), (r.aux, 32), (r.handle, 32), (r.bundle, 32), (r.seq, 48), (r.stream, 2),
    (r.hc, 6), (r.member, 5), (r.core, 7), (r.strand, 2), (r.slot, 4), (r.cls, 3), (0, 3), (r.code, 8), (r.stamp, 64),
    (r.fsect, 32), (0, 96)])

/-- The lowest free pending-fault entry of a context (R437, log entry 55). -/
def freeEntry (c : Hctx) : Option Nat :=
  (List.range Config.pendingFaults).find? (fun e => !c.pend.any (fun p => p.entry == e))

/-- What a record's handle will stand for (R443). -/
def subjOf (r : FaultRec) : FaultSubj :=
  match r.copy, r.op with
  | some id, _ => .copy id
  | none, some n => .op r.core r.strand n
  | none, none => .trap r.core r.strand

/-- The next serial: 24 bits, never 0 (R437). -/
def nextSerial (n : Nat) : Nat := if (n + 1) % 2 ^ 24 = 0 then 1 else (n + 1) % 2 ^ 24

/-- A record written into its context's fault queue, with its handle and pending-fault entry for CLS 1 and 2; none while the queue is full or no entry is free (R326, R436, R437). -/
def writeFault (s : State) (h : Nat) (r : FaultRec) : Option State :=
  let c := s.hctx h
  if r.cls = 1 ∨ r.cls = 2 then
    match freeEntry c with
    | none => none
    | some e =>
        let r := { r with handle := c.serial * 256 + e }
        match s.ringPut h 5 (faultBytes r) with
        | none => none
        | some s => some (s.modHctx h (fun c => { c with
            serial := nextSerial c.serial
            pend := c.pend ++ [⟨e, r.handle, r.code, r.launch.getD 0, subjOf r⟩] }))
  else s.ringPut h 5 (faultBytes r)

/-- A record raised: written at once, or waiting behind the context's other waiting records; it takes its turn at the lines of its slot (R13, R437). -/
def raise (s : State) (h : Nat) (r : FaultRec) : State :=
  let later (s : State) : State := s.modHctx h (fun c => { c with waiting := c.waiting ++ [r] })
  if (s.hctx h).waiting.isEmpty then s.ringTurn (ioTurn 2 h) h 5 64 (fun s => s.writeFault h r) later else later s

/-- The class of a code, for the codes that have one class (R435). -/
def classOf (code : Nat) : Nat :=
  if code = 1 then 1
  else if code ≤ 8 then 2
  else if code ≤ 0x15 then 3
  else if code ≤ 0x19 then 0
  else if code ≤ 0x21 then 4 else 5

/-- A record about a launch, with the fields of its launch and strand (R436). -/
def recordOf (s : State) (k code : Nat) : FaultRec :=
  let t := s.strand k
  let l := s.launch? t.launch
  { va := 0, info := 0, aux := 0, handle := 0, bundle := t.pc.toNat
    seq := (l.map (fun l => l.seq.toNat)).getD 0, stream := (l.map (fun l => l.stream)).getD 0
    hc := t.hc, member := t.member, core := k / 4, strand := k % 4, slot := 15
    cls := classOf code, code := code, stamp := (s.core (k / 4)).cycle.toNat, fsect := 0
    launch := some t.launch, op := none, copy := none }

/-- A record about the operation being performed: its slot and bundle. -/
def myRecord (s : State) (code : Nat) : FaultRec :=
  { s.recordOf s.meKey code with slot := s.ctx.slot, bundle := s.ctx.bundle.toNat }

/-- Takes a precise trap on the strand being acted for: the strand leaves the selector with its bundle unissued, and the record is raised (R10, R434, R435). -/
def takeTrap (s : State) (code aux info : Nat) : State :=
  let r := { s.myRecord code with aux := aux, info := info, slot := s.ctx.slot }
  let s := s.modMe (fun t => { t with trap := some ⟨code, aux, info, s.ctx.slot⟩, holds := t.holds + 1 })
  (s.raise s.hcid r).setRes .stopped

/-- Holds the operation being performed on a translation or permission fault: the operation keeps its queue head, its strand is held, and the record is raised (R438). -/
def holdFault (s : State) (code va : Nat) : State :=
  let r := { s.myRecord code with va := va, op := some s.ctx.num }
  let s := s.modMe (fun t => { t with
    holds := t.holds + 1
    ops := t.ops.map (fun o => if o.num = s.ctx.num then { o with stage := .faulted } else o) })
  let s := dropTurns { ioReq 0 0 .turn with core := s.ctx.core, strand := s.ctx.strand, num := s.ctx.num } s
  (s.raise s.hcid r).setRes .faulted

/-- The return from a trap or a held fault: one hold of the strand ends, and it becomes eligible for the selector when no other holds it (R440, R443). -/
def releaseHold (s : State) (k : Nat) : State :=
  s.modStrand k (fun t => { t with holds := t.holds - 1 })

/-! ### Freeing strands (R352, R360, R445) -/

/-- A strand as it stands free: its registers, tokens, sequencer and counters keep what it left in them until the next launch or resumption replaces them (R150, R409); the model's operation numbers run on. -/
def freedStrand (k : Nat) (t : Strand) : Strand :=
  { Strand.reset (k / 4) with
    front := t.front, eng := t.eng, tokens := t.tokens, levels := t.levels, segcnt := t.segcnt, segsig := t.segsig, perf := t.perf
    opNum := t.opNum }

/-- Whether a strand is resident. -/
def resident (t : Strand) : Bool := t.life != .free

/-- The window of a strand about to be freed: dropped when DICTLD has changed it and no other resident strand uses it, kept otherwise (R360). -/
def releaseWindow (s : State) (k : Nat) : State :=
  let t := s.strand k
  let shared := (List.range 4).any (fun i =>
    strandKey (k / 4) i != k && resident (s.strand (strandKey (k / 4) i)) &&
      (s.strand (strandKey (k / 4) i)).wbase == t.wbase && (s.strand (strandKey (k / 4) i)).wsize != 0)
  if shared then s
  else s.modCore (k / 4) (fun c => { c with windows := c.windows.filter (fun w => !(w.base == t.wbase && w.changed)) })

/-- A strand's counters added into its context's accounting (R427, R429, log entry 37). -/
def account (s : State) (k : Nat) : State :=
  let t := s.strand k
  s.modHctx t.hc (fun c => { c with acct :=
    ((c.acct.set 5 (c.acct[5] + t.perf.issued)).set 6 (c.acct[6] + t.perf.swout)).set 7 (c.acct[7] + t.perf.froze) })

/-- The operands-consumed event of a bank: the copy-schedule entries that wait for it have one bank less to wait for (R213, R292). -/
def fireConsumed (s : State) (n : Nat) : State :=
  let f (e : Nat × Strand) : Nat × Strand := (e.1, { e.2 with schedOcArm := e.2.schedOcArm.map (fun l => l.filter (· != n)) })
  { s with strands := s.strands.map f }

/-- One lock of a bank lowered; its event fires when the count falls to zero (R211, R213). -/
def unlockBank (s : State) (cl b : Nat) : State :=
  let s := s.modBank cl b (fun k => { k with lock := k.lock - 1 })
  if (s.bank cl b).lock = 0 then s.fireConsumed (cl * 128 + b) else s

/-- The lock counts an unconsumed MMA holds, lowered (R211). -/
def unlock (s : State) (m : Mma) : State :=
  if m.consumed then s else m.banks.foldl (fun s b => s.unlockBank (b / 128) (b % 128)) s

/-- Everything a strand has in flight discarded: queued operations, landings, copies, matrix operations, pushes, walks (R445). -/
def discardWork (s : State) (k : Nat) : State :=
  let mine (c n : Nat) : Bool := strandKey c n == k
  let s := (s.mmas.filter (fun m => mine m.core m.strand)).foldl unlock s
  let busy := ((s.mmas.filter (fun m => mine m.core m.strand)).map (·.tile)) ++
    (List.range (s.strand k).tn).map ((s.strand k).tb + ·)
  let s := s.modCore (k / 4) (fun c => { c with busy := c.busy.filter (fun b => !busy.contains b) })
  let chg (b : Bank) : Bank := match b.chg with
    | some c => if c.strand = some k then { b with chg := none } else b
    | none => b
  let s := s.modCluster (k / 16) (fun c => { c with banks := c.banks.map (fun e => (e.1, chg e.2)) })
  { s with
    mmas := s.mmas.filter (fun m => !mine m.core m.strand)
    copies := s.copies.filter (fun c => !mine c.core c.strand)
    gemvs := s.gemvs.filter (fun c => !mine c.core c.strand)
    pushes := s.pushes.filter (fun c => !mine c.core c.strand)
    walks := s.walks.filter (fun c => !mine c.core c.strand)
    home := s.home.filter (fun r => !(mine r.core r.strand && (match r.kind with | .chkout | .read _ _ | .turn => true | _ => false)))
    replies := s.replies.filter (fun r => !mine r.core r.strand) }

/-- Whether some strand of a cluster is resident. -/
def clusterBusy (s : State) (cl : Nat) : Bool := (List.range 16).any (fun i => resident (s.strand (16 * cl + i)))

/-- A rebind asked of its deck's binder: a cluster marked for it has become empty (R29, R357). -/
def askRebind (s : State) (cl : Nat) : State :=
  if (s.cluster cl).mark.isNone || s.clusterBusy cl || (s.deck (cl / 8)).reqs.contains (.rebind cl) then s
  else s.modDeck (cl / 8) (fun d => { d with reqs := d.reqs ++ [.rebind cl] })

/-- A strand freed: its work is gone, its counters are accounted, its window is kept or dropped, and a cluster it leaves empty may be rebound. -/
def freeStrand (s : State) (k : Nat) : State :=
  let s := ((s.discardWork k).account k).releaseWindow k
  (s.modStrand k (freedStrand k)).askRebind (k / 16)

/-- The keys of the strands of a launch that are still resident. -/
def launchStrands (s : State) (id : Nat) : List Nat :=
  (s.strands.filter (fun e => resident e.2 && e.2.launch == id)).map (·.1)

/-- A launch reports a status; its completion record is written by LAUNCH_COMPLETE (R42, R43). -/
def setStatus (s : State) (id : Nat) (st : LStatus) : State :=
  s.modLaunch id (fun l => { l with status := some st })

/-! ### Context kill (R451, R452) -/

/-- The entries of a page table that are not zero: index and entry. -/
def tableEntries (m : Mem) (base : Nat) : List (Nat × Nat) :=
  let idx := ((m.filter (fun c => base ≤ c.1 && c.1 < base + 131072)).map (fun c => (c.1 - base) / 8)).eraseDups
  idx.map (fun i => (base + i * 8, leNat (m.readN (base + i * 8) 8)))

/-- The leaves reachable from a table: the address of each entry, its frame and its bytes (R372). -/
def leavesFrom (m : Mem) : (level base : Nat) → List (Nat × Nat × Nat)
  | 0, base => (tableEntries m base).filterMap (fun e =>
      if e.2.testBit 63 && e.2.testBit 62 then some (e.1, e.2 / 65536 % 2 ^ 36 * 65536, 65536) else none)
  | n + 1, base => (tableEntries m base).flatMap (fun e =>
      if !e.2.testBit 63 then []
      else if e.2.testBit 62 then [(e.1, e.2 / 2 ^ 30 % 2 ^ 22 * 2 ^ 30, 2 ^ 30)]
      else leavesFrom m n (e.2 / 2 ^ 17 % 2 ^ 35 * 2 ^ 17))

/-- Every leaf of a context. -/
def leaves (s : State) (h : Nat) : List (Nat × Nat × Nat) :=
  leavesFrom s.mem 3 ((s.hctx h).rootpa.toNat / 2 ^ 17 % 2 ^ 35 * 2 ^ 17)

/-- The device-HBM frames that hold a poisoned line. -/
def poisonedFrames (s : State) : List Nat :=
  ((s.linePoison.filter (fun l => pkind (l * 64) == .hbm)).map (· / 1024)).eraseDups

/-- V := 0 in a page-table entry. -/
def clearV (s : State) (at_ : Nat) : State :=
  { s with mem := s.mem.write (at_ + 7) [s.mem.read (at_ + 7) &&& 0x7F] }

/-- Frames of a killed context retired: leaves that name them lose V, the translation port refuses them from then on, and their Medlar blocks become RETIRED (R452 step 4). -/
def retireFrames (s : State) (h : Nat) : State :=
  let frames := s.poisonedFrames
  let hit (base n : Nat) : Bool := frames.any (fun f => base ≤ f * 65536 && f * 65536 < base + n)
  let s := (s.leaves h).foldl (fun s e => if hit e.2.1 e.2.2 then s.clearV e.1 else s) s
  let s := frames.foldl (fun s f => { s with retired := s.retired.add f }) s
  { s with
    blks := s.blks.map (fun e => if !e.2.pool && frames.contains (e.2.frame / 65536) then (e.1, { e.2 with st := .retired }) else e)
    clusters := s.clusters.map (fun e => (e.1, { e.2 with tlb := e.2.tlb.filter (fun t => t.hc != h) })) }

/-- A strand evicted with its check-outs discarded, and with its requests; those that an earlier gang of another context left stay (R452 step 2). -/
def evictStrand (s : State) (k : Nat) : State :=
  let h := (s.strand k).hc
  let s := (s.strand k).held.foldl (fun s h =>
    if h.twin.isNone then { s with busyLines := s.busyLines.del h.line } else s) s
  { s with home := s.home.filter (fun r => !(strandKey r.core r.strand == k && r.hc == h)) }.freeStrand k

/-- A context killed (R452): its gangs evicted, its launches LOST, its poisoned frames retired, its streams closed, one record written, for which no completion waits (R437). -/
def kill (s : State) (h : Nat) (r : FaultRec) : State :=
  let ks := (s.strands.filter (fun e => resident e.2 && e.2.hc == h)).map (·.1)
  let s := ks.foldl evictStrand s
  let lost (l : Launch) : Launch := if l.hc == h && l.st != .complete then { l with status := some .lost } else l
  let s := (s.launches.filter (fun l => l.hc == h)).foldl (fun s l => dropTurns (ioTurn 4 l.id) s) s
  let s := { s with
    launches := s.launches.map lost, copies := s.copies.filter (fun c => c.hc != h), gemvs := s.gemvs.filter (fun c => c.hc != h) }
  let s := s.retireFrames h
  let shut (e : Nat × StreamE) : Nat × StreamE := if e.2.hc = h then (e.1, { e.2 with valid := false, held := false }) else e
  let s := { s with streams := s.streams.map shut }
  let s := s.modHctx h (fun c => { c with st := .killed, held := 0, pend := [] })
  let life := s.plat.life
  let killed := if life.ctxkill = BitVec.allOnes 32 then life.ctxkill else life.ctxkill + 1
  let s := { s with plat := { s.plat with life := { life with ctxkill := killed } } }
  s.raise h { r with launch := none }

/-- Poison consumed by the operation being performed at an address: its context is killed (R247, R436, R451). -/
def consume (s : State) (va : Nat) : State := (s.kill s.hcid { s.myRecord 0x21 with va := va }).setRes .stopped

/-! ### Homes: requests and HomeSerialise (R13, R255 to R257, R273) -/

/-- Whether a line is homed on the slice of another. -/
def sameSlice (a b : Nat) : Bool := a * 64 / 4096 % 8 == b * 64 / 4096 % 8

/-- Twins in use at the home slice of a line: those of check-outs held and of check-ins not yet applied (R255, R256). -/
def twinsAt (s : State) (line : Nat) : Nat :=
  (s.strands.map (fun e => e.2.held.countP (fun h => h.twin.isSome && sameSlice h.line line))).sum +
  s.home.countP (fun r => sameSlice (r.addr / 64) line && (match r.kind with | .chkin _ _ _ => true | _ => false))

/-- A check-out granted: a twin, or the line held exclusively when the twin store is full (R255). -/
def grant (s : State) (k line pclass : Nat) : State :=
  let cl := k / 16
  if (s.strand k).held.any (fun h => h.line == line) then s
  else
    match s.takeWay cl line with
    | none => s
    | some (w, s) =>
        let bytes := s.homeRead (line * 64) 64
        let full := decide (Config.twinLines ≤ s.twinsAt line)
        let bad := s.homePoison line
        let s := s.dropLine cl line
        let s := s.modStrand k (fun t => { t with held := t.held ++ [⟨line, pclass, bytes, if full then none else some bytes, w, bad⟩] })
        if full then { s with busyLines := s.busyLines.add line } else s

/-- Whether a check-out has to wait for a way: every line that could give one up has a write-through of its cluster still waiting (R255, R306). -/
def wayWaits (s : State) (cl line : Nat) : Bool :=
  (s.takeWay cl line).isNone && (s.cacheBanks cl).any (fun w => !(s.pinnedWays cl line).contains w)

/-- The bytes in which a pinned copy differs from its twin; every byte of a line without one (R256). -/
def changedBytes (copy : List Byte) : Option (List Byte) → BitVec 64
  | none => BitVec.allOnes 64
  | some tw => (List.range 64).foldl (fun (m : BitVec 64) i => if copy.getD i 0 = tw.getD i 0 then m else m ||| (1#64 <<< i)) 0

/-- The strands that hold a line checked out, with what each holds. -/
def holders (s : State) (line : Nat) : List (Nat × Held) :=
  s.strands.flatMap (fun e => (e.2.held.filter (fun h => h.line == line)).map (fun h => (e.1, h)))

/-- The request by which a strand sends the bytes of a line it checks in (R256). -/
def chkinReq (s : State) (k : Nat) (h : Held) : HReq :=
  { addr := h.line * 64, pclass := h.pclass, core := k / 4, strand := k % 4, hc := (s.strand k).hc, num := 0, reply := false
    kind := .chkin (changedBytes h.copy h.twin) h.copy h.bad, launch := (s.strand k).launch, bundle := (s.strand k).pc.toNat }

/-- A forced check-in: it ends its check-out; poison on its way to the pool is consumed in a turn of its own (R247, R258). -/
def forceCheckin (line : Nat) (s : State) (e : Nat × Held) : State :=
  let r := s.chkinReq e.1 e.2
  let mask := changedBytes e.2.copy e.2.twin
  let s := s.modStrand e.1 (fun t => { t with held := t.held.filter (fun h => h.line != line) })
  if mask ≠ 0 ∧ leavesPart line e.2.bad then { s with home := s.home ++ [r] } else s.homeMerge line mask e.2.copy e.2.bad

/-- A pool device's snoop at its line: clean cluster copies go, check-outs are forced in, and the scheduler is signalled where the line held a notify queue's TAIL (R258, R336). -/
def snoopLine (s : State) (line : Nat) : State :=
  let s := (s.holders line).foldl (forceCheckin line) (s.invalidateOthers 32 line)
  { s with ctxs := s.ctxs.map (fun e => (e.1, s.signalTails (line * 64) 64 e.1 e.2)) }

/-- The host's snoop at its line: the agent writes modified data back; an invalidating snoop removes every cluster copy and then the agent's, any other leaves the agent in S (R240, R490). -/
def snoopAgent (s : State) (line : Nat) (inv : Bool) : State :=
  let s := match s.agent.get? line with
    | some a => if a.st == Mesi.m then { s with mem := s.mem.write (line * 64) a.data } else s
    | none => s
  if inv then { s.invalidateOthers 32 line with agent := s.agent.erase line }
  else match s.agent.get? line with
    | some a => { s with agent := s.agent.set line ⟨.s, a.data⟩ }
    | none => s

/-- A write from outside the part at its place: poison goes with a whole line, and the home signals the scheduler (R246, R330, R404, R461). -/
def outsideWrite (s : State) (pa : Nat) (bs : List Byte) : State :=
  let s := { s with mem := s.mem.write pa bs }
  let s := if bs.length = 64 then { s with linePoison := s.linePoison.del (pa / 64) } else s
  s.noteWrite pa bs.length

/-- A record about a request at a home: of the bundle and slot that made it, or of no strand (R436). -/
def requestRecord (s : State) (r : HReq) (code : Nat) : FaultRec :=
  let e := { s.recordOf (strandKey r.core r.strand) code with va := r.va, bundle := r.bundle, slot := r.slot, hc := r.hc }
  if r.core < 128 then e else { e with seq := 0, stream := 0, member := 0, core := 0, strand := 0, stamp := 0, launch := none }

/-- Poison consumed by a request at its home: an old value returned from a poisoned line, or poisoned bytes on their way to the pool (R247, R436, R451). -/
def poisonReply (s : State) (r : HReq) : State := if r.hc < 64 then s.kill r.hc (s.requestRecord r 0x21) else s

/-- Bytes of a line that a mask marks laid down at its home for a request; poisoned bytes on their way to the pool are consumed (R246, R247). -/
def mergeHome (s : State) (r : HReq) (mask : BitVec 64) (data : List Byte) (bad : Bool) : State :=
  if mask ≠ 0 ∧ leavesPart (r.addr / 64) bad then s.poisonReply r else s.homeMerge (r.addr / 64) mask data bad

/-- One request run at its line's home (R13, R257, R258, R273 to R276). -/
def runHome (s : State) (r : HReq) : State :=
  let line := r.addr / 64
  let writes := match r.kind with | .write _ _ | .atom _ _ _ | .cas _ _ _ | .chkin _ _ _ | .flush _ _ _ => true | _ => false
  let s := if coherent line r.pclass && writes then s.invalidateOthers (clusterOf r.core) line else s
  let k := strandKey r.core r.strand
  match r.kind with
  | .write bs bad => s.homePut r.addr bs bad
  | .atom op dbl src =>
      if r.reply && s.homePoison line then s.poisonReply r
      else
        let n := dblBytes dbl
        let old := leNat (s.homeRead r.addr n)
        let s := s.homePut r.addr (leBytes n (atomResult op n old (src.toNat % 2 ^ (8 * n)))) false
        if r.reply then s.landAt k r.num (.x (BitVec.ofNat 64 old)) else s
  | .cas dbl want new =>
      if s.homePoison line then s.poisonReply r
      else
        let n := dblBytes dbl
        let old := leNat (s.homeRead r.addr n)
        let s := s.agentTake line .m
        let s := if old = want.toNat % 2 ^ (8 * n) then s.homePut r.addr (leBytes n new.toNat) false else s
        if r.reply then s.landAt k r.num (.x (BitVec.ofNat 64 old)) else s
  | .chkout => s.grant k line r.pclass
  | .chkin mask data bad => s.mergeHome r mask data bad
  | .flush mask data bad => s.mergeHome r mask data bad
  | .read n fill =>
      let e : Reply := ⟨r.core, r.strand, r.num, r.addr, s.homeRead r.addr n, s.homePoison line⟩
      let s := if fill && !s.pendingWrite (clusterOf r.core) line then s.fill r.hc (clusterOf r.core) line r.pclass else s
      { s.agentTake line .s with replies := s.replies ++ [e] }
  | .bisnp => s.snoopLine line
  | .snoop inv => s.snoopAgent line inv
  | .outside bs => s.outsideWrite r.addr bs
  | .turn => s

/-- A request sent to its home: run at once, or waiting in the line's list while the line is busy, while earlier requests wait, or while the act leaves it to HOME_REQUEST_RUN (R13, log entry 1, log entry 52). -/
def sendHome (s : State) (r : HReq) : State :=
  if s.ctx.defer || !s.homeFree (r.addr / 64) || (r.kind == .chkout && s.wayWaits (clusterOf r.core) (r.addr / 64)) then
    { s with home := s.home ++ [r] }
  else s.runHome r

/-- The count of the bundle that issued the operation being performed. -/
def myCount (s : State) : Nat :=
  match s.me.ops.find? (fun o => o.num == s.ctx.num) with
  | some o => o.cnt
  | none => s.me.count

/-- A home request of the operation being performed, at an address of its own. -/
def myReq (s : State) (pa pclass va : Nat) (kind : HKind) : HReq :=
  { addr := pa, pclass := pclass, core := s.ctx.core, strand := s.ctx.strand, hc := s.hcid, num := s.ctx.num, reply := false
    kind := kind, launch := s.me.launch, va := va, entry := s.ctx.slot == 9, bundle := s.ctx.bundle.toNat, cnt := s.myCount
    slot := s.ctx.slot }

/-- What takes the turns of the operation being performed (R13, R380). -/
def myTurn (s : State) : HReq := s.myReq 0 0 0 .turn

/-- Whether an operation has taken turns at homes, which it uses whatever halts its core (R380, R460). -/
def hasTurn (s : State) (k num : Nat) : Bool := s.home.any (fun r => r.kind == .turn && strandKey r.core r.strand == k && r.num == num)

/-- The cluster's own copy of a line takes the bytes a check-in sends, with their poison, as it takes those of a store (R246, R253, R306, R309). -/
def updateCopy (s : State) (cl line : Nat) (mask : BitVec 64) (data : List Byte) (bad : Bool) : State :=
  match s.cline cl line with
  | some l => s.setLine cl line { l with
      data := (List.range 64).map (fun i => if mask.getLsbD i then data.getD i 0 else l.data.getD i 0)
      bad := bad || (l.bad && mask != BitVec.allOnes 64) }
  | none => s

/-- A held line checked in: a twin's changes go to the home as a request; an exclusive line is written whole and its busy bit cleared; poison on its way to the pool is consumed in a turn of its own (R247, R256). -/
def checkIn (s : State) (k : Nat) (h : Held) : State :=
  let mask := changedBytes h.copy h.twin
  let r := s.chkinReq k h
  let s := s.modStrand k (fun t => { t with held := t.held.filter (fun e => e.line != h.line) })
  let s := s.updateCopy (k / 16) h.line mask h.copy h.bad
  match h.twin with
  | none =>
      let s := if coherent h.line h.pclass then s.invalidateOthers (k / 16) h.line else s
      let s := { s with busyLines := s.busyLines.del h.line }
      if leavesPart h.line h.bad then { s with home := r :: s.home } else s.homeMerge h.line mask h.copy h.bad
  | some _ => if leavesPart h.line h.bad then { s with home := s.home ++ [r] } else s.sendHome r

/-- Every line a strand holds checked in (R256). -/
def checkInAll (s : State) (k : Nat) : State := (s.strand k).held.foldl (fun s h => s.checkIn k h) s

/-! ### Ending a launch (R445) -/

/-- The pending faults of a launch freed (R445 step 3). -/
def freeFaults (s : State) (h id : Nat) : State :=
  s.modHctx h (fun c => { c with pend := c.pend.filter (fun p => p.launch != id) })

/-- The stopped copies and GEMVs of a launch dropped, those kept with a suspended member among them (R445 step 2). -/
def dropCopies (s : State) (id : Nat) : State :=
  { s with copies := s.copies.filter (fun c => c.launch != id), gemvs := s.gemvs.filter (fun c => c.launch != id) }

/-- Steps 1 to 4 of R445 on every strand of a launch. -/
def stopLaunch (s : State) (id : Nat) : State :=
  let h := ((s.launch? id).map (·.hc)).getD 0
  dropTurns (ioTurn 4 id) ((((s.launchStrands id).foldl (fun s k => ((s.checkInAll k).freeStrand k)) s).dropCopies id).freeFaults h id)

/-- A launch ended by a launch-fatal fault: its record, then its work stopped and its status FAILED (R445). -/
def endLaunch (s : State) (id : Nat) (r : FaultRec) : State :=
  match s.launch? id with
  | none => s
  | some l => ((s.raise l.hc r).stopLaunch id).setStatus id (.failed r.code)

/-- A schedule violation of the operation being performed, blamed on its slot (R59, R435, log entry 80). -/
def violate (s : State) : State :=
  (s.endLaunch s.me.launch { s.myRecord 0x10 with info := s.ctx.word }).setRes .stopped
/-- A schedule violation with no slot to blame (R435). -/
def violateNoSlot (s : State) : State :=
  (s.endLaunch s.me.launch { s.myRecord 0x10 with slot := 15 }).setRes .stopped

/-- What an issue check stops a bundle with (R500). -/
inductive Stop where
  | trap (code aux : Nat)
  | soft (aux : Nat)
  | violation
  deriving DecidableEq, Repr

/-- The stop taken on the slot being checked (R10, R435, R445). -/
def stopAt (s : State) : Stop → State
  | .trap code aux => s.takeTrap code aux s.ctx.word
  | .soft aux => s.takeTrap 8 aux 0
  | .violation => s.violate

/-- The codes of the traps of R10 that slots raise at issue (R435). -/
def tIllegal : Stop := .trap 3 0
def tWindow : Stop := .trap 5 0
def tAlign : Stop := .trap 6 0

end State

end Sys2Proof.Machine
end

