-- ==== Sys2Proof/Machine/Operands.lean ====
section
/-! DEFINITION. The operand forms: immediates and offsets, the registers a form reads and writes, its landing and its memory extents (spec 03 R76, R83; 04 R103, R104; 06 R156; 10 R261, R262; 16 R502). -/

namespace Sys2Proof

/-- A signed immediate extended to 64 bits (R76, R156). -/
def Imm.s64 : Imm → XWord
  | .short i => i.signExtend 64
  | .long l => l.signExtend 64
/-- A natural immediate (R76, R156). -/
def Imm.n64 : Imm → XWord
  | .short i => i.setWidth 64
  | .long l => l.setWidth 64
/-- An immediate of an address operand, extended to 72 bits (R76, R177, R265). -/
def Imm.s72 : Imm → AWord
  | .short i => i.signExtend 72
  | .long l => l.signExtend 72
/-- A shift count (R156, R159). -/
def Imm.count (i : Imm) : Nat := i.n64.toNat % 64

/-- The byte offset of a landing form: zero in the short form (R104, R261). -/
def Land.off : Land → AWord
  | .short _ => 0
  | .long o _ => o.signExtend 72
/-- The landing distance L (R104). -/
def Land.dist : Land → Nat
  | .short l => l.toNat
  | .long _ l => l.toNat

/-- The bytes of an access size (R264). -/
def Size.bytes : Size → Nat
  | .b => 1
  | .h => 2
  | .w => 4
  | .d => 8

/-- The slot kind of an operation; an event has none. -/
def Instr.slotKind (i : Instr) : Option SlotKind := i.enc.map (·.1)

/-- The counter forms of slot Q, which execute at issue (R115, R410). -/
def Instr.isCounter : Instr → Bool
  | .stage _ _ | .tokclr _ _ | .bar _ _ | .lnscfg _ _ _ | .lnsrun _ _ | .lnsbrk _ | .seqlen _ _
  | .cntrd _ _ _ | .cntclr _ _ => true
  | _ => false

/-- The engine whose queue a slot's operation enters; none for those that execute at issue (R115). -/
def engineOf (slot : Nat) (i : Instr) : Option Engine :=
  if i.isCounter then none
  else match slot with
    | 2 => some .a
    | 3 => some .c
    | 4 => some .m
    | 5 => some .v0
    | 6 => some .v1
    | 7 => some .x
    | 8 => some .q
    | _ => none

/-- The depth of an engine's queue (R115). -/
def Engine.depth : Engine → Nat
  | .a => Config.depthA
  | .c => Config.depthC
  | .m => Config.depthM
  | .v0 | .v1 => Config.depthV
  | .x => Config.depthX
  | .q => Config.depthQ

/-- SEL reads its guard as an operand and always performs (R105, R162). -/
def Instr.always : Instr → Bool
  | .sel _ _ _ _ => true
  | _ => false

/-- The queue barriers (R120). -/
def Instr.isBarrier : Instr → Bool
  | .fenceAcq _ _ | .fenceRel _ _ | .fenceFull _ _ | .drain _ _ | .notify _ _ _ | .launch _ _ _ | .suspend _ _ | .exit _ => true
  | _ => false

/-- The destination and distance of a landing form (R54, R104). -/
def Instr.landing? : Instr → Option (Machine.Dest × Nat)
  | .ld _ _ d _ l | .ldN _ _ d _ l | .atom _ _ _ d _ l | .cas _ _ d _ l => some (.x d, l.dist)
  | .ldv _ d _ l | .ldvFeTake _ _ d _ l | .ldvFeKeep _ _ d _ l | .ldvg _ d _ l | .fill _ d l => some (.v d, l.dist)
  | _ => none

/-- The token a form of slot C names (R109, R282). -/
def Instr.token? : Instr → Option TokReg
  | .copy _ tk _ _ _ | .copys _ tk _ _ _ | .copyg _ tk _ _ _ | .copyfe _ tk _ _ _ | .gemv _ tk _ _ _ => tk
  | _ => none

/-- The tile of an M-slot operation, and whether it sets the tile's busy bit (R209, R217). -/
def Instr.tile? : Instr → Option (TReg × Bool)
  | .mma _ d _ _ _ _ _ _ | .mmat _ d _ _ _ _ _ _ | .accz _ d | .accret _ d _ _ | .accadd _ d _ _ _
  | .accld _ d _ | .accwr _ d _ _ => some (d, true)
  | .accst _ d _ | .accrd _ _ d _ => some (d, false)
  | _ => none

/-- The image bytes of a tile of an element type (R218). -/
def imageBytes (g : Nat) (ty : ETy) : Nat := 64 * 64 * g * ty.bits / 8

/-- Elements per byte pair: the bytes of one element times two, so that 4-bit formats count 1 (R215). -/
def MFmt.half : MFmt → Nat
  | .bf16 | .f16 => 4
  | .mxf4 | .i4 => 1
  | _ => 2
/-- Elements per chunk: 64 bytes of them (R136, R215). -/
def MFmt.chunk (f : MFmt) : Nat := 128 / f.half
def MFmt.isMx : MFmt → Bool
  | .mxi8 | .mxe4 | .mxe5 | .mxf4 => true
  | _ => false
/-- The chunks of K (R215). -/
def MFmt.chunks (f : MFmt) (k : Nat) : Nat := (k + f.chunk - 1) / f.chunk
/-- Operand A's extent in bytes; operand B's is g times it (R215). -/
def MFmt.extent (f : MFmt) (k : Nat) : Nat := f.chunks k * (if f.isMx then 4352 else 4096)

namespace Machine

/-! ### Registers read and written, in the order of R502 -/

/-- One register of a form: the register, whether it is read, whether it is written. -/
structure Ref where
  reg : GReg
  rd : Bool
  wr : Bool
  deriving DecidableEq, Repr

def rX (r : XReg) : Ref := ⟨.x r.val, true, false⟩
def wX (r : XReg) : Ref := ⟨.x r.val, false, true⟩
def rwX (r : XReg) : Ref := ⟨.x r.val, true, true⟩
def rA (r : AReg) : Ref := ⟨.a r.val, true, false⟩
def wA (r : AReg) : Ref := ⟨.a r.val, false, true⟩
def rP (r : PReg) : Ref := ⟨.p r.val, true, false⟩
def wP (r : PReg) : Ref := ⟨.p r.val, false, true⟩
def rB (r : BReg) : Ref := ⟨.b r.val, true, false⟩
def wB (r : BReg) : Ref := ⟨.b r.val, false, true⟩
def rV (r : VReg) : Ref := ⟨.v r.val, true, false⟩
def wV (r : VReg) : Ref := ⟨.v r.val, false, true⟩
def rwV (r : VReg) : Ref := ⟨.v r.val, true, true⟩
def rQ (r : QReg) : Ref := ⟨.q r.val, true, false⟩
def wQ (r : QReg) : Ref := ⟨.q r.val, false, true⟩
/-- The v register after one of an even pair. -/
def rV1 (r : VReg) : Ref := ⟨.v (r.val + 1), true, false⟩
def wV1 (r : VReg) : Ref := ⟨.v (r.val + 1), false, true⟩
def rwV1 (r : VReg) : Ref := ⟨.v (r.val + 1), true, true⟩
/-- Two implicit registers, the lower-numbered first (R502). -/
def lowFirst (m n : Nat) (a b : Ref) : List Ref := if n < m then [b, a] else [a, b]
/-- Every entry of the candidate file (R227). -/
def allK (rd wr : Bool) : List Ref := (List.range 64).map (fun n => ⟨.k n, rd, wr⟩)
/-- The read of FMODE of a form that rounds by it (R154). -/
def rFmode : Ref := ⟨.s 9, true, false⟩
/-- The read of FMODE of a V form whose rounding is FMODE (R154). -/
def rmRef (b : Bool) (rm : Rm) : List Ref := if b && rm == .fmode then [rFmode] else []
/-- p1 to p15 (R167). -/
def allP (rd wr : Bool) : List Ref := (List.range 15).map (fun n => ⟨.p (n + 1), rd, wr⟩)

/-- The register of a special register under the group rule: those that PUTS can write, SEQLEN as its GETS reads it, and BINDENT's GETS, which reads BINDSEL (R83, R179, R410, log entry 46). -/
def getsRefs : SReg → List Ref
  | .fstat => [⟨.s 8, true, false⟩]
  | .fmode => [rFmode]
  | .seqlen => [⟨.s 16, true, false⟩]
  | .bindsel | .bindent => [⟨.s 32, true, false⟩]
  | _ => []

/-- The registers of a form beside its guard, in the order of R502: D, S, T, U, MASK, then the rest; FMIN and FMAX, which round nothing, read no FMODE (R154, R169, log entry 100). -/
def bodyRefs : Instr → List Ref
  | .add _ d s t | .sub _ d s t | .mul _ d s t | .mulh _ d s t | .mulhn _ d s t | .div _ d s t | .divn _ d s t
  | .rem _ d s t | .remn _ d s t | .and _ d s t | .or _ d s t | .xor _ d s t | .andn _ d s t | .shl _ d s t
  | .shr _ d s t | .shra _ d s t | .rol _ d s t | .min _ d s t | .max _ d s t | .minn _ d s t | .maxn _ d s t
  | .bfx _ d s t | .bfxN _ d s t | .sel _ d s t | .fmin _ d s t | .fmax _ d s t => [wX d, rX s, rX t]
  | .addImm _ d s _ | .subImm _ d s _ | .mulImm _ d s _ | .mulhImm _ d s _ | .mulhnImm _ d s _ | .divImm _ d s _
  | .divnImm _ d s _ | .remImm _ d s _ | .remnImm _ d s _ | .andImm _ d s _ | .orImm _ d s _ | .xorImm _ d s _
  | .andnImm _ d s _ | .shlImm _ d s _ | .shrImm _ d s _ | .shraImm _ d s _ | .rolImm _ d s _ | .minImm _ d s _
  | .maxImm _ d s _ | .minnImm _ d s _ | .maxnImm _ d s _ | .sext _ d s _ | .zext _ d s _ => [wX d, rX s]
  | .clz _ d s | .ctz _ d s | .popc _ d s | .abs _ d s => [wX d, rX s]
  | .bfi _ d s t => [rwX d, rX s, rX t]
  | .li _ d _ => [wX d]
  | .fadd _ d s t | .fsub _ d s t | .fmul _ d s t => [wX d, rX s, rX t, rFmode]
  | .ffma _ d s t => [rwX d, rX s, rX t, rFmode]
  | .cvtf _ d s | .cvtfN _ d s | .cvti _ d s | .cvtiN _ d s => [wX d, rX s, rFmode]
  | .pand _ d s t | .por _ d s t | .pxor _ d s t | .pandn _ d s t => [wP d, rP s, rP t]
  | .pget _ d => wX d :: allP true false
  | .pset _ s => rX s :: allP false true
  | .ptb _ d _ => [wB d]
  | .ptbx _ d s => [wB d, rX s]
  | .br _ s => [rB s]
  | .brl _ d s => [wX d, rB s]
  | .trap _ _ => []
  | .aadd _ d s t => [wA d, rA s, rX t]
  | .aaddImm _ d s _ => [wA d, rA s]
  | .aset _ d s => [wA d, rX s]
  | .aget _ d s => [wX d, rA s]
  | .alea _ d s t => [wA d, rA s, rX t]
  | .cmp _ _ d s t | .fcmp _ _ d s t => [wP d, rX s, rX t]
  | .cmpImm _ _ d s _ => [wP d, rX s]
  | .gets _ d r => wX d :: getsRefs r
  | .puts _ s r => rX s :: (match r with
      | .fstat => [⟨.s 8, false, true⟩]
      | .fmode => [⟨.s 9, false, true⟩]
      | .bindsel => [⟨.s 32, false, true⟩]
      | _ => [])
  | .ld _ _ _ s _ | .ldN _ _ _ s _ => [rA s]
  | .st _ _ d s _ => [rX d, rA s]
  | .ldv _ _ s _ | .ldvFeTake _ _ _ s _ | .ldvFeKeep _ _ _ s _ => [rA s]
  | .stv _ d s _ | .stvFe _ d s _ => [rV d, rA s]
  | .ldvg _ d s _ => [rV d, rA s]
  | .stvs _ d s t => [rV d, rA s, rV t]
  | .setfe _ d s | .clrfe _ d s => [rX d, rA s]
  | .spill _ d => [rV d]
  | .fill _ _ _ => []
  | .pref _ s _ => [rA s]
  | .atom _ _ _ d s _ => [rX d, rA s]
  | .cas _ _ d s _ => [rX d, rA s, ⟨.x (d.val + 1), true, false⟩]
  | .red _ _ _ d s _ => [rX d, rA s]
  | .chkout _ d s => [rX d, rA s]
  | .chkin _ s => [rA s]
  | .copy _ _ d s n => [rA d, rA s] ++ (match n with | .reg t => [rX t] | .long _ _ _ => [])
  | .copys _ _ d s t | .copyfe _ _ d s t => [rA d, rA s, rX t]
  | .copyg _ _ d s t => [rA d, rA s, rV t]
  | .gemv _ _ d s t => [rA d, rA s, rA t]
  | .bankmode _ s => [rX s]
  | .flush _ d s | .inval _ d s => [rX d, rA s]
  | .mma _ _ s t xm xn xk _ | .mmat _ _ s t xm xn xk _ => [rA s, rA t, rX xm, rX xn, rX xk]
  | .accz _ _ => []
  | .accret _ _ s _ | .accadd _ _ s _ _ | .accld _ _ s | .accst _ _ s => [rA s]
  | .accrd _ d _ xm => [wV d, rX xm]
  | .accwr _ _ s xm => [rV s, rX xm]
  | .vadd _ d s t m ty rm | .vsub _ d s t m ty rm | .vmul _ d s t m ty rm =>
      [wV d, rV s, rV t, rQ m] ++ rmRef (!ty.arithInt) rm
  | .vfma _ d s t u m ty rm => [rwV d, rV s, rV t, rV u, rQ m] ++ rmRef (!ty.arithInt) rm
  | .vmin _ d s t m _ | .vmax _ d s t m _ => [wV d, rV s, rV t, rQ m]
  | .vabs _ d s m _ | .vneg _ d s m _ => [wV d, rV s, rQ m]
  | .vclamp _ d s t u m _ => [wV d, rV s, rV t, rV u, rQ m]
  | .vrcp _ d s m | .vrsq _ d s m | .vexp2 _ d s m | .vlog2 _ d s m | .vmov _ d s m => [wV d, rV s, rQ m]
  | .vand _ d s t m | .vor _ d s t m | .vxor _ d s t m | .vperm _ d s t m => [wV d, rV s, rV t, rQ m]
  | .vshl _ d s t m | .vshr _ d s t m | .vshra _ d s t m =>
      [wV d, rV s] ++ (match t with | .reg t => [rV t] | .imm _ => []) ++ [rQ m]
  | .vcmp _ _ d s t m _ => [wQ d, rV s, rV t, rQ m]
  | .vsel _ d s t u m => [wV d, rV s, rV t, rQ u, rQ m]
  | .vbcast _ d s m => wV d :: (match s with | .reg s => [rX s] | _ => []) ++ [rQ m]
  | .vslide _ d s t m | .vslideDn _ d s t m => [wV d, rV s, rX t, rQ m]
  | .vred _ op d s m ty rm | .vscan _ op d s m ty rm => [wV d, rV s, rQ m] ++ rmRef (op == .add && !ty.arithInt) rm
  | .vany _ d s m | .vall _ d s m => [wP d, rQ s, rQ m]
  | .vfirst _ d s m | .vpopc _ d s m => [wX d, rQ s, rQ m]
  | .viota _ d m => [wV d, rQ m]
  | .vextr _ d s t => [wX d, rV s, rX t]
  | .vins _ d s t => [rwV d, rX s, rX t]
  | .vcvt _ d s m _ _ rm _ => [wV d, rV s, rQ m] ++ rmRef true rm
  | .vqmx _ d s t _ rm _ => [wV d, rV s, wV t] ++ rmRef true rm
  | .vdqmx _ d s t m _ rm => [wV d, rV s, rV t, rQ m] ++ rmRef true rm
  | .vrand _ d s t m _ adv =>
      (if adv then [wV d, rwV s, rV t, rQ m] else [wV d, rV s, rV t, rQ m]) ++
        lowFirst s.val t.val (if adv then rwV1 s else rV1 s) (rV1 t)
  | .qand _ d s t m | .qor _ d s t m | .qxor _ d s t m => [wQ d, rQ s, rQ t, rQ m]
  | .qnot _ d s m => [wQ d, rQ s, rQ m]
  | .sortb _ _ d s t => [wV d, rV s, rV t, wV1 d]
  | .merge _ _ d s => [rwV d, rV s] ++ lowFirst d.val s.val (rwV1 d) (rV1 s)
  | .cmrg _ s t => [rV s, rV t] ++ allK true true
  | .cget _ _ d k => [wX d, ⟨.k k.val, true, false⟩]
  | .cclr _ => allK false true
  | .ctopp _ d s | .cdraw _ d s => [wX d, rX s] ++ allK true false
  | .fenceAcq _ _ | .fenceRel _ _ | .fenceFull _ _ | .drain _ _ => []
  | .push _ d s t => [rX d, rA s, rX t]
  | .pop _ d s | .qstat _ d s => [wX d, rX s]
  | .notify _ s t => [rA s, rX t]
  | .launch _ d s => [wX d, rA s]
  | .suspend _ s => [rX s]
  | .exit _ => []
  | .evpost _ s t => [rX s, rX t]
  | .dictld _ d s t => [wX d, rA s, rX t]
  | .tlbinvPage _ s => [rA s]
  | .tlbinvHc _ s => [rX s]
  | .tlbinvAll _ => []
  | .kvlook _ d s t | .kvapp _ d s t | .kvfork _ d s t | .kvtrunc _ d s t | .pfxfind _ d s t | .pfxins _ d s t
  | .strunc _ d s t | .scommit _ d s t => [wX d, rX s, rX t]
  | .kvfree _ s t => [rX s, rX t]
  | .sframe _ d s t => [wX d, rA s, rX t]
  | .btsnap _ s t => [rA s, rX t]
  | .obsel _ d => [wB d]
  | .stage _ s => [rX s, ⟨.s 19, false, true⟩]
  | .tokclr _ s | .bar _ s | .lnsrun _ s | .cntclr _ s => [rX s]
  | .lnscfg _ s t => [rX s, rX t]
  | .lnsbrk _ => []
  | .seqlen _ s => [rX s, ⟨.s 16, false, true⟩]
  | .cntrd _ d s => [wX d, rX s]
  | .resume _ s => [rX s]
  | .fqpop _ d s => [wX d, rA s]
  | _ => []

/-- Whether a register is under the group rule: x0, p0 and q0 are not (R83). -/
def GReg.ruled : GReg → Bool
  | .x 0 | .p 0 | .q 0 => false
  | _ => true

/-- The registers of a form, its guard first (R83, R502). -/
def refs (i : Instr) : List Ref :=
  ((match i.guard? with | some g => [rP g.p] | none => []) ++ bodyRefs i).filter (fun r => r.reg.ruled)

/-- Whether a register lies in the engines: v, q, k (R117). -/
def GReg.engine : GReg → Bool
  | .v _ | .q _ | .k _ => true
  | _ => false

/-- Whether the form reads OCC and DRAFT, whose pending bit BTSNAP holds (R151, R379). -/
def readsOcc : Instr → Bool
  | .gets _ _ .occ | .gets _ _ .draft | .obsel _ _ => true
  | _ => false

/-! ### Effective addresses and memory extents (R261, R262) -/

/-- An extent: first address, bytes, whether it is written. -/
structure Extent where
  va : Nat
  len : Nat
  wr : Bool
  deriving DecidableEq, Repr

def Extent.meets (a b : Extent) : Bool :=
  decide (a.len ≠ 0 ∧ b.len ≠ 0 ∧ a.va < b.va + b.len ∧ b.va < a.va + a.len)

/-- EA := (aS + off) mod 2^72 (R261). -/
def State.ea (s : State) (r : AReg) (off : AWord) : Nat := (s.rdA r + off).toNat

/-- The bytes COPY moves (R283). -/
def State.copyBytes (s : State) : CopyLen → Nat
  | .reg t => (s.rdX t).toNat
  | .long l _ _ => l.toNat

/-- The bytes a COPYS spans from a base with a stride (R287). -/
def rowsSpan (rowlen rows str : Nat) : Nat := if rowlen = 0 ∨ rows = 0 then 0 else 16 * str * (rows - 1) + rowlen
/-- The fields of a COPYS shape word: ROWLEN, ROWS, SSTR, DSTR (R287). -/
def shapeOf (w : XWord) : Nat × Nat × Nat × Nat :=
  ((w.extractLsb' 0 20).toNat, (w.extractLsb' 20 12).toNat, (w.extractLsb' 32 16).toNat, (w.extractLsb' 48 16).toNat)

/-- The window addresses under which a strand of a core can name a bank of its cluster, as whole-bank extents (R235, R262). -/
def bankExtents (core bank : Nat) : List Extent :=
  let w (k o : Nat) : Nat := 0xFFFF * 2 ^ 56 + k * 2 ^ 48 + o
  [⟨w 0 ((bank - 32 * (core % 4)) * 65536), if 32 * (core % 4) ≤ bank then 65536 else 0, true⟩,
   ⟨w 1 (bank * 65536), 65536, true⟩, ⟨w 2 (core / 4 * 8388608 + bank * 65536), 65536, true⟩, ⟨w 0x20 (bank * 65536), 65536, true⟩]

/-- The place that SPILL and FILL of one vn share, above every address (R262). -/
def parkVa (r : VReg) : Nat := 2 ^ 80 + r.val * 2048

/-- The extents of a form, from the operands the state gives (R261, R262, R210, R345, R362, R444). -/
def extents (s : State) : Instr → List Extent
  | .ld _ z _ a l | .ldN _ z _ a l => [⟨s.ea a l.off, z.bytes, false⟩]
  | .st _ z _ a o => [⟨s.ea a o.s72, z.bytes, true⟩]
  | .ldv _ _ a l => [⟨s.ea a l.off, 4 * s.lanes, false⟩]
  | .ldvFeTake _ one _ a l => [⟨s.ea a l.off, if one then 16 else 4 * s.lanes, true⟩]
  | .ldvFeKeep _ one _ a l => [⟨s.ea a l.off, if one then 16 else 4 * s.lanes, false⟩]
  | .stv _ _ a o | .stvFe _ _ a o => [⟨s.ea a o.s72, 4 * s.lanes, true⟩]
  | .ldvg _ _ a l => [⟨s.ea a l.off, 65536, false⟩]
  | .stvs _ _ a _ => [⟨s.ea a 0, 65536, true⟩]
  | .setfe _ d a | .clrfe _ d a => [⟨s.ea a 0, (s.rdX d).toNat, true⟩]
  | .spill _ d => [⟨parkVa d, 1, true⟩]
  | .fill _ d _ => [⟨parkVa d, 1, false⟩]
  | .atom _ _ dbl _ a l | .cas _ dbl _ a l => [⟨s.ea a l.off, State.dblBytes dbl, true⟩]
  | .red _ _ dbl _ a o => [⟨s.ea a ((o.map (fun l => l.signExtend 72)).getD 0), State.dblBytes dbl, true⟩]
  | .chkout _ d a => [⟨s.ea a 0, 64 * (s.rdX d).toNat, true⟩]
  | .chkin _ a => [⟨s.ea a 0 / 64 * 64, 4096, true⟩]
  | .copy _ _ d a n => [⟨s.ea a 0, s.copyBytes n, false⟩, ⟨s.ea d 0, s.copyBytes n, true⟩]
  | .copys _ _ d a t =>
      let (len, rows, ss, ds) := shapeOf (s.rdX t)
      [⟨s.ea a 0, rowsSpan len rows ss, false⟩, ⟨s.ea d 0, rowsSpan len rows ds, true⟩]
  | .copyg _ _ d a _ => [⟨s.ea a 0, 2 ^ 32, false⟩, ⟨s.ea d 0, 64 * s.lanes, true⟩]
  | .copyfe _ _ d a t => [⟨s.ea a 0, (s.rdX t).toNat, true⟩, ⟨s.ea d 0, (s.rdX t).toNat, true⟩]
  | .gemv _ _ _ a _ => [⟨s.ea a 0, 32, false⟩]
  | .bankmode _ x => bankExtents s.ctx.core ((s.rdX x).toNat % 128)
  | .flush _ d a => [⟨s.ea a 0, (s.rdX d).toNat, false⟩]
  | .inval _ d a => [⟨s.ea a 0, (s.rdX d).toNat, true⟩]
  | .mma _ _ a b _ _ xk f | .mmat _ _ a b _ _ xk f =>
      [⟨s.ea a 0, f.extent (s.rdX xk).toNat, false⟩, ⟨s.ea b 0, s.g * f.extent (s.rdX xk).toNat, false⟩]
  | .accret _ _ a ty => [⟨s.ea a 0, imageBytes s.g ty, true⟩]
  | .accadd _ _ a ty _ => [⟨s.ea a 0, imageBytes s.g ty, false⟩]
  | .accld _ _ a => [⟨s.ea a 0, 16384 * s.g, false⟩]
  | .accst _ _ a => [⟨s.ea a 0, 16384 * s.g, true⟩]
  | .push _ d a _ => [⟨s.ea a 0, 16 * (s.rdX d).toNat, false⟩]
  | .notify _ a _ => [⟨s.ea a 0, 32, true⟩]
  | .launch _ _ a => [⟨s.ea a 0, 128, false⟩]
  | .dictld _ _ a t => [⟨s.ea a 0, 48 * ((s.rdX t).toNat / 65536 % 512), false⟩]
  | .fqpop _ _ a => [⟨s.ea a 0, 64, true⟩]
  | .sframe _ _ a t => [⟨s.ea a 0, 4 * ((s.rdX t).toNat / 2 ^ 48), true⟩]
  | .btsnap _ a t => [⟨s.ea a 0, 48 * (s.rdX t).toNat, true⟩]
  | _ => []

end Machine

end Sys2Proof
end

