-- ==== Sys2Proof/Machine/Access.lean ====
section
/-! DEFINITION. Accesses by virtual address: windows, translation with its faults, cluster copies, homes, bank locks, withheld writes (spec 09 R234 to R258, 10 R261 to R263, 13 R374 and R375, 16 R438 and R448). -/

namespace Sys2Proof.Machine

/-- What an access gives: a value and the state after it, or the state in which it stopped (waiting, faulted, or its context killed). -/
inductive Acc (α : Type) where
  | ok (v : α) (s : State)
  | stop (s : State)

/-- Goes on with an access's value. -/
def Acc.bind {α β : Type} (a : Acc α) (f : α → State → Acc β) : Acc β :=
  match a with
  | .ok v s => f v s
  | .stop s => .stop s
/-- The state an access leaves, going on with its value. -/
def Acc.run {α : Type} (a : Acc α) (f : α → State → State) : State :=
  match a with
  | .ok v s => f v s
  | .stop s => s
/-- The state an access leaves. -/
def Acc.fin {α : Type} (a : Acc α) : State := a.run (fun _ s => s)
/-- Runs an access over a list, first to last. -/
def Acc.each {α : Type} (f : α → State → Acc Unit) : List α → State → Acc Unit
  | [], s => .ok () s
  | a :: as, s => (f a s).bind (fun _ s => Acc.each f as s)
/-- Runs an access over a list and collects the values. -/
def Acc.gather {α β : Type} (f : α → State → Acc β) : List α → State → Acc (List β)
  | [], s => .ok [] s
  | a :: as, s => (f a s).bind (fun b s => (Acc.gather f as s).bind (fun bs s => .ok (b :: bs) s))

/-- Which windows a form reaches, and whether it reaches translated memory (R261). -/
structure Reach where
  scr : Bool := false
  acc : Bool := false
  fifo : Bool := false
  trans : Bool := false
  deriving DecidableEq, Repr

/-- Where an address lies: translated, a bank byte in the model's space, a byte of the strand's accumulator window, a FIFO bank, or a hole by its address alone (R234, R235). -/
inductive Spot where
  | trans
  | scr (addr : Nat)
  | acc (o : Nat)
  | fifo (cluster bank : Nat)
  | hole
  deriving DecidableEq, Repr

/-- Where an address lies for a core (R235, R236). -/
def spotOf (core va : Nat) : Spot :=
  let o := va % 2 ^ 48
  if va / 2 ^ 56 ≠ 0xFFFF then .trans
  else match va / 2 ^ 48 % 256 with
    | 0 => .scr (bankAddr (core / 4) (32 * (core % 4) * 65536 + o))
    | 1 => .scr (bankAddr (core / 4) o)
    | 2 => if o < 2 ^ 28 then .scr (bankAddr (o / 2 ^ 23) (o % 2 ^ 23)) else .hole
    | 16 => .acc o
    | 32 => .fifo (core / 4) (o / 65536)
    | _ => .hole

/-- The cluster and bank of a bank address. -/
def bankOf (addr : Nat) : Nat × Nat := ((addr - bankBase) / 8388608, (addr - bankBase) % 8388608 / 65536)

/-- The banks an extent of bank addresses touches; the part has 4,096. -/
def banksOf (addr n : Nat) : List (Nat × Nat) :=
  if n = 0 then []
  else
    let lo := (addr - bankBase) / 65536
    (List.range (min 4096 ((addr + n - 1 - bankBase) / 65536 + 1 - lo))).map (fun i => ((lo + i) / 128, (lo + i) % 128))

namespace State

/-- The mode that the latest unfinished BANKMODE of a strand gives a bank of its cluster (R298). -/
def ownChange (s : State) (k cl b : Nat) : Option Nat :=
  ((s.strand k).ops.filterMap (fun o => match o.instr with
    | .bankmode _ x =>
        let w := (if x = 0 then 0 else o.latch.x[x.val]).toNat
        if o.guard = some false ∨ k / 16 ≠ cl ∨ w % 128 ≠ b then none else some (w / 256 % 8)
    | _ => none)).getLast?

/-- Whether a bank of a mode may be reached by a strand: its owner is the strand's context and it is not changing; the strand's own unfinished changes count as made (R238, R244, R298). -/
def bankFor (s : State) (k cl b mode : Nat) : Bool :=
  match s.ownChange k cl b with
  | some m => m == mode
  | none =>
      let bk := s.bank cl b
      bk.chg.isNone && bk.mode == mode && bk.owner == some (s.strand k).hc

/-- Whether an extent passes R237 with the windows of a reach; every other window counts as a hole (R235 to R238, R261). -/
def reaches (s : State) (k : Nat) (r : Reach) (va n : Nat) : Bool :=
  let core := k / 4
  let g := s.width core
  let o := va % 2 ^ 48
  match spotOf core va with
  | .trans => r.trans && decide (va + n ≤ 0xFFFF * 2 ^ 56)
  | .hole => false
  | .acc o => r.acc && decide (o + n ≤ (s.strand k).tn * (16384 * g))
  | .fifo cl b => r.fifo && decide (o < 8388608 ∧ o % 65536 + n ≤ 65536) && s.bankFor k cl b 2
  | .scr addr => r.scr &&
      (match va / 2 ^ 48 % 256 with
       | 0 => decide (o + n ≤ 32 * g * 65536)
       | 1 => decide (o + n ≤ 8388608)
       | _ => decide (o % 2 ^ 23 + n ≤ 8388608)) &&
      (banksOf addr n).all (fun b => s.bankFor k b.1 b.2 0)

/-- The window or straddle check of an extent; an empty extent has no byte to check (R237). -/
def windowStop (s : State) (r : Reach) (va n : Nat) : Option Stop :=
  if n = 0 ∨ s.reaches s.meKey r va n then none else some tWindow

/-! ### Translation of an operation's pages (R374, R375, R438) -/

/-- The leaf a cluster's TLB holds for an address. -/
def tlbHit (s : State) (cl h va : Nat) : Option TlbEnt := (s.cluster cl).tlb.find? (fun e => leafCovers e h va)

/-- The leaf for an address as the cluster holds it, or as a walk finds it (R374, R375). -/
def leafOf (s : State) (cl h va : Nat) : Option TlbEnt :=
  match s.tlbHit cl h va with
  | some e => some e
  | none => s.walk h va

/-- A cluster's leaves that cover an address are dropped, so that the next access walks again (R375). -/
def tlbForget (s : State) (cl h va : Nat) : State :=
  s.modCluster cl (fun c => { c with tlb := c.tlb.filter (fun e => !leafCovers e h va) })

/-- The leaves of every page of some extents dropped, so that a replay translates them afresh (R442, R503). -/
def tlbForgetAll (s : State) (cl h : Nat) (es : List Extent) : State :=
  es.foldl (fun s e => (pagesOf e.va e.len).foldl (fun s c => s.tlbForget cl h c.1) s) s

/-- A miss starts a walk, or joins its own walk in progress, and the operation waits (R375). -/
def startWalk (s : State) (va : Nat) : State :=
  let w : Walk := ⟨clusterOf s.ctx.core, s.hcid, va / 65536, va, s.ctx.core, s.ctx.strand, s.ctx.num⟩
  let known := s.walks.any (fun v => v.core == w.core && v.strand == w.strand && v.num == w.num && v.vpage == w.vpage)
  let s := s.modMe (fun t => { t with ops := t.ops.map (fun o => if o.num = s.ctx.num then { o with stage := .walking } else o) })
  (if known then s else { s with walks := s.walks ++ [w] }).wait

/-- What an access does to its pages: a read, a write, or a check-out (R251, R279). -/
inductive Use where
  | read | write | checkout
  deriving DecidableEq, Repr

/-- The fault a leaf gives a use: a permission fault first, then a translation fault (R251, R279, R374). -/
def leafFault (e : TlbEnt) (pa : Nat) : Use → Option Nat
  | .read => none
  | .write => if e.pclass = 2 then some 2 else if e.w then none else some 1
  | .checkout =>
      if e.pclass = 2 ∨ e.pclass = 3 ∨ (e.pclass = 0 ∧ pkind pa ≠ .hbm) then some 2 else if e.w then none else some 1

/-- One page of an extent translated: its physical address and class; `fault` says how a fault is taken (R374, R438, R441). -/
def page (fault : State → Nat → Nat → State) (u : Use) (va : Nat) (s : State) : Acc (Nat × Nat) :=
  let cl := clusterOf s.ctx.core
  match s.tlbHit cl s.hcid va with
  | none => .stop (s.startWalk va)
  | some e =>
      match leafFault e (leafPa e va) u with
      | some code => .stop (fault (s.tlbForget cl s.hcid va) code va)
      | none => .ok (leafPa e va, e.pclass) s

/-- Every page of an extent translated before any byte performs: chunks as address, bytes, class (R438, log entry 19). -/
def translate (fault : State → Nat → Nat → State) (u : Use) (va n : Nat) (s : State) : Acc (List (Nat × Nat × Nat)) :=
  Acc.gather (fun c s => (page fault u c.1 s).bind (fun p s => .ok (p.1, c.2, p.2) s)) (pagesOf va n) s

/-! ### Lines as a strand reads and writes them (R243, R251 to R255, R306) -/

/-- The strand's own withheld bytes laid over bytes read from an address (R448). -/
def seeWithheld (t : Strand) (addr : Nat) (bs : List Byte) : List Byte :=
  t.withheld.foldl (fun bs w =>
    if w.addr + w.bytes.length ≤ addr ∨ addr + bs.length ≤ w.addr then bs
    else (List.range bs.length).map (fun i =>
      if w.addr ≤ addr + i ∧ addr + i < w.addr + w.bytes.length then w.bytes.getD (addr + i - w.addr) 0 else bs.getD i 0)) bs

/-- Whether a check-out of the strand that covers a line waits for its grant (R279). -/
def awaitsLine (s : State) (line : Nat) : Bool :=
  s.home.any (fun r => r.kind == .chkout && r.core == s.ctx.core && r.strand == s.ctx.strand && r.addr / 64 == line)

/-- Whether the operation's read of a chunk goes to the line's home: the strand does not hold the line, and its cluster has no copy (R243, R253, R255). -/
def readsHome (s : State) (c : Nat × Nat) : Bool :=
  !s.me.held.any (fun h => h.line == c.1 / 64) && (s.cline (clusterOf s.ctx.core) (c.1 / 64)).isNone

/-- Whether the operation's read of a chunk must wait: for the grant of a check-out, or at a home that is not free and has not answered (R257, R279). -/
def readHeld (s : State) (c : Nat × Nat) : Bool :=
  s.awaitsLine (c.1 / 64) || (s.readsHome c && s.lineHeld s.ctx.core s.ctx.strand s.ctx.num c)

/-- The strand has read a value that a waiting write of another strand of its cluster will give the home (R315). -/
def noteSeen (s : State) (c : Nat × Nat) : State :=
  let me := (s.meKey, s.me.launch)
  let theirs (r : HReq) : Bool := r.addr / 64 == c.1 / 64 && clusterOf r.core == clusterOf s.ctx.core &&
    (match r.kind with
     | .write bs _ => decide (r.addr < c.1 + c.2 ∧ c.1 < r.addr + bs.length)
     | .chkin _ _ _ => true
     | _ => false) && strandKey r.core r.strand != s.meKey && !r.seen.contains me
  if s.home.any theirs then { s with home := s.home.map (fun r => if theirs r then { r with seen := me :: r.seen } else r) } else s

/-- Bytes within one line as the strand being acted for reads them: its pinned copy, its cluster's copy, or what the home gives, `fill` saying whether the cluster's copy is filled; with the poison of what it reads, and the strand's own withheld bytes over them (R243, R246, R253, R255, R257, R306, R448). -/
def lineRead (fill : Bool) (pclass : Nat) (c : Nat × Nat) (s : State) : (List Byte × Bool) × State :=
  let line := c.1 / 64
  let cl := clusterOf s.ctx.core
  let cut (data : List Byte) : List Byte := seeWithheld s.me c.1 ((data.drop (c.1 % 64)).take c.2)
  match s.me.held.find? (fun h => h.line == line) with
  | some h => ((cut h.copy, h.bad), s)
  | none =>
      match s.cline cl line with
      | some l => ((cut l.data, l.bad), (if fill then s.setLine cl line { l with stamp := s.nextStamp cl } else s).noteSeen c)
      | none =>
          match s.replyTo s.ctx.core s.ctx.strand s.ctx.num c with
          | some r => ((seeWithheld s.me c.1 r.data, r.bad), s)
          | none => ((seeWithheld s.me c.1 (s.homeRead c.1 c.2), s.homePoison line), (if fill then s.fill s.hcid cl line pclass else s).agentTake line .s)

/-- The chunks of translated pages, by line: address and bytes, class. -/
def pageLines (ps : List (Nat × Nat × Nat)) : List ((Nat × Nat) × Nat) :=
  ps.flatMap (fun p => (chunksOf p.1 p.2.1).map (fun c => (c, p.2.2)))

/-- The reads of an operation that must wait join the lists of their lines (R13, R257). -/
def askLines (fill : Bool) (cs : List ((Nat × Nat) × Nat)) (s : State) : State :=
  cs.foldl (fun s c =>
    if s.readHeld c.1 && !s.awaitsLine (c.1.1 / 64) then askLine (s.myReq c.1.1 c.2 0 (.read c.1.2 fill)) s else s) s

/-- Chunks read one after another, with their poison. -/
def readLines (fill : Bool) (cs : List ((Nat × Nat) × Nat)) (s : State) : (List Byte × Bool) × State :=
  cs.foldl (fun (a : (List Byte × Bool) × State) c =>
    let r := lineRead fill c.2 c.1 a.2
    ((a.1.1 ++ r.1.1, a.1.2 || r.1.2), r.2)) (([], false), s)

/-- Translated bytes read, with their poison, once every home can give its line: reads that must wait join the lists of their lines first (R13, R257). -/
def readPages (ps : List (Nat × Nat × Nat)) (s : State) : Acc (List Byte × Bool) :=
  let cs := pageLines ps
  if cs.any (fun c => s.readHeld c.1) then .stop (askLines true cs s).wait
  else
    let r := readLines true cs s
    .ok r.1 (r.2.takeReplies s.ctx.core s.ctx.strand s.ctx.num)

/-- A copy's poison after a write within it: set by poisoned bytes, cleared by one write of the whole line (R246). -/
def spoiled (old bad : Bool) (n : Nat) : Bool := bad || (old && n != 64)

/-- A strand's bytes within one line written, with their poison: its pinned copy only when it holds the line; an SW-FL line stays in the cluster; otherwise the cluster's copy is updated and the write goes to the home, as that of an SW-FL line does for which the cluster has no way or whose home is not free (R246, R251, R253, R255, R265; the last by log entry 18). -/
def lineWrite (bad : Bool) (pclass pa : Nat) (bs : List Byte) (s : State) : State :=
  let line := pa / 64
  let cl := clusterOf s.ctx.core
  let put (data : List Byte) : List Byte := overlay data (pa % 64) bs
  if s.me.held.any (fun h => h.line == line) then
    s.modMe (fun t => { t with held := t.held.map (fun h =>
      if h.line = line then { h with copy := put h.copy, bad := spoiled h.bad bad bs.length } else h) })
  else
    let s := if pclass = 3 ∧ (s.cline cl line).isNone ∧ s.homeFree line then s.fill s.hcid cl line pclass else s
    let home := s.myReq pa pclass 0 (.write bs bad)
    match s.cline cl line with
    | some l =>
        if pclass = 3 then
          let mask := (List.range bs.length).foldl (fun m i => m ||| (1#64 <<< (pa % 64 + i))) l.dirty
          s.setLine cl line { l with data := put l.data, dirty := mask, bad := spoiled l.bad bad bs.length, hc := s.hcid }
        else (s.setLine cl line { l with data := put l.data, bad := spoiled l.bad bad bs.length }).sendHome home
    | none => s.sendHome home

/-- Translated bytes written. -/
def writePages (ps : List (Nat × Nat × Nat)) (bs : List Byte) (s : State) : State :=
  (ps.foldl (fun (a : State × List Byte) p =>
    ((chunksOf p.1 p.2.1).foldl (fun (a : State × List Byte) c =>
      (lineWrite false p.2.2 c.1 (a.2.take c.2) a.1, a.2.drop c.2)) a)) (s, bs)).1

/-! ### Bank locks (R211, R212) -/

/-- Whether an unconsumed matrix operation keeps a write of the operation being performed off a bank: every lock but those of later matrix operations of the same strand, which wait for the write; they wait for no copy-schedule entry and no push delivery (R210, R212). -/
def lockedFor (s : State) (cl b : Nat) : Bool :=
  s.mmas.any (fun m => !m.consumed && m.banks.contains (cl * 128 + b) &&
    !(m.core == s.ctx.core && m.strand == s.ctx.strand && decide (s.ctx.slot < 9 ∧ s.ctx.num ≠ 0 ∧ s.ctx.num < m.num)))

/-- The core whose scratchpad a cluster bank is part of: the driver of the bank's position (R27, R31). -/
def bankCore (s : State) (cl b : Nat) : Nat := (s.bindEnt (cl * 4 + b / 32)).driver.toNat

/-- Whether a write of bank bytes must wait: a locked bank, or a halted core of another agent (R212, R460). -/
def bankHeld (s : State) (addr n : Nat) : Bool :=
  (banksOf addr n).any (fun b =>
    s.lockedFor b.1 b.2 ||
    (decide (s.bankCore b.1 b.2 ≠ s.ctx.core) && (s.core (s.bankCore b.1 b.2)).halt != 0))

/-! ### Withheld writes (R447, R448, R450) -/

/-- Whether a bank address lies in the banks of the core being acted for (R27, R236). -/
def ownBank (s : State) (addr : Nat) : Bool :=
  let (cl, b) := bankOf addr
  let j := column s.ctx.core
  cl == clusterOf s.ctx.core && decide (32 * j ≤ b ∧ b < 32 * (j + s.g))

/-- Whether a push entry is withheld: its strand pushed it in a protected segment that has not ended (R448). -/
def pushWithheld (s : State) (p : PushEnt) : Bool :=
  match (s.strand (strandKey p.core p.strand)).shadow with
  | some h => decide (h.firstNum ≤ p.num)
  | none => false

/-- Whether the operation being performed is one of a protected segment, whose writes that leave the core are withheld (R448). -/
def withholds (s : State) : Bool :=
  match s.me.shadow with
  | some h => s.ctx.num == 0 || decide (h.firstNum ≤ s.ctx.num)
  | none => false

/-- The granule entries of a core's withholding buffer in use (R448). -/
def withheldCount (s : State) (core : Nat) : Nat :=
  ((List.range 4).map (fun i => ((s.strand (strandKey core i)).withheld.map (fun w => (granSpan w.addr (max 1 w.bytes.length)).2)).sum)).sum +
  s.pushes.countP (fun p => p.core == core && s.pushWithheld p)

/-- A withheld write performed at its place (R448). -/
def performWithheld (s : State) (w : Withheld) : State :=
  if w.addr < bankBase then lineWrite false w.pclass w.addr w.bytes s
  else
    match w.fe with
    | none => s.bankWrite w.addr w.bytes false
    | some b => (if w.bytes.isEmpty then s else s.bankWrite w.addr w.bytes false).setFull w.addr (max 16 w.bytes.length) b

/-- The machine acting for a withheld write: as the operation that made it. -/
def forWithheld (s : State) (w : Withheld) : State := { s with ctx := { s.ctx with slot := 2, num := w.num } }

/-- Whether a released write is held at its place: at a locked bank, or a halted core's (R212, R320, R460). -/
def withheldStops (s : State) (w : Withheld) : Bool :=
  decide (bankBase ≤ w.addr) && (s.forWithheld w).bankHeld w.addr (max 1 w.bytes.length)

/-- Whether a withheld write of a strand has been released: its segment has ended, or has lost its protection (R448, R450). -/
def released (t : Strand) (w : Withheld) : Bool :=
  match t.shadow with
  | some h => w.num != 0 && decide (w.num < h.firstNum)
  | none => true

/-- Released writes performed in issue order up to the first that is held, `stuck` saying that one has been; those left (R448). -/
def goOut (free : Withheld → Bool) : (stuck : Bool) → List Withheld → State → List Withheld × State
  | _, [], s => ([], s)
  | stuck, w :: ws, s =>
      if !stuck && free w && !s.withheldStops w then goOut free false ws (performWithheld (s.forWithheld w) w)
      else
        let r := goOut free (stuck || free w) ws s
        (w :: r.1, r.2)

/-- The strand's released writes performed as far as they can be (R320, R448). -/
def drainWithheld (s : State) : State :=
  let ctx := s.ctx
  let ws := s.me.withheld
  if ws.isEmpty then s
  else
    let r := goOut (released s.me) false ws (s.modMe (fun t => { t with withheld := [] }))
    { (r.2.modMe (fun t => { t with withheld := r.1 })) with ctx := ctx }

/-- The strand's segment loses its protection: its withheld writes are released and it runs on unprotected (R450). -/
def loseProtection (s : State) : State := (s.modMe (fun t => { t with shadow := none })).drainWithheld

/-- Writes that leave the core: withheld in a protected segment while they fit the buffer, else performed behind those released before them (R448, R450). -/
def leave (ws : List Withheld) (s : State) : State :=
  let need := (ws.map (fun w => (granSpan w.addr (max 1 w.bytes.length)).2)).sum
  let add (s : State) : State := s.modMe (fun t => { t with withheld := t.withheld ++ ws })
  if s.withholds && decide (s.withheldCount s.ctx.core + need ≤ Config.withholdEntries) then add s
  else
    let s := if s.withholds then s.loseProtection else s
    (add s).drainWithheld

/-! ### Reads and writes by virtual address -/

/-- The model address of a byte of a strand's accumulator window (R207). -/
def accByte (core tb g o : Nat) : Nat :=
  accAddr core (tb + o / (16384 * g)) (o % (16384 * g) / (256 * g)) (o % (256 * g) / 4) + o % 4

/-- Whether an earlier write of the strand to some bytes is withheld, or released and held at its place, so that what is not withheld itself waits for it (R262, R448). -/
def withheldOver (s : State) (addr n : Nat) : Bool :=
  s.me.withheld.any (fun w => (s.ctx.num == 0 || decide (w.num < s.ctx.num)) && touches addr n w.addr (max 1 w.bytes.length))

/-- A full-empty bit as its strand sees it: the last that it has withheld there, or the bank's (R262, R448). -/
def fullSeen (s : State) (granule : Nat) : Bool :=
  match (s.me.withheld.filter (fun w => w.fe.isSome && decide (gran w.addr ≤ granule ∧ granule ≤ gran (w.addr + max 1 w.bytes.length - 1)))).getLast? with
  | some w => w.fe == some true
  | none => s.full.mem granule

/-- Whether every granule of an extent is full as the strand sees it (R267, R289, R448). -/
def allSeen (s : State) (addr n : Nat) : Bool :=
  (List.range (granSpan addr n).2).all (fun i => s.fullSeen (gran addr + i))

/-- The granules of an extent taken: their bits cleared in the bank, and behind the strand's own withheld bits where it has some (R267, R289, R448). -/
def takeFull (s : State) (addr n : Nat) : State :=
  let mine := ((List.range (granSpan addr n).2).map (gran addr + ·)).filter (fun g =>
    s.me.withheld.any (fun w => w.fe.isSome && decide (gran w.addr ≤ g ∧ g ≤ gran (w.addr + max 1 w.bytes.length - 1))))
  let s := s.setFull addr n false
  if mine.isEmpty then s else leave (mine.map (fun g => ⟨16 * g, [], some false, 0, s.ctx.num⟩)) s

/-- Whether some check-out of the strand that covers some of the bytes waits for its grant (R279). -/
def awaitsGrant (s : State) (ps : List (Nat × Nat × Nat)) : Bool :=
  s.home.any (fun r => r.kind == .chkout && r.core == s.ctx.core && r.strand == s.ctx.strand &&
    ps.any (fun p => decide (p.1 / 64 ≤ r.addr / 64 ∧ r.addr < p.1 + p.2.1)))

/-- n bytes at an address as the strand being acted for reads them, with their poison (R234 to R237, R263). -/
def readVa (fault : State → Nat → Nat → State) (va n : Nat) (s : State) : Acc (List Byte × Bool) :=
  match spotOf s.ctx.core va with
  | .trans => (translate fault .read va n s).bind readPages
  | .scr addr => .ok (seeWithheld s.me addr (s.mem.readN addr n), s.anyPoison addr n) s
  | .acc o => .ok ((List.range n).map (fun i => s.mem.read (accByte s.ctx.core s.me.tb s.g (o + i))), false) s
  | _ => .ok ([], false) s

/-- Whether the byte at an address is poisoned where it lies (R245, R246). -/
def badAt (s : State) (va : Nat) : Bool :=
  match spotOf s.ctx.core va with
  | .scr addr => s.anyPoison addr 1
  | .fifo cl b => s.anyPoison (bankAddr cl (b * 65536 + va % 65536)) 1
  | .trans => match s.tlbHit (clusterOf s.ctx.core) s.hcid va with
    | some e =>
        let line := leafPa e va / 64
        (match s.me.held.find? (fun h => h.line == line), s.cline (clusterOf s.ctx.core) line with
         | some h, _ => h.bad
         | none, some l => l.bad
         | none, none => s.homePoison line)
    | none => false
  | _ => false

/-- The first poisoned byte of an extent, or its first byte (R436). -/
def firstBad (s : State) (va n : Nat) : Nat := ((List.range n).find? (fun i => s.badAt (va + i))).getD 0 + va

/-- n bytes read into a register, tile or table: a poisoned byte is consumed (R247). -/
def load (va n : Nat) (s : State) : Acc (List Byte) :=
  (readVa holdFault va n s).bind (fun r s => if r.2 then .stop (s.consume (s.firstBad va n)) else .ok r.1 s)

/-- Bytes stored at an address by the operation being performed, `fe` saying what becomes of full-empty bits: they wait for locked banks, are withheld in a protected segment when they leave the core, and perform otherwise (R212, R245, R265, R448). -/
def store (fe : Option Bool) (va : Nat) (bs : List Byte) (s : State) : Acc Unit :=
  match spotOf s.ctx.core va with
  | .trans =>
      (translate holdFault .write va bs.length s).bind (fun ps s =>
        if s.awaitsGrant ps then .stop s.wait
        else
          let ws := ((pageLines ps).foldl (fun (a : List Withheld × List Byte) c =>
            (a.1 ++ [⟨c.1.1, a.2.take c.1.2, none, c.2, s.ctx.num⟩], a.2.drop c.1.2)) ([], bs)).1
          .ok () (if !s.withholds && s.me.withheld.isEmpty then writePages ps bs s else leave ws s))
  | .scr addr =>
      if s.bankHeld addr bs.length then .stop s.wait
      else if s.ownBank addr then .ok () (performWithheld s ⟨addr, bs, fe, 0, s.ctx.num⟩)
      else .ok () (leave [⟨addr, bs, fe, 0, s.ctx.num⟩] s)
  | _ => .ok () s

/-- Where a store lands, byte by byte: the model address of byte i of an extent, when the page it lies in has a leaf in the cluster's TLB (R235, R374). -/
def placeOf (s : State) (va : Nat) : Option Nat :=
  match spotOf s.ctx.core va with
  | .scr addr => some addr
  | .acc o => some (accByte s.ctx.core s.me.tb s.g o)
  | .trans => (s.tlbHit (clusterOf s.ctx.core) s.hcid va).map (fun e => leafPa e va)
  | _ => none

/-! ### FIFO banks (R241, R242) -/

/-- The model address of a FIFO bank's entry. -/
def fifoAddr (cl b i : Nat) : Nat := bankAddr cl (b * 65536 + i % 4096 * 16)

/-- Whether the k entries from a FIFO's head are full (R242). -/
def fifoReady (s : State) (cl b k : Nat) : Bool :=
  let h := (s.bank cl b).fhead
  (List.range k).all (fun i => s.full.mem (gran (fifoAddr cl b (h + i))))

/-- Whether the next k tail entries of a FIFO are empty (R242). -/
def fifoRoom (s : State) (cl b k : Nat) : Bool :=
  let t := (s.bank cl b).ftail
  (List.range k).all (fun i => !s.full.mem (gran (fifoAddr cl b (t + i))))

/-- Whether an enqueue waits at a halted core's bank (R212, R460). -/
def fifoHeld (s : State) (cl b : Nat) : Bool := s.bankHeld (bankAddr cl (b * 65536)) 16

/-- The bytes and poison of the k entries from a FIFO's head. -/
def fifoPeek (s : State) (cl b k : Nat) : List Byte × Bool :=
  let h := (s.bank cl b).fhead
  ((List.range k).flatMap (fun i => s.mem.readN (fifoAddr cl b (h + i)) 16),
   (List.range k).any (fun i => s.anyPoison (fifoAddr cl b (h + i)) 16))

/-- k entries taken from a FIFO's head (R242). -/
def fifoTake (s : State) (cl b k : Nat) : State :=
  let h := (s.bank cl b).fhead
  ((List.range k).foldl (fun s i => s.setFull (fifoAddr cl b (h + i)) 16 false) s).modBank cl b
    (fun x => { x with fhead := (x.fhead + k) % 4096 })

/-- Bytes enqueued at a FIFO's tail, 16 to an entry (R242). -/
def fifoPut (s : State) (cl b : Nat) (bs : List Byte) (src : Bool) : State :=
  let t := (s.bank cl b).ftail
  let k := bs.length / 16
  ((List.range k).foldl (fun s i => s.bankWriteFe (fifoAddr cl b (t + i)) ((bs.drop (16 * i)).take 16) src) s).modBank cl b
    (fun x => { x with ftail := (x.ftail + k) % 4096 })

end State

end Sys2Proof.Machine
end

