-- ==== Sys2Proof/Machine/Checks.lean ====
section
/-! DEFINITION. What a slot is tested for when its bundle is about to issue: the waits of R52, R116 and R117 and the issue checks of R500 (spec 02, 04, 08, 10, 12, 13, 15, 16). -/

namespace Sys2Proof.Machine

/-- The forms that write OCC and DRAFT (R379). -/
def writesOcc : Instr → Bool
  | .btsnap _ _ _ => true
  | _ => false

namespace State

/-! ### Issue checks (R500 step 4) -/

/-- The first stop of a list of checks. -/
def firstStop : List (Option Stop) → Option Stop
  | [] => none
  | some e :: _ => some e
  | none :: cs => firstStop cs

def need (b : Bool) (e : Stop) : Option Stop := if b then none else some e

/-- The reach of scalar and vector loads, of stores, of the full-empty forms, of Q sources, of copies (R261, R282, R345). -/
def loadReach : Reach := { scr := true, acc := true, trans := true }
def storeReach : Reach := { scr := true, trans := true }
def feReach : Reach := { scr := true, fifo := true }
def scrReach : Reach := { scr := true }
def transReach : Reach := { trans := true }
def copyReach : Reach := { scr := true, acc := true, fifo := true, trans := true }
/-- The reach of COPYS, COPYG and GEMV: FIFO banks are reached by COPY and COPYFE alone (R242). -/
def rowsReach : Reach := { scr := true, acc := true, trans := true }

/-- Alignment of EA, then the extent (R261 steps 1 and 2). -/
def extentStop (s : State) (r : Reach) (va al n : Nat) : Option Stop :=
  firstStop [need (va % al == 0) tAlign, s.windowStop r va n]

/-- The extra bank test of the full-empty forms (R261 step 3). -/
def oneBank (va n : Nat) : Option Stop := need (decide (va % 65536 + n ≤ 65536)) tAlign

/-- The lines of an extent of c lines, each by its place, or by its address where its page does not translate. -/
def linesNamed (s : State) (va c : Nat) : List Nat :=
  (List.range c).map (fun i => match s.leafOf (clusterOf s.ctx.core) s.hcid (va + 64 * i) with
    | some e => leafPa e (va + 64 * i) / 64
    | none => 2 ^ 64 + va / 64 + i)

/-- Whether a check-out of a line would leave it unchecked-out: its cluster has no way for it (R281). -/
def unpinnable (s : State) (line : Nat) : Bool :=
  (s.takeWay (clusterOf s.ctx.core) line).isNone && !s.wayWaits (clusterOf s.ctx.core) line

/-- The lines a strand holds or has asked for: held ones, those whose check-out waits at a home, and those of the CHKOUTs in its queue (R255, R279). -/
def linesAsked (s : State) : List Nat :=
  s.me.held.map (·.line) ++
  (s.home.filter (fun r => r.kind == .chkout && r.core == s.ctx.core && r.strand == s.ctx.strand)).map (fun r => r.addr / 64) ++
  s.me.ops.flatMap (fun o => match o.instr with
    | .chkout _ d a =>
        let s := { s with ctx := { s.ctx with latch := some o.latch } }
        if o.guard = some false then [] else (s.linesNamed (s.ea a 0) (s.rdX d).toNat).filter (fun l => !s.unpinnable l)
    | _ => [])

/-- The lines the strand would hold with a check-out of c lines more (R279, R281). -/
def linesWith (s : State) (va c : Nat) : Nat :=
  ((s.linesAsked ++ (s.linesNamed va c).filter (fun l => !s.unpinnable l)).eraseDups).length

/-- The window kind of an address, when it is an on-chip window (R235). -/
def winKind (va : Nat) : Option Nat := if va / 2 ^ 56 = 0xFFFF then some (va / 2 ^ 48 % 256) else none

/-- The checks of a copy's two extents: their windows, the length for FIFO banks, the port and the add (R282, R285, R286, log entry 47). -/
def copyStop (s : State) (r : Reach) (src dst srcN dstN unit port : Nat) (addw : Bool) : Option Stop :=
  let fifo := winKind src == some 32 || winKind dst == some 32
  let acc := winKind dst == some 16
  firstStop [s.windowStop r src srcN, s.windowStop r dst dstN,
    need (!fifo || unit % 16 == 0) tAlign,
    need (acc || (port == 0 && !addw)) tWindow,
    need (!addw || (src % 4 == 0 && dst % 4 == 0 && unit % 4 == 0)) tAlign]

/-- The bytes a lane of COPYG can name from its base: 2^26 lines of 64 bytes (R288, log entry 85). -/
def gatherSpan : Nat := 2 ^ 32

/-- The window of a strand's tiles (R206, log entry 48). -/
def tileStop (s : State) (t : TReg) : Option Stop := need (decide (t.val < s.me.tn)) tWindow

/-- The limits of a matrix operation first, then its tile, then the alignment of its two addresses and their extents, whatever M and N are; a K of 0 leaves no byte to check (R206, R210, R214, R216). -/
def mmaStop (s : State) (d : TReg) (a b : AReg) (xm xn xk : XReg) (f : MFmt) : Option Stop :=
  let m := (s.rdX xm).toNat
  let n := (s.rdX xn).toNat
  let k := (s.rdX xk).toNat
  firstStop [need (decide (m ≤ 64 ∧ n ≤ 64 * s.g ∧ k ≤ 4096)) .violation, s.tileStop d,
    need (s.ea a 0 % 64 == 0 && s.ea b 0 % 64 == 0) tAlign,
    s.windowStop scrReach (s.ea a 0) (f.extent k), s.windowStop scrReach (s.ea b 0) (s.g * f.extent k)]

/-- A tile form with an image in scratchpad (R206, R210). -/
def imageStop (s : State) (t : TReg) (a : AReg) (n : Nat) : Option Stop :=
  firstStop [s.tileStop t, s.extentStop scrReach (s.ea a 0) 64 n]

/-- The image of a strand and its gang core. -/
def imageOf (s : State) (k : Nat) : Option Image := s.image? (s.strand k).image
def coreImg (s : State) (k : Nat) : Option CoreImg := (s.imageOf k).bind (fun i => i.cores[(s.strand k).member]?)
/-- The segment record of the strand's current segment. -/
def segRec (s : State) (k : Nat) : Option SegRec :=
  (s.coreImg k).bind (fun c => c.segs.find? (fun r => r.start == (s.strand k).segStart))

/-- The push-queue descriptor a queue number names (R345, R370). -/
def pushDesc (s : State) (q : Nat) : Option PushDesc := (s.imageOf s.meKey).bind (fun i => (i.push[q]?).join)
/-- The counters of a queue of the strand's gang. -/
def pushQ (s : State) (q : Nat) : PushQ := ((s.launchOf s.meKey).map (fun l => l.pushes.getD q PushQ.reset)).getD PushQ.reset
def depthOf (d : PushDesc) : Nat := 2 ^ d.logd

/-- The members of a resident gang with their numbers: those placed with it, whether or not they have exited since; a gang is resident in PLACING and RUNNING (R41, R49, R369). -/
def placedMembers (l : Launch) : List (Member × Nat) :=
  if (l.st == .placing || l.st == .running) && l.status.isNone then
    l.members.zipIdx.filter (fun e => !(l.everSusp && e.1.exited && e.1.record.isEmpty))
  else []

/-- The plan buffers of resident gangs: launch, core, context, buffer (R369). -/
def plans (s : State) : List (Nat × Nat × Nat × Spad) :=
  s.launches.flatMap (fun l => (placedMembers l).flatMap (fun e =>
    ((((s.image? l.image).bind (fun g => g.cores[e.2]?)).map (·.spad)).getD []).map (fun p => (l.id, e.1.core, l.hc, p))))

/-- The plan buffers that lie in a bank. -/
def plansIn (s : State) (cl b : Nat) : List (Nat × Nat × Nat × Spad) :=
  s.plans.filter (fun e => clusterOf e.2.1 == cl && 32 * column e.2.1 + e.2.2.2.bank == b)

/-- Whether a BANKMODE may not change a bank: it belongs to another context or lies in a plan buffer of another resident gang (R298). -/
def bankTaken (s : State) (cl b : Nat) : Bool :=
  (match (s.bank cl b).owner with
   | some h => h != s.me.hc
   | none => false) || (s.plansIn cl b).any (fun e => e.1 != s.me.launch)

/-- The operand checks of BANKMODE (R298). -/
def bankmodeStop (s : State) (w : XWord) : Option Stop :=
  firstStop [need (w.toNat / 2048 == 0 && !w.getLsbD 7 && decide (w.toNat / 256 % 8 ≤ 2)) tIllegal,
    need (!s.bankTaken (clusterOf s.ctx.core) (w.toNat % 128)) .violation]

/-- Whether any loop-nest level of the strand runs (R425). -/
def looping (s : State) : Bool := s.me.levels.toList.any (fun l => l.run)

/-- The next program counter in sequence after a halfword of a stream (R77). -/
def seqNext (idx : List (BitVec 16)) (pc : Word32) : Word32 :=
  if idx.getD pc.toNat 0 = 0xFFFF then pc + 25 else pc + 1
/-- n steps of R77 from an index. -/
def seqStep (idx : List (BitVec 16)) : Nat → Word32 → Word32
  | 0, pc => pc
  | n + 1, pc => seqStep idx n (seqNext idx pc)
/-- The index stream of the strand being acted for. -/
def stream (s : State) : List (BitVec 16) := ((s.coreImg s.meKey).map (·.index)).getD []

/-- The fields of a level's control word: LEN, LOGDIV, SRC, TRIP (R418). -/
def ctlLen (c : BitVec 64) : Nat := c.toNat % 512
def ctlDiv (c : BitVec 64) : Nat := c.toNat / 2 ^ 39 % 16
def ctlSrc (c : BitVec 64) : Bool := c.getLsbD 43
def ctlTrip (c : BitVec 64) : Nat := c.toNat / 2 ^ 44

def level (t : Strand) (k : Nat) : Level := t.levels.toList.getD k Level.reset

/-- The innermost running level (R422). -/
def innermost (t : Strand) : Option Nat := (List.range 6).reverse.find? (fun k => (level t k).run)

/-- The body of an LNSRUN: its first and last bundle indices (R421). -/
def lnsBody (s : State) (k : Nat) : Word32 × Word32 :=
  let st := seqNext s.stream s.me.pc
  (st, seqStep s.stream (ctlLen (level s.me k).ctl - 1) st)

/-- The limits of LNSRUN (R417, R421). -/
def lnsrunOk (s : State) (w : XWord) : Bool :=
  let k := w.toNat
  let t := s.me
  let (st, en) := s.lnsBody k
  decide (k ≤ 5) && ctlLen (level t k).ctl != 0 && (List.range 6).all (fun j => !(level t j).run || decide (j < k)) &&
  t.redirects.isEmpty &&
  (match innermost t with
   | some j => decide ((level t j).first ≤ st ∧ en ≤ (level t j).last ∧ st ≤ en)
   | none => true)

/-- The limits of LNSCFG (R417 to R420). -/
def lnscfgOk (s : State) (w v : XWord) : Bool :=
  let k := w.toNat % 8
  let item := w.toNat / 8
  decide (k ≤ 5 ∧ item ≤ 8) && !(level s.me k).run &&
  (if item = 0 then decide (1 ≤ ctlLen v ∧ ctlLen v ≤ 256) && v.toNat / 512 % 2 ^ 30 == 0
   else v.toNat / 16 % 8 == 0 && v.toNat / 512 % 2 ^ 23 == 0)

/-- The ids of CNTRD (R432). -/
def cntrdOk (w : XWord) : Bool :=
  let i := w.toNat
  decide (i ≤ 7 ∨ (0x10 ≤ i ∧ i ≤ 0x15) ∨ (0x20 ≤ i ∧ i ≤ 0x2F) ∨ i = 0x30 ∨ (0x40 ≤ i ∧ i ≤ 0x48) ∨
    (0x60 ≤ i ∧ i ≤ 0x64) ∨ i = 0x70 ∨ i = 0x80 ∨ (0x90 ≤ i ∧ i ≤ 0x94))

/-- The word of DICTLD: FIRST and COUNT within the window (R362). -/
def dictldOk (s : State) (w : XWord) : Bool :=
  let first := w.toNat % 8192
  let count := w.toNat / 65536 % 512
  decide (w.toNat / 2 ^ 25 = 0 ∧ w.toNat / 8192 % 8 = 0 ∧ 1 ≤ count ∧ count ≤ 256 ∧ first ≠ 0 ∧ first + count ≤ s.me.wsize)

/-- Whether the strand stands at a SEG bundle whose segment record marks it a suspension point (R62, R351). -/
def atSuspension (s : State) : Bool :=
  s.ctx.seg && match s.segRec s.meKey with
  | some r => r.susp && r.endseg == s.me.pc
  | none => false

/-- Whether the strand's context has a registered Medlar arena (R383, R384). -/
def hasArena (s : State) : Bool := (s.hctx s.hcid).med.count != 0

/-- Whether a stream index names an entry that is open for the strand's context (R383). -/
def streamOpen (s : State) (h sid : Nat) : Bool :=
  match s.streams.get? sid with
  | some e => e.valid && e.hc == h
  | none => false

/-- Whether a natural operand has no bit from bit n up. -/
def below (w : XWord) (n : Nat) : Bool := decide (w.toNat < 2 ^ n)

/-- The bucket Oboe chooses: of those that cover the snapshot, the smallest OCCL, then the smallest DRAFTL, then the smallest number (R408). -/
def chooseBucket (occ draft : Nat) : List Bucket → Option Bucket
  | [] => none
  | b :: bs =>
      let rest := chooseBucket occ draft bs
      if b.valid && decide (occ ≤ b.occl ∧ draft ≤ b.draftl) then
        match rest with
        | some c => if c.occl < b.occl ∨ (c.occl = b.occl ∧ c.draftl < b.draftl) then some c else some b
        | none => some b
      else rest

/-- The bucket for the strand's latched OCC and DRAFT (R407, R408). -/
def bucketFor (s : State) : Option Bucket :=
  ((s.imageOf s.meKey).bind (·.buckets)).bind (chooseBucket s.front.occ.toNat s.front.draft.toNat)

/-- The issue checks of one slot whose guard is not false, in the order its description gives (R500 step 4; the corners of zero lengths, CHKOUT and window 0x10 by log entries 47, 48 and 56). -/
def issueStop (s : State) : Instr → Option Stop
  | .br _ _ | .brl _ _ _ => need (!s.looping) .violation
  | .trap _ i => some (.soft i.n64.toNat)
  | .ld _ z _ a l | .ldN _ z _ a l => s.extentStop loadReach (s.ea a l.off) z.bytes z.bytes
  | .st _ z _ a o => s.extentStop storeReach (s.ea a o.s72) z.bytes z.bytes
  | .ldv _ _ a l => s.extentStop loadReach (s.ea a l.off) 16 (4 * s.lanes)
  | .stv _ _ a o => s.extentStop storeReach (s.ea a o.s72) 16 (4 * s.lanes)
  | .ldvFeTake _ one _ a l | .ldvFeKeep _ one _ a l =>
      let n := if one then 16 else 4 * s.lanes
      firstStop [s.extentStop feReach (s.ea a l.off) 16 n, oneBank (s.ea a l.off) n]
  | .stvFe _ _ a o =>
      firstStop [s.extentStop feReach (s.ea a o.s72) 16 (4 * s.lanes), oneBank (s.ea a o.s72) (4 * s.lanes)]
  | .ldvg _ _ a l => s.extentStop loadReach (s.ea a l.off) 4 65536
  | .stvs _ _ a _ => s.extentStop storeReach (s.ea a 0) 4 65536
  | .setfe _ d a | .clrfe _ d a =>
      let n := (s.rdX d).toNat
      if n = 0 then none
      else firstStop [need (s.ea a 0 % 16 == 0 && n % 16 == 0) tAlign, s.windowStop scrReach (s.ea a 0) n]
  | .atom _ _ dbl _ a l | .cas _ dbl _ a l => s.extentStop storeReach (s.ea a l.off) (dblBytes dbl) (dblBytes dbl)
  | .red _ _ dbl _ a o =>
      s.extentStop storeReach (s.ea a ((o.map (fun l => l.signExtend 72)).getD 0)) (dblBytes dbl) (dblBytes dbl)
  | .chkout _ d a =>
      let c := (s.rdX d).toNat
      firstStop [s.extentStop transReach (s.ea a 0) 64 (64 * c),
        need (decide (c ≤ 64)) .violation,
        need (decide (s.linesWith (s.ea a 0) (min c 64) ≤ Config.checkoutLimit)) .violation]
  | .chkin _ a => s.windowStop transReach (s.ea a 0 / 64 * 64) 4096
  | .copy _ _ d a n =>
      let len := s.copyBytes n
      let (port, addw) := match n with | .reg _ => (0, false) | .long _ p w => (p.toNat, w)
      firstStop [need (decide (len < 2 ^ 32)) .violation,
        if len = 0 then none else s.copyStop copyReach (s.ea a 0) (s.ea d 0) len len len port addw]
  | .copys _ _ d a t =>
      let (len, rows, ss, ds) := shapeOf (s.rdX t)
      if len = 0 ∨ rows = 0 then none
      else s.copyStop rowsReach (s.ea a 0) (s.ea d 0) (rowsSpan len rows ss) (rowsSpan len rows ds) len 0 false
  | .copyg _ _ d a _ =>
      firstStop [need (s.ea a 0 % 64 == 0 && s.ea d 0 % 64 == 0) tAlign, s.windowStop transReach (s.ea a 0) gatherSpan,
        s.windowStop rowsReach (s.ea d 0) (64 * s.lanes)]
  | .copyfe _ _ d a t =>
      let n := (s.rdX t).toNat
      firstStop [need (s.ea a 0 % 16 == 0 && n % 16 == 0) tAlign,
        if n = 0 then none
        else firstStop [need (decide (n < 2 ^ 32)) .violation, s.windowStop feReach (s.ea a 0) n,
          s.windowStop copyReach (s.ea d 0) n]]
  | .gemv _ _ _ a _ => s.windowStop storeReach (s.ea a 0) 32
  | .bankmode _ x => s.bankmodeStop (s.rdX x)
  | .flush _ d a | .inval _ d a => s.windowStop transReach (s.ea a 0) (s.rdX d).toNat
  | .mma _ d a b xm xn xk f | .mmat _ d a b xm xn xk f => s.mmaStop d a b xm xn xk f
  | .accz _ d => s.tileStop d
  | .accret _ d a ty | .accadd _ d a ty _ => s.imageStop d a (imageBytes s.g ty)
  | .accld _ d a | .accst _ d a => s.imageStop d a (16384 * s.g)
  | .accrd _ _ d _ | .accwr _ d _ _ => s.tileStop d
  | .push _ d a t =>
      let n := (s.rdX d).toNat
      let q := (s.rdX t).toNat
      firstStop [need (match s.pushDesc q with
          | some p => decide (q < 64 ∧ p.prod = s.me.member ∧ n ≤ 64 ∧ n ≤ depthOf p)
          | none => false) .violation,
        s.extentStop storeReach (s.ea a 0) 16 (16 * n)]
  | .pop _ _ x =>
      let q := (s.rdX x).toNat % 256
      need (match s.pushDesc q with
        | some p => decide (q < 64 ∧ p.cons = s.me.member ∧ (s.rdX x).toNat / 65536 % 128 ≤ depthOf p)
        | none => false) .violation
  | .qstat _ _ x =>
      need (match s.pushDesc ((s.rdX x).toNat % 256) with
        | some p => (if (s.rdX x).getLsbD 8 then p.cons else p.prod) == s.me.member
        | none => false) .violation
  | .notify _ a _ => s.extentStop transReach (s.ea a 0) 32 32
  | .launch _ _ a => s.extentStop storeReach (s.ea a 0) 16 128
  | .suspend _ x => need (s.atSuspension && decide ((s.rdX x).toNat / 2 ^ 28 < 4)) .violation
  | .dictld _ _ a t =>
      firstStop [need (s.dictldOk (s.rdX t)) .violation,
        s.extentStop storeReach (s.ea a 0) 16 (48 * ((s.rdX t).toNat / 65536 % 512))]
  | .tlbinvHc _ x =>
      need (decide ((s.rdX x).toNat < 64) && ((s.rdX x).toNat == s.hcid || (s.hctx s.hcid).tlbgrant)) .violation
  | .tlbinvAll _ => need ((s.hctx s.hcid).tlbgrant) .violation
  | .kvlook _ _ x _ | .kvapp _ _ x _ => need (below (s.rdX x) 52 && s.hasArena) .violation
  | .kvfork _ _ x t => need (below (s.rdX x) 32 && below (s.rdX t) 52 && s.hasArena) .violation
  | .kvtrunc _ _ x _ => need (below (s.rdX x) 32 && s.hasArena) .violation
  | .kvfree _ x t => need (below (s.rdX x) 32 && below (s.rdX t) 20 && s.hasArena) .violation
  | .pfxfind _ _ _ t => need (below (s.rdX t) 32 && s.hasArena) .violation
  | .pfxins _ _ _ _ => need s.hasArena .violation
  | .strunc _ _ x t => need (below (s.rdX x) 12 && below (s.rdX t) 32 && s.streamOpen s.hcid (s.rdX x).toNat) .violation
  | .scommit _ _ x t =>
      need (below (s.rdX x) 13 && below (s.rdX t) 32 && s.streamOpen s.hcid ((s.rdX x).toNat % 4096)) .violation
  | .sframe _ _ a t =>
      firstStop [need ((s.rdX t).toNat / 4096 % 16 == 0 && s.streamOpen s.hcid ((s.rdX t).toNat % 4096)) .violation,
        s.extentStop storeReach (s.ea a 0) 4 (4 * ((s.rdX t).toNat / 2 ^ 48))]
  | .btsnap _ a t =>
      firstStop [need (decide (1 ≤ (s.rdX t).toNat ∧ (s.rdX t).toNat ≤ 4096)) .violation,
        s.extentStop storeReach (s.ea a 0) 16 (48 * (s.rdX t).toNat)]
  | .obsel _ _ => need s.bucketFor.isSome .violation
  | .stage _ x => need (decide ((s.rdX x).toNat < 2 ^ 16)) .violation
  | .tokclr _ x => need (decide ((s.rdX x).toNat < 2 ^ 8)) .violation
  | .bar _ x => need (decide ((s.rdX x).toNat < 2 ^ 4)) .violation
  | .lnscfg _ x t => need (decide ((s.rdX x).toNat < 2 ^ 7) && s.lnscfgOk (s.rdX x) (s.rdX t)) .violation
  | .lnsrun _ x => need (s.lnsrunOk (s.rdX x)) .violation
  | .seqlen _ x => need (decide ((s.rdX x).toNat < 2 ^ 20)) .violation
  | .cntrd _ _ x => need (cntrdOk (s.rdX x)) .violation
  | .cntclr _ x => need (decide (0x40 ≤ (s.rdX x).toNat ∧ (s.rdX x).toNat ≤ 0x48)) .violation
  | .resume _ x => need (decide ((s.rdX x).toNat < 2 ^ 34)) .violation
  | .fqpop _ _ a => s.extentStop storeReach (s.ea a 0) 64 64
  | _ => none

/-! ### Waits at issue (R52, R116, R117) -/

/-- Whether a register of the front end has its pending bit set (R117, R149). -/
def isPending (t : Strand) : GReg → Bool
  | .x n => t.pend.x.toList.getD n false
  | .p n => t.pend.p.toList.getD n false
  | .b n => t.pend.b.toList.getD n false
  | _ => false

/-- Whether a slot's registers hold its bundle at issue; the guard of a queued slot does not (R117, R119). -/
def pendingWait (s : State) (queued : Bool) (i : Instr) : Bool :=
  (((bodyRefs i).map (·.reg)) ++ (match i.guard? with
    | some g => if queued then [] else [.p g.p.val]
    | none => [])).any (isPending s.me) ||
  ((readsOcc i || writesOcc i) && s.me.pend.occ)

/-- Whether a token is armed or faulted (R282, R411). -/
def tokBusy (t : Strand) (k : Nat) : Bool :=
  match (t.tokens.toList.getD k Token.reset).st with
  | .armed | .faulted => true
  | _ => false

/-- Whether an unconsumed matrix operation of the strand's own core holds a bank locked (R212). -/
def coreLocks (s : State) (b : Nat × Nat) : Bool :=
  s.mmas.any (fun m => !m.consumed && m.core == s.ctx.core && m.banks.contains (b.1 * 128 + b.2))

/-- Whether a bank of a store's target is locked by its own core's matrix operations, which holds the bundle at issue (R212). -/
def storeLocked (s : State) (va n : Nat) : Bool :=
  match spotOf s.ctx.core va with
  | .scr addr => (banksOf addr n).any s.coreLocks
  | _ => false

/-- The bank a push's target slots lie in (R345, R370). -/
def pushBank (s : State) (q : Nat) : Option (Nat × Nat) :=
  match s.pushDesc q, s.launchOf s.meKey with
  | some p, some l => (l.members[p.cons]?).map (fun m => (clusterOf m.core, 32 * column m.core + p.bank))
  | _, _ => none

/-- The wait of a push whose first checks hold: its queue is full, or its target bank is locked by its own core (R212, R345). -/
def pushWaits (s : State) (i : Instr) (n q : Nat) : Bool :=
  n != 0 && (s.issueStop i).isNone &&
  ((match s.pushDesc q with
    | some p => decide (depthOf p < ((s.pushQ q).res - (s.pushQ q).headc).toNat + n)
    | none => false) ||
   (match s.pushBank q with
    | some b => s.coreLocks b
    | none => false))

/-- The wait of a slot beyond its pending registers and queue room (R52, R211, R212, R282, R345, R413, R416). -/
def slotWait (s : State) (i : Instr) : Bool :=
  (match i.token? with | some k => tokBusy s.me k.val | none => false) ||
  (match i.tile? with | some (t, _) => (s.core s.ctx.core).busy.mem (s.me.tb + t.val) | none => false) ||
  (match i with
   | .st _ z _ a o => s.storeLocked (s.ea a o.s72) z.bytes
   | .stv _ _ a o | .stvFe _ _ a o => s.storeLocked (s.ea a o.s72) (4 * s.lanes)
   | .setfe _ d a | .clrfe _ d a => s.storeLocked (s.ea a 0) (s.rdX d).toNat
   | .push _ d _ t => s.pushWaits i (s.rdX d).toNat (s.rdX t).toNat
   | .mma _ _ a b xm xn xk f | .mmat _ _ a b xm xn xk f =>
       (s.rdX xm != 0 && s.rdX xn != 0 && s.rdX xk != 0) &&
       (match spotOf s.ctx.core (s.ea a 0), spotOf s.ctx.core (s.ea b 0) with
        | .scr x, .scr y => ((banksOf x (f.extent (s.rdX xk).toNat)) ++ banksOf y (s.g * f.extent (s.rdX xk).toNat)).any
            (fun e => decide (127 ≤ (s.bank e.1 e.2).lock))
        | _, _ => false)
   | .tokclr _ x => (List.range 8).any (fun k => (s.rdX x).getLsbD k && tokBusy s.me k)
   | .bar _ _ => s.me.ops.any (fun o => match o.instr with
       | .fenceAcq _ _ | .fenceRel _ _ | .fenceFull _ _ | .drain _ _ => true
       | _ => false)
   | _ => false)

/-! ### One slot operation as an instruction of its own -/

/-- Whether a form sets SIDE of its launch before it leaves its queue (R454). -/
def sideForm : Instr → Bool
  | .notify _ _ _ | .launch _ _ _ | .evpost _ _ _ | .atom _ _ _ _ _ _ | .cas _ _ _ _ _ | .red _ _ _ _ _ _
  | .kvlook _ _ _ _ | .kvapp _ _ _ _ | .kvfork _ _ _ _ | .kvtrunc _ _ _ _ | .kvfree _ _ _ | .pfxfind _ _ _ _ | .pfxins _ _ _ _
  | .strunc _ _ _ _ | .scommit _ _ _ _ | .sframe _ _ _ _ | .btsnap _ _ _ | .obsel _ _ => true
  | _ => false

/-- SIDE set for the launch of the strand being acted for (R454). -/
def noteSide (s : State) (i : Instr) : State :=
  if sideForm i then s.modLaunch s.me.launch (fun l => { l with side := true }) else s

/-- A slot operation run on the strand being acted for. Inside the machine, where its issue tests have been passed, it is its effect. On its own it is first tested as at issue: a false guard performs nothing, a stop is taken, a wait leaves the state as it is (R105, R117, R500, log entry 3, log entry 82). -/
def slotOp (i : Instr) (g : Guard) (eff : State → State) (s : State) : Host.Outcome State Fault Refusal :=
  if s.ctx.admitted then .next (eff s)
  else if s.pendingWait false i then .next s.wait
  else if !i.always && !s.holds g then .next s
  else if s.slotWait i then .next s.wait
  else match s.issueStop i with
    | some e => .next (s.stopAt e)
    | none => .next (eff (s.noteSide i))

end State

end Sys2Proof.Machine
end

