-- ==== Sys2Proof/Machine/Scalar.lean ====
section
/-! DEFINITION. The S-slot forms: integer, floating, predicate, branch and address operations, and the special registers (spec 06 R157 to R179). -/

namespace Sys2Proof.Machine

namespace State

/-! ### Shared effects -/

/-- The shift count of a register form: bits [5:0] (R159). -/
def shiftCount (u : XWord) : Nat := u.toNat % 64
def shlX (s u : XWord) : XWord := s <<< shiftCount u
def shrX (s u : XWord) : XWord := s >>> shiftCount u
def shraX (s u : XWord) : XWord := s.sshiftRight (shiftCount u)
def rolX (s u : XWord) : XWord := s.rotateLeft (shiftCount u)

/-- xD := f xS xT (R157). -/
def xop (f : XWord → XWord → XWord) (d a b : XReg) (s : State) : State := s.wrX d (f (s.rdX a) (s.rdX b))
/-- xD := f xS u, u an extended immediate (R156, R157). -/
def xopImm (f : XWord → XWord → XWord) (d a : XReg) (u : XWord) (s : State) : State := s.wrX d (f (s.rdX a) u)
/-- xD := f xS (R160). -/
def xop1 (f : XWord → XWord) (d a : XReg) (s : State) : State := s.wrX d (f (s.rdX a))

/-- The rounding mode FMODE selects (R129, R153). -/
def fmodeOf (s : State) : Mode := Mode.ofBits s.front.fmode
/-- The fp32 value in an x register's low half (R168). -/
def rdF (s : State) (r : XReg) : XVal := f32 ((s.rdX r).setWidth 32)
/-- An exact fp32 result rounded by FMODE into xD, its flags to FSTAT (R168, R169). -/
def wrF (d : XReg) (r : XVal × Fl) (s : State) : State :=
  let c := fp32.round s.fmodeOf r.1
  (s.wrX d (BitVec.ofNat 64 c.1)).addFlags (r.2 ||| c.2)

/-- pD := f pS pT (R166). -/
def pop2 (f : Bool → Bool → Bool) (d a b : PReg) (s : State) : State := s.wrP d (f (s.rdP a) (s.rdP b))

/-- A binding-table entry as BINDENT gives it (R34). -/
def bindWord (e : BindEnt) : XWord :=
  BitVec.ofNat 64 (packBits [(e.bgen.toNat, 8), (e.wcode.toNat, 2), (e.role.toNat, 2), (e.driver.toNat, 7),
    (e.repaired.toNat, 1), (e.halfhi.toNat, 7), (e.halflo.toNat, 7), (0, 14)])

/-- A special register's value as it stands (R151, R178). -/
def getsOf (s : State) : SReg → XWord
  | .core => BitVec.ofNat 64 s.ctx.core
  | .strand => BitVec.ofNat 64 s.ctx.strand
  | .gang => s.me.gang.setWidth 64
  | .member => BitVec.ofNat 64 s.me.member
  | .width => BitVec.ofNat 64 s.g
  | .hcid => BitVec.ofNat 64 s.me.hc
  | .fstat => s.front.fstat.setWidth 64
  | .fmode => s.front.fmode.setWidth 64
  | .seqlen => s.front.seqlen.setWidth 64
  | .occ => s.front.occ.setWidth 64
  | .draft => s.front.draft.setWidth 64
  | .scnt => s.front.scnt.setWidth 64
  | .cycle => (s.core s.ctx.core).cycle
  | .segsig => s.me.segsig.setWidth 64
  | .bindsel => s.front.bindsel.setWidth 64
  | .bindent => bindWord (s.bindEnt s.front.bindsel.toNat)

/-- A special register written; bits in reserved fields are ignored (R3, R179). -/
def putsTo (r : SReg) (v : XWord) (s : State) : State :=
  match r with
  | .fstat => s.modMe (fun t => { t with front := { t.front with fstat := v.setWidth 5 } })
  | .fmode => s.modMe (fun t => { t with front := { t.front with fmode := v.setWidth 2 } })
  | .bindsel => s.modMe (fun t => { t with front := { t.front with bindsel := v.setWidth 7 } })
  | _ => s

/-- A taken branch: its target joins the redirect queue, due three bundles on; the count already includes the branch's own bundle (R172). -/
def branchTo (b : Word32) (s : State) : State :=
  s.modMe (fun t => { t with redirects := t.redirects ++ [⟨t.count + 3, b⟩] })

/-- The bundle index four steps of R77 past the strand's bundle (R173). -/
def linkOf (s : State) : XWord := (seqStep s.stream 4 s.me.pc).setWidth 64

end State

/-! ### Meanings -/

/-- ADD: xD := s + u (R157). -/
def execAdd (g : Guard) (d a b : XReg) (s : State) : Host.Outcome State Fault Refusal :=
  s.slotOp (.add g d a b) g (State.xop (fun s u => s + u) d a b)

/-- ADD with an immediate (R156, R157). -/
def execAddImm (g : Guard) (d a : XReg) (i : Imm) (s : State) : Host.Outcome State Fault Refusal :=
  s.slotOp (.addImm g d a i) g (State.xopImm (fun s u => s + u) d a i.s64)

/-- SUB: xD := s − u (R157). -/
def execSub (g : Guard) (d a b : XReg) (s : State) : Host.Outcome State Fault Refusal :=
  s.slotOp (.sub g d a b) g (State.xop (fun s u => s - u) d a b)

/-- SUB with an immediate (R156, R157). -/
def execSubImm (g : Guard) (d a : XReg) (i : Imm) (s : State) : Host.Outcome State Fault Refusal :=
  s.slotOp (.subImm g d a i) g (State.xopImm (fun s u => s - u) d a i.s64)

/-- MUL: xD := the low 64 bits of the product (R157). -/
def execMul (g : Guard) (d a b : XReg) (s : State) : Host.Outcome State Fault Refusal :=
  s.slotOp (.mul g d a b) g (State.xop (fun s u => s * u) d a b)

/-- MUL with an immediate (R156, R157). -/
def execMulImm (g : Guard) (d a : XReg) (i : Imm) (s : State) : Host.Outcome State Fault Refusal :=
  s.slotOp (.mulImm g d a i) g (State.xopImm (fun s u => s * u) d a i.s64)

/-- MULH: xD := bits 127 to 64 of the signed product (R157). -/
def execMulh (g : Guard) (d a b : XReg) (s : State) : Host.Outcome State Fault Refusal :=
  s.slotOp (.mulh g d a b) g (State.xop mulhS d a b)

/-- MULH with an immediate (R156, R157). -/
def execMulhImm (g : Guard) (d a : XReg) (i : Imm) (s : State) : Host.Outcome State Fault Refusal :=
  s.slotOp (.mulhImm g d a i) g (State.xopImm mulhS d a i.s64)

/-- MULHN: xD := bits 127 to 64 of the natural product (R157). -/
def execMulhn (g : Guard) (d a b : XReg) (s : State) : Host.Outcome State Fault Refusal :=
  s.slotOp (.mulhn g d a b) g (State.xop mulhN d a b)

/-- MULHN with an immediate (R156, R157). -/
def execMulhnImm (g : Guard) (d a : XReg) (i : Imm) (s : State) : Host.Outcome State Fault Refusal :=
  s.slotOp (.mulhnImm g d a i) g (State.xopImm mulhN d a i.n64)

/-- DIV: xD := the signed quotient (R157). -/
def execDiv (g : Guard) (d a b : XReg) (s : State) : Host.Outcome State Fault Refusal :=
  s.slotOp (.div g d a b) g (State.xop divS d a b)

/-- DIV with an immediate (R156, R157). -/
def execDivImm (g : Guard) (d a : XReg) (i : Imm) (s : State) : Host.Outcome State Fault Refusal :=
  s.slotOp (.divImm g d a i) g (State.xopImm divS d a i.s64)

/-- DIVN: xD := the natural quotient (R157). -/
def execDivn (g : Guard) (d a b : XReg) (s : State) : Host.Outcome State Fault Refusal :=
  s.slotOp (.divn g d a b) g (State.xop divN d a b)

/-- DIVN with an immediate (R156, R157). -/
def execDivnImm (g : Guard) (d a : XReg) (i : Imm) (s : State) : Host.Outcome State Fault Refusal :=
  s.slotOp (.divnImm g d a i) g (State.xopImm divN d a i.n64)

/-- REM: xD := the signed remainder (R157). -/
def execRem (g : Guard) (d a b : XReg) (s : State) : Host.Outcome State Fault Refusal :=
  s.slotOp (.rem g d a b) g (State.xop remS d a b)

/-- REM with an immediate (R156, R157). -/
def execRemImm (g : Guard) (d a : XReg) (i : Imm) (s : State) : Host.Outcome State Fault Refusal :=
  s.slotOp (.remImm g d a i) g (State.xopImm remS d a i.s64)

/-- REMN: xD := the natural remainder (R157). -/
def execRemn (g : Guard) (d a b : XReg) (s : State) : Host.Outcome State Fault Refusal :=
  s.slotOp (.remn g d a b) g (State.xop remN d a b)

/-- REMN with an immediate (R156, R157). -/
def execRemnImm (g : Guard) (d a : XReg) (i : Imm) (s : State) : Host.Outcome State Fault Refusal :=
  s.slotOp (.remnImm g d a i) g (State.xopImm remN d a i.n64)

/-- AND: xD := s and u (R157). -/
def execAnd (g : Guard) (d a b : XReg) (s : State) : Host.Outcome State Fault Refusal :=
  s.slotOp (.and g d a b) g (State.xop (fun s u => s &&& u) d a b)

/-- AND with an immediate (R156, R157). -/
def execAndImm (g : Guard) (d a : XReg) (i : Imm) (s : State) : Host.Outcome State Fault Refusal :=
  s.slotOp (.andImm g d a i) g (State.xopImm (fun s u => s &&& u) d a i.s64)

/-- OR: xD := s or u (R157). -/
def execOr (g : Guard) (d a b : XReg) (s : State) : Host.Outcome State Fault Refusal :=
  s.slotOp (.or g d a b) g (State.xop (fun s u => s ||| u) d a b)

/-- OR with an immediate (R156, R157). -/
def execOrImm (g : Guard) (d a : XReg) (i : Imm) (s : State) : Host.Outcome State Fault Refusal :=
  s.slotOp (.orImm g d a i) g (State.xopImm (fun s u => s ||| u) d a i.s64)

/-- XOR: xD := s xor u (R157). -/
def execXor (g : Guard) (d a b : XReg) (s : State) : Host.Outcome State Fault Refusal :=
  s.slotOp (.xor g d a b) g (State.xop (fun s u => s ^^^ u) d a b)

/-- XOR with an immediate (R156, R157). -/
def execXorImm (g : Guard) (d a : XReg) (i : Imm) (s : State) : Host.Outcome State Fault Refusal :=
  s.slotOp (.xorImm g d a i) g (State.xopImm (fun s u => s ^^^ u) d a i.s64)

/-- ANDN: xD := s and not u (R157). -/
def execAndn (g : Guard) (d a b : XReg) (s : State) : Host.Outcome State Fault Refusal :=
  s.slotOp (.andn g d a b) g (State.xop (fun s u => s &&& ~~~u) d a b)

/-- ANDN with an immediate (R156, R157). -/
def execAndnImm (g : Guard) (d a : XReg) (i : Imm) (s : State) : Host.Outcome State Fault Refusal :=
  s.slotOp (.andnImm g d a i) g (State.xopImm (fun s u => s &&& ~~~u) d a i.s64)

/-- SHL: xD := s shifted left (R157). -/
def execShl (g : Guard) (d a b : XReg) (s : State) : Host.Outcome State Fault Refusal :=
  s.slotOp (.shl g d a b) g (State.xop State.shlX d a b)

/-- SHL with an immediate (R156, R157). -/
def execShlImm (g : Guard) (d a : XReg) (i : Imm) (s : State) : Host.Outcome State Fault Refusal :=
  s.slotOp (.shlImm g d a i) g (State.xopImm State.shlX d a i.n64)

/-- SHR: xD := s shifted right (R157). -/
def execShr (g : Guard) (d a b : XReg) (s : State) : Host.Outcome State Fault Refusal :=
  s.slotOp (.shr g d a b) g (State.xop State.shrX d a b)

/-- SHR with an immediate (R156, R157). -/
def execShrImm (g : Guard) (d a : XReg) (i : Imm) (s : State) : Host.Outcome State Fault Refusal :=
  s.slotOp (.shrImm g d a i) g (State.xopImm State.shrX d a i.n64)

/-- SHRA: xD := s shifted right with copies of bit 63 (R157). -/
def execShra (g : Guard) (d a b : XReg) (s : State) : Host.Outcome State Fault Refusal :=
  s.slotOp (.shra g d a b) g (State.xop State.shraX d a b)

/-- SHRA with an immediate (R156, R157). -/
def execShraImm (g : Guard) (d a : XReg) (i : Imm) (s : State) : Host.Outcome State Fault Refusal :=
  s.slotOp (.shraImm g d a i) g (State.xopImm State.shraX d a i.n64)

/-- ROL: xD := s rotated left (R157). -/
def execRol (g : Guard) (d a b : XReg) (s : State) : Host.Outcome State Fault Refusal :=
  s.slotOp (.rol g d a b) g (State.xop State.rolX d a b)

/-- ROL with an immediate (R156, R157). -/
def execRolImm (g : Guard) (d a : XReg) (i : Imm) (s : State) : Host.Outcome State Fault Refusal :=
  s.slotOp (.rolImm g d a i) g (State.xopImm State.rolX d a i.n64)

/-- MIN: xD := the signed minimum (R157). -/
def execMin (g : Guard) (d a b : XReg) (s : State) : Host.Outcome State Fault Refusal :=
  s.slotOp (.min g d a b) g (State.xop minS d a b)

/-- MIN with an immediate (R156, R157). -/
def execMinImm (g : Guard) (d a : XReg) (i : Imm) (s : State) : Host.Outcome State Fault Refusal :=
  s.slotOp (.minImm g d a i) g (State.xopImm minS d a i.s64)

/-- MAX: xD := the signed maximum (R157). -/
def execMax (g : Guard) (d a b : XReg) (s : State) : Host.Outcome State Fault Refusal :=
  s.slotOp (.max g d a b) g (State.xop maxS d a b)

/-- MAX with an immediate (R156, R157). -/
def execMaxImm (g : Guard) (d a : XReg) (i : Imm) (s : State) : Host.Outcome State Fault Refusal :=
  s.slotOp (.maxImm g d a i) g (State.xopImm maxS d a i.s64)

/-- MINN: xD := the natural minimum (R157). -/
def execMinn (g : Guard) (d a b : XReg) (s : State) : Host.Outcome State Fault Refusal :=
  s.slotOp (.minn g d a b) g (State.xop minN d a b)

/-- MINN with an immediate (R156, R157). -/
def execMinnImm (g : Guard) (d a : XReg) (i : Imm) (s : State) : Host.Outcome State Fault Refusal :=
  s.slotOp (.minnImm g d a i) g (State.xopImm minN d a i.n64)

/-- MAXN: xD := the natural maximum (R157). -/
def execMaxn (g : Guard) (d a b : XReg) (s : State) : Host.Outcome State Fault Refusal :=
  s.slotOp (.maxn g d a b) g (State.xop maxN d a b)

/-- MAXN with an immediate (R156, R157). -/
def execMaxnImm (g : Guard) (d a : XReg) (i : Imm) (s : State) : Host.Outcome State Fault Refusal :=
  s.slotOp (.maxnImm g d a i) g (State.xopImm maxN d a i.n64)

/-- CLZ: leading zero bits of xS (R160). -/
def execClz (g : Guard) (d a : XReg) (s : State) : Host.Outcome State Fault Refusal :=
  s.slotOp (.clz g d a) g (State.xop1 clz64 d a)

/-- CTZ: trailing zero bits of xS (R160). -/
def execCtz (g : Guard) (d a : XReg) (s : State) : Host.Outcome State Fault Refusal :=
  s.slotOp (.ctz g d a) g (State.xop1 ctz64 d a)

/-- POPC: one bits of xS (R160). -/
def execPopc (g : Guard) (d a : XReg) (s : State) : Host.Outcome State Fault Refusal :=
  s.slotOp (.popc g d a) g (State.xop1 popc64 d a)

/-- ABS: the magnitude of xS (R160). -/
def execAbs (g : Guard) (d a : XReg) (s : State) : Host.Outcome State Fault Refusal :=
  s.slotOp (.abs g d a) g (State.xop1 absS d a)

/-- SEXT: xS[n:0] sign-extended (R160). -/
def execSext (g : Guard) (d a : XReg) (n : BitVec 6) (s : State) : Host.Outcome State Fault Refusal :=
  s.slotOp (.sext g d a n) g (State.xop1 (fun w => sextAt w n.toNat) d a)

/-- ZEXT: xS[n:0] zero-extended (R160). -/
def execZext (g : Guard) (d a : XReg) (n : BitVec 6) (s : State) : Host.Outcome State Fault Refusal :=
  s.slotOp (.zext g d a n) g (State.xop1 (fun w => zextAt w n.toNat) d a)

/-- BFX: a field of xS, sign-extended (R161). -/
def execBfx (g : Guard) (d a b : XReg) (s : State) : Host.Outcome State Fault Refusal :=
  s.slotOp (.bfx g d a b) g (State.xop bfxS d a b)

/-- BFX.N: a field of xS, zero-extended (R161). -/
def execBfxN (g : Guard) (d a b : XReg) (s : State) : Host.Outcome State Fault Refusal :=
  s.slotOp (.bfxN g d a b) g (State.xop bfxN d a b)

/-- BFI: a field of xD replaced; xD is read (R161). -/
def execBfi (g : Guard) (d a b : XReg) (s : State) : Host.Outcome State Fault Refusal :=
  s.slotOp (.bfi g d a b) g (fun s => s.wrX d (bfiX (s.rdX d) (s.rdX a) (s.rdX b)))

/-- SEL: xS when its condition holds, xT otherwise; it always performs (R162). -/
def execSel (g : Guard) (d a b : XReg) (s : State) : Host.Outcome State Fault Refusal :=
  s.slotOp (.sel g d a b) g (fun s => s.wrX d (if s.holds g then s.rdX a else s.rdX b))

/-- LI: the immediate, signed (R163). -/
def execLi (g : Guard) (d : XReg) (i : Imm) (s : State) : Host.Outcome State Fault Refusal :=
  s.slotOp (.li g d i) g (fun s => s.wrX d i.s64)

/-- FADD: Round(xS + xT) (R169). -/
def execFadd (g : Guard) (d a b : XReg) (s : State) : Host.Outcome State Fault Refusal :=
  s.slotOp (.fadd g d a b) g (fun s => s.wrF d (XVal.add s.fmodeOf (s.rdF a) (s.rdF b)))

/-- FSUB: Round(xS − xT) (R169). -/
def execFsub (g : Guard) (d a b : XReg) (s : State) : Host.Outcome State Fault Refusal :=
  s.slotOp (.fsub g d a b) g (fun s => s.wrF d (XVal.add s.fmodeOf (s.rdF a) (s.rdF b).neg))

/-- FMUL: Round(xS × xT) (R169). -/
def execFmul (g : Guard) (d a b : XReg) (s : State) : Host.Outcome State Fault Refusal :=
  s.slotOp (.fmul g d a b) g (fun s => s.wrF d ((s.rdF a).mul (s.rdF b)))

/-- FFMA: Round(xD + xS × xT), one rounding; xD is read (R169). -/
def execFfma (g : Guard) (d a b : XReg) (s : State) : Host.Outcome State Fault Refusal :=
  s.slotOp (.ffma g d a b) g (fun s => s.wrF d (XVal.fma s.fmodeOf (s.rdF d) (s.rdF a) (s.rdF b)))

/-- FMIN: the minimum of R134, no flag (R169). -/
def execFmin (g : Guard) (d a b : XReg) (s : State) : Host.Outcome State Fault Refusal :=
  s.slotOp (.fmin g d a b) g (State.xop (fun x y => BitVec.ofNat 64 (fp32.minBits (x.toNat % 2 ^ 32) (y.toNat % 2 ^ 32))) d a b)

/-- FMAX: the maximum of R134, no flag (R169). -/
def execFmax (g : Guard) (d a b : XReg) (s : State) : Host.Outcome State Fault Refusal :=
  s.slotOp (.fmax g d a b) g (State.xop (fun x y => BitVec.ofNat 64 (fp32.maxBits (x.toNat % 2 ^ 32) (y.toNat % 2 ^ 32))) d a b)

/-- CVTF: int64 to fp32 (R170). -/
def execCvtf (g : Guard) (d a : XReg) (s : State) : Host.Outcome State Fault Refusal :=
  s.slotOp (.cvtf g d a) g (fun s => s.wrF d (XVal.ofInt (s.rdX a).toInt, 0))

/-- CVTF.N: natural int64 to fp32 (R170). -/
def execCvtfN (g : Guard) (d a : XReg) (s : State) : Host.Outcome State Fault Refusal :=
  s.slotOp (.cvtfN g d a) g (fun s => s.wrF d (XVal.ofInt ((s.rdX a).toNat : Int), 0))

/-- CVTI: fp32 to int64, rounded by FMODE and saturated (R132, R170). -/
def execCvti (g : Guard) (d a : XReg) (s : State) : Host.Outcome State Fault Refusal :=
  s.slotOp (.cvti g d a) g (fun s =>
    let r := (s.rdF a).toInt s.fmodeOf (-(2 ^ 63)) (2 ^ 63 - 1)
    (s.wrX d (BitVec.ofInt 64 r.1)).addFlags r.2)

/-- CVTI.N: fp32 to natural int64, rounded by FMODE and saturated (R132, R170). -/
def execCvtiN (g : Guard) (d a : XReg) (s : State) : Host.Outcome State Fault Refusal :=
  s.slotOp (.cvtiN g d a) g (fun s =>
    let r := (s.rdF a).toInt s.fmodeOf 0 (2 ^ 64 - 1)
    (s.wrX d (BitVec.ofInt 64 r.1)).addFlags r.2)

/-- PAND: pS and pT (R166). -/
def execPand (g : Guard) (d a b : PReg) (s : State) : Host.Outcome State Fault Refusal :=
  s.slotOp (.pand g d a b) g (State.pop2 (fun a b => a && b) d a b)

/-- POR: pS or pT (R166). -/
def execPor (g : Guard) (d a b : PReg) (s : State) : Host.Outcome State Fault Refusal :=
  s.slotOp (.por g d a b) g (State.pop2 (fun a b => a || b) d a b)

/-- PXOR: pS xor pT (R166). -/
def execPxor (g : Guard) (d a b : PReg) (s : State) : Host.Outcome State Fault Refusal :=
  s.slotOp (.pxor g d a b) g (State.pop2 (fun a b => a != b) d a b)

/-- PANDN: pS and not pT (R166). -/
def execPandn (g : Guard) (d a b : PReg) (s : State) : Host.Outcome State Fault Refusal :=
  s.slotOp (.pandn g d a b) g (State.pop2 (fun a b => a && !b) d a b)

/-- PGET: the sixteen predicates in xD[15:0] (R167). -/
def execPget (g : Guard) (d : XReg) (s : State) : Host.Outcome State Fault Refusal :=
  s.slotOp (.pget g d) g (fun s => s.wrX d (BitVec.ofFnLE (fun n : Fin 16 => s.rdP n) |>.setWidth 64))

/-- PSET: p1 to p15 from xS[15:1] (R167). -/
def execPset (g : Guard) (a : XReg) (s : State) : Host.Outcome State Fault Refusal :=
  s.slotOp (.pset g a) g (fun s =>
    let w := s.rdX a
    s.modMe (fun t => { t with front := { t.front with p := Vector.ofFn (fun n : Fin 16 => n.val == 0 || w.getLsbD n.val) } }))

/-- PTB: bD := the target index (R171). -/
def execPtb (g : Guard) (d : BReg) (i : Imm) (s : State) : Host.Outcome State Fault Refusal :=
  s.slotOp (.ptb g d i) g (fun s => s.wrB d (i.n64.setWidth 32))

/-- PTBX: bD := xS[31:0] (R171). -/
def execPtbx (g : Guard) (d : BReg) (a : XReg) (s : State) : Host.Outcome State Fault Refusal :=
  s.slotOp (.ptbx g d a) g (fun s => s.wrB d ((s.rdX a).setWidth 32))

/-- BR: the branch is taken, after three delay bundles (R172). -/
def execBr (g : Guard) (b : BReg) (s : State) : Host.Outcome State Fault Refusal :=
  s.slotOp (.br g b) g (fun s => s.branchTo (s.rdB b))

/-- BRL: BR, and xD := the index after the third delay bundle (R173). -/
def execBrl (g : Guard) (d : XReg) (b : BReg) (s : State) : Host.Outcome State Fault Refusal :=
  s.slotOp (.brl g d b) g (fun s => (s.branchTo (s.rdB b)).wrX d s.linkOf)

/-- TRAP: a software trap carrying the code; its issue check takes it, and with a false guard nothing happens (R176). -/
def execTrap (g : Guard) (i : Imm) (s : State) : Host.Outcome State Fault Refusal :=
  s.slotOp (.trap g i) g (fun s => s.takeTrap 8 i.n64.toNat 0)

/-- AADD: aS plus xT, sign-extended (R177). -/
def execAadd (g : Guard) (d a : AReg) (b : XReg) (s : State) : Host.Outcome State Fault Refusal :=
  s.slotOp (.aadd g d a b) g (fun s => s.wrA d (s.rdA a + (s.rdX b).signExtend 72))

/-- AADD with an immediate (R177). -/
def execAaddImm (g : Guard) (d a : AReg) (i : Imm) (s : State) : Host.Outcome State Fault Refusal :=
  s.slotOp (.aaddImm g d a i) g (fun s => s.wrA d (s.rdA a + i.s72))

/-- ASET: xS sign-extended to 72 bits (R177). -/
def execAset (g : Guard) (d : AReg) (a : XReg) (s : State) : Host.Outcome State Fault Refusal :=
  s.slotOp (.aset g d a) g (fun s => s.wrA d ((s.rdX a).signExtend 72))

/-- AGET: aS[63:0] (R177). -/
def execAget (g : Guard) (d : XReg) (a : AReg) (s : State) : Host.Outcome State Fault Refusal :=
  s.slotOp (.aget g d a) g (fun s => s.wrX d ((s.rdA a).setWidth 64))

/-- ALEA: bits [71:64] from xT[7:0], the rest from aS (R177). -/
def execAlea (g : Guard) (d a : AReg) (b : XReg) (s : State) : Host.Outcome State Fault Refusal :=
  s.slotOp (.alea g d a b) g (fun s => s.wrA d (((s.rdX b).setWidth 8 : BitVec 8) ++ ((s.rdA a).setWidth 64 : BitVec 64)))

/-- CMP: the condition between xS and xT (R164). -/
def execCmp (g : Guard) (c : Cond) (d : PReg) (a b : XReg) (s : State) : Host.Outcome State Fault Refusal :=
  s.slotOp (.cmp g c d a b) g (fun s => s.wrP d (condX c (s.rdX a) (s.rdX b)))

/-- The immediate of CMP: natural for codes 6 to 9, signed otherwise (R156). -/
def State.cmpImmOf (c : Cond) (i : Imm) : XWord :=
  match c with
  | .ltn | .len | .gtn | .gen => i.n64
  | _ => i.s64

/-- CMP with an immediate (R164). -/
def execCmpImm (g : Guard) (c : Cond) (d : PReg) (a : XReg) (i : Imm) (s : State) : Host.Outcome State Fault Refusal :=
  s.slotOp (.cmpImm g c d a i) g (fun s => s.wrP d (condX c (s.rdX a) (State.cmpImmOf c i)))

/-- FCMP: the condition between two fp32 values, no flag (R165). -/
def execFcmp (g : Guard) (c : Cond) (d : PReg) (a b : XReg) (s : State) : Host.Outcome State Fault Refusal :=
  s.slotOp (.fcmp g c d a b) g (fun s => s.wrP d (XVal.test c (s.rdF a) (s.rdF b)))

/-- GETS: a special register, zero-extended (R178). -/
def execGets (g : Guard) (d : XReg) (r : SReg) (s : State) : Host.Outcome State Fault Refusal :=
  s.slotOp (.gets g d r) g (fun s => s.wrX d (s.getsOf r))

/-- PUTS: FSTAT, FMODE or BINDSEL written (R179). -/
def execPuts (g : Guard) (a : XReg) (r : SReg) (s : State) : Host.Outcome State Fault Refusal :=
  s.slotOp (.puts g a r) g (fun s => s.putsTo r (s.rdX a))

end Sys2Proof.Machine
end

