-- ==== Sys2Proof/Machine/Loads.lean ====
section
/-! DEFINITION. The A-slot forms: loads, stores, full-empty forms, gathers, parks, atomics, check-outs (spec 10 R264 to R281). -/

namespace Sys2Proof.Machine

/-- Bytes as little-endian 32-bit words (R1). -/
def wordsOf : List Byte → List Word32
  | a :: b :: c :: d :: bs => BitVec.ofNat 32 (leNat [a, b, c, d]) :: wordsOf bs
  | _ => []

/-- Words in the lanes from lane 0 up, zero above. -/
def lanesOf (ws : List Word32) : Lanes := Vector.ofFn (fun l : Fin 512 => ws.getD l.val 0)

/-- The bytes of the first n lanes (R266). -/
def laneBytes (n : Nat) (v : Lanes) : List Byte := (v.toList.take n).flatMap (fun w => leBytes 4 w.toNat)

namespace State

/-- The latency class of a byte's place: local 0, cluster 1, HBM 2, pool 3, host 4 (R501). -/
def byteClass (s : State) (va : Nat) : Nat :=
  match spotOf s.ctx.core va with
  | .scr addr => if s.ownBank addr then 0 else 1
  | .acc _ => 0
  | .fifo _ b => if s.ownBank (bankAddr (clusterOf s.ctx.core) (b * 65536)) then 0 else 1
  | _ => match s.placeOf va with
    | some pa => (match pkind pa with | .pool => 3 | .host => 4 | _ => 2)
    | none => 2

/-- The latency class of a landing whose data comes from some pieces, each within one bank or page or cut there: the furthest class among them (R501, log entry 86). -/
def landClass (s : State) (ps : List (Nat × Nat)) : Nat :=
  (ps.flatMap (fun p => (pagesOf p.1 p.2).map (fun c => s.byteClass c.1))).foldl max 0

/-- The value a scalar load gives from its bytes (R264). -/
def loadValue (z : Size) (natural : Bool) (bs : List Byte) : XWord :=
  let v := BitVec.ofNat 64 (leNat bs)
  if natural then v else sextAt v (8 * z.bytes - 1)

/-- LD: the bytes at EA, landing L bundles on (R263, R264). -/
def loadX (z : Size) (natural : Bool) (d : XReg) (a : AReg) (l : Land) (s : State) : State :=
  let va := s.ea a l.off
  (load va z.bytes s).run (fun bs s => s.land (.x d) l.dist (s.landClass [(va, z.bytes)]) (.x (loadValue z natural bs)))

/-- LDV: four bytes to each lane (R266). -/
def loadV (d : VReg) (a : AReg) (l : Land) (s : State) : State :=
  let va := s.ea a l.off
  (load va (4 * s.lanes) s).run (fun bs s => s.land (.v d) l.dist (s.landClass [(va, 4 * s.lanes)]) (.v (lanesOf (wordsOf bs))))

/-- LDV.FE: waits until every granule of the extent is full, reads them in one act, and takes or keeps them (R267). -/
def loadFe (take one : Bool) (d : VReg) (a : AReg) (l : Land) (s : State) : State :=
  let va := s.ea a l.off
  let n := if one then 16 else 4 * s.lanes
  match spotOf s.ctx.core va with
  | .scr addr =>
      if !s.allSeen addr n then s.wait
      else (load va n s).run (fun bs s =>
        (if take then s.takeFull addr n else s).land (.v d) l.dist (s.landClass [(va, n)]) (.v (lanesOf (wordsOf bs))))
  | .fifo cl b =>
      if !s.fifoReady cl b (n / 16) then s.wait
      else
        let (bs, bad) := s.fifoPeek cl b (n / 16)
        if bad then s.consume va
        else (if take then s.fifoTake cl b (n / 16) else s).land (.v d) l.dist (s.landClass [(va, n)]) (.v (lanesOf (wordsOf bs)))
  | _ => s

/-- STV.FE: a vector store that sets full-empty bits, or an enqueue (R268). -/
def storeFe (d : VReg) (a : AReg) (o : Imm) (s : State) : State :=
  let va := s.ea a o.s72
  let bs := laneBytes s.lanes (s.rdV d)
  match spotOf s.ctx.core va with
  | .fifo cl b => if s.fifoRoom cl b (bs.length / 16) && !s.fifoHeld cl b then s.fifoPut cl b bs false else s.wait
  | _ => (store (some true) va bs s).fin

/-- The byte address a lane's word index names (R269). -/
def wordAt (base : Nat) (w : Word32) : Nat := base + 4 * (w.toNat % 16384)

/-- Words at some addresses, all in one window or all translated: every lane's page is translated before any byte is read (R269, R438). -/
def readWords (vas : List Nat) (s : State) : Acc (List Byte × Bool) :=
  match vas with
  | [] => .ok ([], false) s
  | va :: _ =>
      match spotOf s.ctx.core va with
      | .trans => (Acc.gather (fun a s => translate holdFault .read a 4 s) vas s).bind (fun ps s => readPages ps.flatten s)
      | _ => (Acc.gather (fun a s => readVa holdFault a 4 s) vas s).bind
          (fun rs s => .ok (rs.flatMap (·.1), rs.any (·.2)) s)

/-- LDVG: one word gathered into each lane, landing together; a poisoned word is consumed (R247, R269). -/
def gather (d : VReg) (a : AReg) (l : Land) (s : State) : State :=
  let vas := ((s.rdV d).toList.take s.lanes).map (wordAt (s.ea a l.off))
  (readWords vas s).run (fun r s =>
    if r.2 then s.consume ((vas.find? s.badAt).getD (vas.headD 0))
    else s.land (.v d) l.dist (s.landClass (vas.map (fun a => (a, 4)))) (.v (lanesOf (wordsOf r.1))))

/-- Whether a lane's store may perform: its page allows it and its bank is not held (R212, R438). -/
def storeReady (va n : Nat) (s : State) : Acc Unit :=
  match spotOf s.ctx.core va with
  | .trans => (translate holdFault .write va n s).bind (fun ps s => if s.awaitsGrant ps then .stop s.wait else .ok () s)
  | .scr addr => if s.bankHeld addr n then .stop s.wait else .ok () s
  | _ => .ok () s

/-- Words by ascending index as runs of bytes. -/
def runsOf : List (Nat × Word32) → List (Nat × List Byte)
  | [] => []
  | (w, v) :: es =>
      match runsOf es with
      | (n, bs) :: rs => if n = w + 1 then (w, leBytes 4 v.toNat ++ bs) :: rs else (w, leBytes 4 v.toNat) :: (n, bs) :: rs
      | [] => [(w, leBytes 4 v.toNat)]

/-- What a scatter writes: by word index, the highest lane that names it, neighbouring words as one run, for the scatter is one access (R245, R269). -/
def scatterRuns (es : List (Word32 × Word32)) : List (Nat × List Byte) :=
  runsOf (es.foldl (fun (m : Map Word32) e => m.set (e.1.toNat % 16384) e.2) [])

/-- STVS: every lane's page checked, lane by lane, then the words stored (R245, R269, R438). -/
def scatter (d : VReg) (a : AReg) (t : VReg) (s : State) : State :=
  let base := s.ea a 0
  let es := ((s.rdV t).toList.take s.lanes).zip ((s.rdV d).toList.take s.lanes)
  (Acc.each (fun e s => storeReady (wordAt base e.1) 4 s) es s).run (fun _ s =>
    (Acc.each (fun r s => store none (base + 4 * r.1) r.2 s) (scatterRuns es) s).fin)

/-- SETFE and CLRFE: the full-empty bits of an extent's granules; no byte and no poison bit changes (R270). -/
def feBits (b : Bool) (d : XReg) (a : AReg) (s : State) : State :=
  let n := (s.rdX d).toNat
  match spotOf s.ctx.core (s.ea a 0) with
  | .scr addr =>
      if n = 0 then s
      else if s.bankHeld addr n then s.wait
      else if s.ownBank addr then s.setFull addr n b
      else leave ((List.range (n / 16)).map (fun i => ⟨addr + 16 * i, [], some b, 0, s.ctx.num⟩)) s
  | _ => s

/-! ### Parks (R249, R365, R366) -/

/-- The tiles of a core that lie in no resident strand's window (R206). -/
def freeTiles (s : State) (core : Nat) : List Nat :=
  (List.range 32).filter (fun t => !(List.range 4).any (fun i =>
    let st := s.strand (strandKey core i)
    resident st && decide (st.tb ≤ t ∧ t < st.tb + st.tn)))

/-- Every park of a core's strands. -/
def parksOf (s : State) (core : Nat) : List Park := (List.range 4).flatMap (fun i => (s.strand (strandKey core i)).parks.map (·.2))

/-- The first free park in the order of R249: the lowest unallocated tile, then the banks of the lowest strand number without a resident strand, then the HBM spill slot. -/
def choosePark (s : State) (core : Nat) (v : Lanes) : Park :=
  let used := s.parksOf core
  let tiles := (s.freeTiles core).flatMap (fun t => (List.range 32).map (fun u => (t, u)))
  let banks := ((List.range 4).filter (fun i => !resident (s.strand (strandKey core i)))).flatMap
    (fun i => (List.range 32).map (fun u => (i, u)))
  match tiles.find? (fun e => !used.any (fun p => p.loc == 1 && p.tile == e.1 && p.sub == e.2)) with
  | some e => ⟨1, 0, e.1, e.2, v⟩
  | none =>
      match banks.find? (fun e => !used.any (fun p => p.loc == 2 && p.bstrand == e.1 && p.sub == e.2)) with
      | some e => ⟨2, e.1, 0, e.2, v⟩
      | none => ⟨3, 0, 0, 0, v⟩

/-- The virtual address of a strand's save area (R64, R456). -/
def saveVa (s : State) (k : Nat) : Nat :=
  let i := ((s.launchOf k).bind (fun l => l.areas[(s.strand k).member]?)).getD 0
  (s.hctx (s.strand k).hc).saveva.toNat + Config.saveStride * i

/-- The address of a strand's HBM spill slot n (R249, R456). -/
def spillVa (s : State) (k n : Nat) : Nat := s.saveVa k + 65536 + n * (512 * s.width (k / 4))

/-- SPILL: the register copied to its park. A slot of the save area is reached as any other page is, and its bytes there are read by FILL alone: the park holds them (R249, R271, R366). -/
def spillTo (d : VReg) (s : State) : State :=
  let v := s.rdV d
  let p := match s.me.parks.get? d.val with
    | some p => { p with val := v }
    | none => s.choosePark s.ctx.core v
  let note (s : State) : State := s.modMe (fun t => { t with parks := t.parks.set d.val p })
  if p.loc = 3 then (translate holdFault .write (s.spillVa s.meKey d.val) (4 * s.lanes) s).run (fun _ s => note s) else note s

/-- FILL: the parked copy lands, or zeros when nothing is parked; from a slot of the save area as a load lands (R247, R249, R271). -/
def fillFrom (d : VReg) (l : Land) (s : State) : State :=
  match s.me.parks.get? d.val with
  | none => s.land (.v d) l.dist 0 (.v (Vector.replicate 512 0))
  | some p =>
      let va := s.spillVa s.meKey d.val
      if p.loc = 3 then
        (translate holdFault .read va (4 * s.lanes) s).run (fun ps s =>
          if ps.any (fun c => (chunksOf c.1 c.2.1).any (fun x => s.homePoison (x.1 / 64))) then s.consume (s.firstBad va (4 * s.lanes))
          else s.land (.v d) l.dist 2 (.v p.val))
      else s.land (.v d) l.dist 0 (.v p.val)

/-- PREF: the line that holds EA brought into the cluster cache when its page translates, its home is free and the cluster has no copy (R272). -/
def prefetch (a : AReg) (o : Imm) (s : State) : State :=
  let va := s.ea a o.s72
  let cl := clusterOf s.ctx.core
  match spotOf s.ctx.core va with
  | .trans => match s.leafOf cl s.hcid va with
    | some e =>
        let line := leafPa e va / 64
        if (s.cline cl line).isNone && s.homeFree line then s.fill s.hcid cl line e.pclass else s
    | none => s
  | _ => s

/-! ### Atomics (R273 to R278) -/

/-- Whether the cluster's copy of a line may not leave yet: a write-through of the cluster to it waits at its home (R306). -/
def dropWaits (s : State) (line : Nat) : Bool :=
  (s.cline (clusterOf s.ctx.core) line).isSome && s.pendingWrite (clusterOf s.ctx.core) line

/-- The issuing cluster's copy of a line leaves before an atomic is sent; an SW-FL line's dirty bytes go to the pool first (R278). -/
def dropForAtomic (s : State) (line : Nat) : State := s.evictLine (clusterOf s.ctx.core) line

/-- An atomic at its target: at the bank's port, or as a request to the line's home; one that returns its old value consumes poison there (R247, R273 to R276). `new` gives the bytes written from the old value, or none to write nothing. -/
def atomic (va n : Nat) (reply : Option (XReg × Nat)) (new : Nat → Option Nat) (kind : HKind) (s : State) : State :=
  match spotOf s.ctx.core va with
  | .scr addr =>
      if s.bankHeld addr n || s.withheldOver addr n then s.wait
      else if reply.isSome && s.anyPoison addr n then s.consume va
      else
        let old := leNat (s.mem.readN addr n)
        let s := match new old with
          | some v => s.bankWrite addr (leBytes n v) false
          | none => s
        (match reply with
         | some (d, l) => s.land (.x d) l (s.landClass [(va, n)]) (.x (BitVec.ofNat 64 old))
         | none => s)
  | .trans =>
      (translate holdFault .write va n s).run (fun ps s =>
        match ps with
        | [] => s
        | p :: _ =>
            if s.awaitsGrant [p] || s.dropWaits (p.1 / 64) || s.withheldOver p.1 n then s.wait
            else
              let s := match reply with
                | some (d, l) => s.reserveLanding (.x d) l (s.landClass [(va, n)])
                | none => s
              (s.dropForAtomic (p.1 / 64)).sendHome { s.myReq p.1 p.2.2 va kind with reply := reply.isSome })
  | _ => s

/-- ATOM and RED (R274, R276). -/
def atomOp (op : AtomOp) (dbl : Bool) (d : XReg) (va : Nat) (reply : Option Nat) (s : State) : State :=
  let n := dblBytes dbl
  let src := (s.rdX d).toNat % 2 ^ (8 * n)
  atomic va n (reply.map (fun l => (d, l))) (fun old => some (atomResult op n old src)) (.atom op dbl (s.rdX d)) s

/-- The register after one of an even pair (R275). -/
def nextX (d : XReg) : XReg := if h : d.val + 1 < 64 then ⟨d.val + 1, h⟩ else 0

/-- CAS (R275). -/
def casOp (dbl : Bool) (d : XReg) (va l : Nat) (s : State) : State :=
  let n := dblBytes dbl
  let want := (s.rdX d).toNat % 2 ^ (8 * n)
  let new := (s.rdX (nextX d)).toNat % 2 ^ (8 * n)
  atomic va n (some (d, l)) (fun old => if old = want then some new else none) (.cas dbl (s.rdX d) (s.rdX (nextX d))) s

/-! ### Check-outs (R279 to R281) -/

/-- CHKOUT: each line not yet held or asked for is asked of its home, unless its cluster has no way to pin it in (R255, R279, R281). -/
def checkOut (d : XReg) (a : AReg) (s : State) : State :=
  let va := s.ea a 0
  (translate holdFault .checkout va (64 * (s.rdX d).toNat) s).run (fun ps s =>
    (pageLines ps).zipIdx.foldl (fun s c =>
      let line := c.1.1.1 / 64
      if s.me.held.any (fun h => h.line == line) || s.awaitsLine line || s.unpinnable line then s
      else s.sendHome (s.myReq (line * 64) c.1.2 (va + 64 * c.2) .chkout)) s)

/-- CHKIN: every line the strand holds in the 4,096 bytes from the line that holds EA (R256, R280). -/
def checkInAt (a : AReg) (s : State) : State :=
  (translate holdFault .read (s.ea a 0 / 64 * 64) 4096 s).run (fun ps s =>
    (s.me.held.filter (fun h => ps.any (fun p => decide (p.1 / 64 ≤ h.line ∧ h.line * 64 < p.1 + p.2.1)))).foldl
      (fun s h => s.checkIn s.meKey h) s)

end State

/-! ### Meanings -/

/-- LD.sz: sign-extended, or whole for .D (R264). -/
def execLd (g : Guard) (z : Size) (d : XReg) (a : AReg) (l : Land) (s : State) : Host.Outcome State Fault Refusal :=
  s.slotOp (.ld g z d a l) g (State.loadX z false d a l)

/-- LD.sz.N: zero-extended (R264). -/
def execLdN (g : Guard) (z : Size) (d : XReg) (a : AReg) (l : Land) (s : State) : Host.Outcome State Fault Refusal :=
  s.slotOp (.ldN g z d a l) g (State.loadX z true d a l)

/-- ST.sz: the low bytes of xD (R265). -/
def execSt (g : Guard) (z : Size) (d : XReg) (a : AReg) (o : Imm) (s : State) : Host.Outcome State Fault Refusal :=
  s.slotOp (.st g z d a o) g (fun s => (State.store none (s.ea a o.s72) (leBytes z.bytes (s.rdX d).toNat) s).fin)

/-- LDV (R266). -/
def execLdv (g : Guard) (d : VReg) (a : AReg) (l : Land) (s : State) : Host.Outcome State Fault Refusal :=
  s.slotOp (.ldv g d a l) g (State.loadV d a l)

/-- LDV.FE.TAKE (R267). -/
def execLdvFeTake (g : Guard) (one : Bool) (d : VReg) (a : AReg) (l : Land) (s : State) : Host.Outcome State Fault Refusal :=
  s.slotOp (.ldvFeTake g one d a l) g (State.loadFe true one d a l)

/-- LDV.FE.KEEP (R267). -/
def execLdvFeKeep (g : Guard) (one : Bool) (d : VReg) (a : AReg) (l : Land) (s : State) : Host.Outcome State Fault Refusal :=
  s.slotOp (.ldvFeKeep g one d a l) g (State.loadFe false one d a l)

/-- STV (R266). -/
def execStv (g : Guard) (d : VReg) (a : AReg) (o : Imm) (s : State) : Host.Outcome State Fault Refusal :=
  s.slotOp (.stv g d a o) g (fun s => (State.store none (s.ea a o.s72) (laneBytes s.lanes (s.rdV d)) s).fin)

/-- STV.FE (R268). -/
def execStvFe (g : Guard) (d : VReg) (a : AReg) (o : Imm) (s : State) : Host.Outcome State Fault Refusal :=
  s.slotOp (.stvFe g d a o) g (State.storeFe d a o)

/-- LDVG (R269). -/
def execLdvg (g : Guard) (d : VReg) (a : AReg) (l : Land) (s : State) : Host.Outcome State Fault Refusal :=
  s.slotOp (.ldvg g d a l) g (State.gather d a l)

/-- STVS (R269). -/
def execStvs (g : Guard) (d : VReg) (a : AReg) (t : VReg) (s : State) : Host.Outcome State Fault Refusal :=
  s.slotOp (.stvs g d a t) g (State.scatter d a t)

/-- SETFE (R270). -/
def execSetfe (g : Guard) (d : XReg) (a : AReg) (s : State) : Host.Outcome State Fault Refusal :=
  s.slotOp (.setfe g d a) g (State.feBits true d a)

/-- CLRFE (R270). -/
def execClrfe (g : Guard) (d : XReg) (a : AReg) (s : State) : Host.Outcome State Fault Refusal :=
  s.slotOp (.clrfe g d a) g (State.feBits false d a)

/-- SPILL (R249, R271). -/
def execSpill (g : Guard) (d : VReg) (s : State) : Host.Outcome State Fault Refusal :=
  s.slotOp (.spill g d) g (State.spillTo d)

/-- FILL (R271). -/
def execFill (g : Guard) (d : VReg) (l : Land) (s : State) : Host.Outcome State Fault Refusal :=
  s.slotOp (.fill g d l) g (State.fillFrom d l)

/-- PREF (R272). -/
def execPref (g : Guard) (a : AReg) (o : Imm) (s : State) : Host.Outcome State Fault Refusal :=
  s.slotOp (.pref g a o) g (State.prefetch a o)

/-- ATOM (R274). -/
def execAtom (g : Guard) (op : AtomOp) (dbl : Bool) (d : XReg) (a : AReg) (l : Land) (s : State) : Host.Outcome State Fault Refusal :=
  s.slotOp (.atom g op dbl d a l) g (fun s => State.atomOp op dbl d (s.ea a l.off) (some l.dist) s)

/-- CAS (R275). -/
def execCas (g : Guard) (dbl : Bool) (d : XReg) (a : AReg) (l : Land) (s : State) : Host.Outcome State Fault Refusal :=
  s.slotOp (.cas g dbl d a l) g (fun s => State.casOp dbl d (s.ea a l.off) l.dist s)

/-- RED (R276). -/
def execRed (g : Guard) (op : AtomOp) (dbl : Bool) (d : XReg) (a : AReg) (o : Option (BitVec 32)) (s : State) : Host.Outcome State Fault Refusal :=
  s.slotOp (.red g op dbl d a o) g (fun s => State.atomOp op dbl d (s.ea a ((o.map (fun l => l.signExtend 72)).getD 0)) none s)

/-- CHKOUT (R279). -/
def execChkout (g : Guard) (d : XReg) (a : AReg) (s : State) : Host.Outcome State Fault Refusal :=
  s.slotOp (.chkout g d a) g (State.checkOut d a)

/-- CHKIN (R280). -/
def execChkin (g : Guard) (a : AReg) (s : State) : Host.Outcome State Fault Refusal :=
  s.slotOp (.chkin g a) g (State.checkInAt a)

end Sys2Proof.Machine
end

