-- ==== Sys2Proof/Machine/Order.lean ====
section
/-! DEFINITION. The order of one strand's accesses: what an operation waits for before it touches its bytes (spec 08 R210, 10 R262 and R263, 11 R309 to R312). -/

namespace Sys2Proof.Machine

/-- An access in flight: its operation and the count of its bundle, its extents, the window tiles it writes as a tile operation, the window tiles it reads through window 0x10, and whether it has still to read memory. -/
structure Act where
  num : Nat
  cnt : Nat
  exts : List Extent
  tiles : List Nat
  rdTiles : List Nat
  reads : Bool
  deriving DecidableEq, Repr

/-- The forms of the A, C and M slots that read memory (R261, R262). -/
def readsMem : Instr → Bool
  | .ld _ _ _ _ _ | .ldN _ _ _ _ _ | .ldv _ _ _ _ | .ldvFeTake _ _ _ _ _ | .ldvFeKeep _ _ _ _ _ | .ldvg _ _ _ _
  | .atom _ _ _ _ _ _ | .cas _ _ _ _ _ | .red _ _ _ _ _ _ | .copy _ _ _ _ _ | .copys _ _ _ _ _ | .copyg _ _ _ _ _
  | .copyfe _ _ _ _ _ | .gemv _ _ _ _ _ | .mma _ _ _ _ _ _ _ _ | .mmat _ _ _ _ _ _ _ _ | .accadd _ _ _ _ _ | .accld _ _ _ => true
  | _ => false

/-- The tiles of the accumulator window that read extents touch (R207, R263). -/
def tilesRead (g : Nat) (es : List Extent) : List Nat :=
  es.flatMap (fun e => match spotOf 0 e.va with
    | .acc o => if e.wr || e.len == 0 then [] else
        (List.range ((o + e.len - 1) / (16384 * g) + 1 - o / (16384 * g))).map (o / (16384 * g) + ·)
    | _ => [])

/-- The bytes a copy moves. -/
def Copy.total (c : Copy) : Nat :=
  match c.kind with
  | .plain | .fe => c.len
  | .rows len rows _ _ => len * rows
  | .gather offs => 64 * offs.length

/-- Whether a copy works granule by granule: COPYFE, and a COPY with an extent in a FIFO bank (R285, R289). -/
def byGranule (c : Copy) : Bool := c.kind == .fe || State.winKind c.src.toNat == some 32 || State.winKind c.dst.toNat == some 32

/-- Whether a copy has still to read, as R311 counts it: it has not read all its source ahead of its writes. -/
def stillReads (c : Copy) : Bool :=
  match c.data with
  | none => true
  | some d => byGranule c && decide (d.length < c.total / 16)

namespace State

/-- The machine acting for a queued operation: its strand, its slot, its latched registers and the engine registers it has read (R121). -/
def forOp (s : State) (k : Nat) (o : QOp) : State :=
  { s with ctx := { s.ctx with
      core := k / 4, strand := k % 4, slot := o.slot, word := o.word, bundle := o.bundle, num := o.num
      latch := some o.latch, cap := o.cap, admitted := true, res := .done } }

/-- The access of a queued operation; an MMA that has begun has read its operands, a tile operation its image (R216, R311, R320). -/
def actOf (s : State) (k : Nat) (o : QOp) : Act :=
  let read := match o.instr with
    | .mma _ _ _ _ _ _ _ _ | .mmat _ _ _ _ _ _ _ _ => o.stage == .started
    | _ => false
  let es := if read then [] else extents (s.forOp k o) o.instr
  ⟨o.num, o.cnt, es, (match o.instr.tile? with | some (t, true) => [t.val] | _ => []),
   tilesRead (s.width (k / 4)) es, readsMem o.instr && !read && o.got.isNone⟩

/-- The extents of a copy (R283 to R289). -/
def copyExtents (g : Nat) (c : Copy) : List Extent :=
  match c.kind with
  | .plain => [⟨c.src.toNat, c.len, false⟩, ⟨c.dst.toNat, c.len, true⟩]
  | .fe => [⟨c.src.toNat, c.len, true⟩, ⟨c.dst.toNat, c.len, true⟩]
  | .rows len rows ss ds => [⟨c.src.toNat, rowsSpan len rows ss, false⟩, ⟨c.dst.toNat, rowsSpan len rows ds, true⟩]
  | .gather offs => offs.map (fun o => ⟨c.src.toNat + 64 * o, 64, false⟩) ++ [⟨c.dst.toNat, 8192 * g, true⟩]

/-- The access of a copy in flight. -/
def copyAct (s : State) (c : Copy) : Act :=
  let es := copyExtents (s.width c.core) c
  ⟨c.num, c.cnt, es, [], tilesRead (s.width c.core) es, stillReads c⟩

/-- The extents of a GEMV: its descriptor, and the rest once the descriptor has been read (R262, R295, R296). -/
def gemvExtents (c : Gemv) : List Extent :=
  let kb := c.k / 32
  if c.n = 0 then [⟨c.desc.toNat, 32, false⟩]
  else [⟨c.wva.toNat, c.n * c.k, false⟩, ⟨c.sva.toNat, c.n * kb, false⟩, ⟨c.input.toNat, c.k + kb, false⟩, ⟨c.dst.toNat, 4 * c.n, true⟩]

/-- The access of a GEMV in flight. -/
def gemvAct (s : State) (c : Gemv) : Act :=
  ⟨c.num, c.cnt, gemvExtents c, [], tilesRead (s.width c.core) (gemvExtents c), c.out.isNone⟩

/-- The forms of slot Q whose writes count as accesses of the strand (R381, R444). -/
def qAccess : Instr → Bool
  | .fqpop _ _ _ | .sframe _ _ _ _ | .btsnap _ _ _ => true
  | _ => false

/-- Whether an operation's access is in the order of R262: those of A, C and M, and those of slot Q that count. -/
def ordered (o : QOp) : Bool :=
  o.guard != some false && (o.eng == .a || o.eng == .c || o.eng == .m || qAccess o.instr)

/-- The access of a strand's atomic or check-out whose request still waits at its home: an atomic has not read its old value (R262, R279, R311). -/
def sentAct (k : Nat) (r : HReq) : Option Act :=
  if strandKey r.core r.strand ≠ k ∨ r.entry then none
  else match r.kind with
    | .atom _ dbl _ | .cas dbl _ _ => some ⟨r.num, r.cnt, [⟨r.va, dblBytes dbl, true⟩], [], [], true⟩
    | .chkout => some ⟨r.num, r.cnt, [⟨r.va, 64, true⟩], [], [], false⟩
    | _ => none

/-- A strand's accesses in flight, those waiting at homes among them; the entries of its copy schedule are outside this order (R262). -/
def acts (s : State) (k : Nat) : List Act :=
  ((s.strand k).ops.filter ordered).map (s.actOf k) ++ s.home.filterMap (sentAct k) ++
  (s.copies.filter (fun c => strandKey c.core c.strand == k && c.slot == 3)).map s.copyAct ++
  (s.gemvs.filter (fun c => strandKey c.core c.strand == k)).map s.gemvAct

/-- Whether some element of one list is in another. -/
def common (a b : List Nat) : Bool := a.any (fun n => b.contains n)
def extsMeet (a b : List Extent) : Bool := a.any (fun x => b.any (fun y => x.meets y))
def writes (a : Act) : Bool := !a.tiles.isEmpty || a.exts.any (·.wr)

/-- Whether an access must wait for another of its strand: one of an earlier bundle that touches a common byte or tile (R262, R263, R309). -/
def waitsFor (a b : Act) : Bool :=
  decide (b.cnt < a.cnt) && (extsMeet a.exts b.exts || common a.rdTiles b.tiles || common a.tiles b.rdTiles)

/-- Whether an access must wait for an earlier one before it begins (R262). -/
def blocked (s : State) (k : Nat) (a : Act) : Bool :=
  (s.acts k).any (fun b => b.num != a.num && waitsFor a b)

/-- Whether an access may not write yet: another operation of its bundle has still to read (R262, R311). -/
def writesHeld (s : State) (k : Nat) (a : Act) : Bool :=
  writes a && (s.acts k).any (fun b => b.num != a.num && b.cnt == a.cnt && b.reads)

/-- Whether a GEMV issued before a bundle has not read its descriptor (R262). -/
def gemvUnread (s : State) (k cnt : Nat) : Bool :=
  s.gemvs.any (fun c => strandKey c.core c.strand == k && c.n == 0 && decide (c.cnt < cnt)) ||
  (s.strand k).ops.any (fun o => decide (o.cnt < cnt) && o.guard != some false && (match o.instr with | .gemv _ _ _ _ _ => true | _ => false))

end State

end Sys2Proof.Machine
end

