-- ==== Sys2Proof/Machine/CopyOps.lean ====
section
/-! DEFINITION. The C-slot forms and the copy engine: copies, the static copy schedule, GEMV, bank modes, FLUSH and INVAL (spec 10 R282 to R300, 05 R138, 16 R441 and R442). -/

namespace Sys2Proof.Machine

/-! ### The bytes of a copy (R283 to R289) -/

/-- The bytes of a unit whose addresses run on: a row, a gathered line, the whole copy. -/
def Copy.unit (c : Copy) : Nat :=
  match c.kind with
  | .plain | .fe => c.len
  | .rows len _ _ _ => len
  | .gather _ => 64
/-- Source and destination address of a copy offset (R283, R287, R288). -/
def Copy.at_ (c : Copy) (o : Nat) : Nat × Nat :=
  let m := 2 ^ 72
  match c.kind with
  | .plain | .fe => ((c.src.toNat + o) % m, (c.dst.toNat + o) % m)
  | .rows len _ ss ds => ((c.src.toNat + 16 * ss * (o / len) + o % len) % m, (c.dst.toNat + 16 * ds * (o / len) + o % len) % m)
  | .gather offs => ((c.src.toNat + 64 * offs.getD (o / 64) 0 + o % 64) % m, (c.dst.toNat + o) % m)

/-- A piece of a copy: its offset, source, destination and length. -/
structure Piece where
  off : Nat
  src : Nat
  dst : Nat
  len : Nat
  deriving DecidableEq, Repr

/-- The bytes of the granule or line of a destination (R245, R246). -/
def grainAt (dst : Nat) : Nat := if dst / 2 ^ 56 = 0xFFFF then 16 else 64

/-- The bytes a copy writes together at a destination: a line, or a granule, as every copy that works granule by granule writes (R245, R246, R310). -/
def Copy.grain (c : Copy) (dst : Nat) : Nat := if byGranule c then 16 else grainAt dst

/-- The copy offsets from lo to hi as pieces, cut at units and at the granules or lines of the destination. -/
def Copy.cut (c : Copy) : (fuel lo hi : Nat) → List Piece
  | 0, _, _ => []
  | fuel + 1, lo, hi =>
      if hi ≤ lo then []
      else
        let (a, b) := c.at_ lo
        let n := min (hi - lo) (min (c.unit - lo % c.unit) (c.grain b - b % c.grain b))
        ⟨lo, a, b, n⟩ :: Copy.cut c fuel (lo + n) hi
/-- The pieces of a sector (R284). -/
def Copy.sector (c : Copy) (k : Nat) : List Piece := c.cut 4096 (4096 * k) (min c.total (4096 * k + 4096))
/-- The sectors a copy has. -/
def Copy.sectors (c : Copy) : Nat := (c.total + 4095) / 4096
/-- The bytes of a sector. -/
def Copy.sectorBytes (c : Copy) (k : Nat) : Nat := min c.total (4096 * k + 4096) - 4096 * k
/-- The sectors of a copy not yet performed (R441). -/
def Copy.undone (c : Copy) : List Nat := c.missing ++ (List.range (c.sectors - c.next)).map (c.next + ·)
/-- MISS: bit i for sector FSECT + i (R441). -/
def Copy.missBits (todo : List Nat) : Nat :=
  let f := todo.headD 0
  ((todo.filter (· < f + 64)).map (fun k => 2 ^ (k - f))).sum

/-- Whether a destination byte of a copy already holds a higher row's byte, which a sector performed before has written: a replayed lower row leaves it (R287, R442). -/
def Copy.covered (c : Copy) (o : Nat) : Bool :=
  match c.kind with
  | .rows len rows _ ds =>
      (List.range rows).any (fun r =>
        let back := 16 * ds * (r - o / len)
        let k := (len * r + (o % len - back)) / 4096
        decide (o / len < r ∧ back ≤ o % len ∧ k < c.next) && !c.missing.contains k)
  | _ => false

/-- A write of a copy: the offset and the address of its first byte, its bytes, and whether a source of them was poisoned. -/
abbrev Part := Nat × Nat × List Byte × Bool

/-- What a piece writes: its bytes, or those not covered by a higher row, each alone (R287). -/
def Copy.parts (c : Copy) (p : Piece) (bs : List Byte) (bad : Bool) : List Part :=
  if c.missing.isEmpty || !(List.range p.len).any (fun i => c.covered (p.off + i)) then [(p.off, p.dst, bs, bad)]
  else (List.range p.len).filterMap (fun i =>
    if c.covered (p.off + i) then none else some (p.off + i, p.dst + i, [bs.getD i 0], bad))

/-- Neighbouring writes within one granule or line, joined: the granule or line is written whole when they fill it (R245, R246, R310). -/
def joinParts (grain : Nat → Nat) : List Part → List Part
  | [] => []
  | (o, a, bs, bad) :: ps =>
      match joinParts grain ps with
      | (p, b, cs, bad2) :: qs =>
          if a + bs.length = b ∧ a / grain a = b / grain a then (o, a, bs ++ cs, bad || bad2) :: qs
          else (o, a, bs, bad) :: (p, b, cs, bad2) :: qs
      | [] => [(o, a, bs, bad)]

/-- The run of destination bytes around a copy offset that the copy writes once each: start and length; none where rows lie over one another (R287). -/
def Copy.region (c : Copy) (o : Nat) : Option (Nat × Nat) :=
  match c.kind with
  | .plain | .fe | .gather _ => some ((c.at_ 0).2, c.total)
  | .rows len rows _ ds =>
      if 16 * ds = len then some ((c.at_ 0).2, c.total)
      else if len < 16 * ds ∨ rows ≤ 1 then some ((c.at_ (o / len * len)).2, len) else none

/-- Whether a part leaves unfinished a granule or line that its copy writes whole (R310). -/
def Copy.partial_ (c : Copy) (p : Part) : Bool :=
  let g := c.grain p.2.1
  let lo := p.2.1 / g * g
  decide (p.2.2.1.length < g) && (match c.region p.1 with
    | some (start, n) => decide (start ≤ lo ∧ lo + g ≤ start + n)
    | none => false)

/-- The writes a copy makes now, and those it carries until the rest of their granule or line has been read; `all` says that nothing more is to be read now (R245, R310, log entry 20). -/
def Copy.sortParts (c : Copy) (all : Bool) (ps : List Part) : List Part × List Part :=
  let ps := joinParts c.grain (c.carry ++ ps)
  let waits (p : Part) : Bool := !all && c.partial_ p && !c.halves.any (fun h => h.1 == p.2.1 / c.grain p.2.1 * c.grain p.2.1)
  (ps.filter (fun p => !waits p), ps.filter waits)

namespace State

/-- A token of a strand set (R411). -/
def setTok (s : State) (k : Nat) (tk : Option TokReg) (st : TokSt) (bytes : Nat) : State :=
  match tk with
  | none => s
  | some i => s.modStrand k (fun t => { t with tokens := t.tokens.set i.val ⟨st, BitVec.ofNat 32 bytes⟩ })

/-- The machine acting for a copy in flight. -/
def asCopy (s : State) (c : Copy) : State :=
  { s with ctx := { Ctx.idle with
      core := c.core, strand := c.strand, slot := c.slot, word := c.word, bundle := c.bundle, num := c.num
      admitted := true, defer := s.ctx.defer } }

/-- The first page of an extent that faults under a use: its code and its first failing byte (R374, R438, R441). -/
def pageFault (s : State) (u : Use) (va n : Nat) : Option (Nat × Nat) :=
  if va / 2 ^ 56 = 0xFFFF then none
  else (pagesOf va n).findSome? (fun c =>
    match s.leafOf (clusterOf s.ctx.core) s.hcid c.1 with
    | none => some (1, c.1)
    | some e => (leafFault e (leafPa e c.1) u).map (fun code => (code, c.1)))

/-- The pages of an extent that the cluster's TLB does not hold. -/
def pageMisses (s : State) (va n : Nat) : List Nat :=
  if va / 2 ^ 56 = 0xFFFF then []
  else ((pagesOf va n).map (·.1)).filter (fun a => (s.tlbHit (clusterOf s.ctx.core) s.hcid a).isNone)

/-- The lines of an extent, by its translations: place and bytes, class. -/
def linesAt (s : State) (va n : Nat) : List ((Nat × Nat) × Nat) :=
  (pagesOf va n).flatMap (fun c => match s.leafOf (clusterOf s.ctx.core) s.hcid c.1 with
    | none => []
    | some e => (chunksOf (leafPa e c.1) c.2).map (fun x => (x, e.pclass)))

/-- The lines of an extent that is translated. -/
def transLines (s : State) (va n : Nat) : List ((Nat × Nat) × Nat) := if va / 2 ^ 56 = 0xFFFF then [] else s.linesAt va n

/-- Whether a read of a copy engine must wait at some home, or for a grant (R257, R279). -/
def peekHeld (s : State) (va n : Nat) : Bool := (s.transLines va n).any (fun c => s.readHeld c.1)

/-- A copy engine's reads that must wait join the lists of their lines (R13, R257). -/
def askFor (s : State) (va n : Nat) : State := askLines false (s.transLines va n) s

/-- Bytes at an address as a copy engine or GEMV reads them, with their poison; it allocates no line (R243, R247). -/
def peek (s : State) (va n : Nat) : (List Byte × Bool) × State :=
  match spotOf s.ctx.core va with
  | .scr addr => ((seeWithheld s.me addr (s.mem.readN addr n), s.anyPoison addr n), s)
  | .acc o => (((List.range n).map (fun i => s.mem.read (accByte s.ctx.core s.me.tb s.g (o + i))), false), s)
  | .trans => readLines false (s.linesAt va n) s
  | _ => (([], false), s)

/-- Pieces read one after another. -/
def peekAll (ps : List Piece) (s : State) : List (Piece × List Byte × Bool) × State :=
  ps.foldl (fun (a : List (Piece × List Byte × Bool) × State) p =>
    let r := a.2.peek p.src p.len
    (a.1 ++ [(p, r.1)], r.2)) ([], s)

/-- Whether a write of a copy engine waits: at a locked bank or a halted core's bank, for the grant of a check-out of its strand, or for a write of its strand withheld there (R212, R262, R279, R448, R460). -/
def pokeWaits (s : State) (va n : Nat) : Bool :=
  match spotOf s.ctx.core va with
  | .scr addr => s.bankHeld addr n || s.withheldOver addr n
  | .trans => (s.linesAt va n).any (fun c => s.awaitsLine (c.1.1 / 64) || s.withheldOver c.1.1 c.1.2)
  | _ => false

/-- The physical tile of a byte of the strand's accumulator window. -/
def tileAt (s : State) (o : Nat) : Nat := s.me.tb + o / (16384 * s.g)

/-- Whether a tile is busy under a writer other than ACCADD (R223). -/
def busyOther (s : State) (core tile : Nat) : Bool :=
  (s.core core).busy.mem tile && !(List.range 4).any (fun i =>
    let t := s.strand (strandKey core i)
    t.ops.any (fun o => match o.instr with
      | .accadd _ d _ _ _ => t.tb + d.val == tile
      | _ => false))

/-- A copy's write of a piece may not reach its tile in slot 0 or 1 (R223). -/
def portBad (s : State) (port va n : Nat) : Bool :=
  match spotOf s.ctx.core va with
  | .acc o => decide (port < 2) && (s.busyOther s.ctx.core (s.tileAt o) || s.busyOther s.ctx.core (s.tileAt (o + n - 1)))
  | _ => false

/-- Elements added into accumulator memory, with their flags (R286). -/
def addElems (addr : Nat) : List Word32 → State × Fl → State × Fl
  | [], a => a
  | w :: ws, (s, f) =>
      let (r, f2) := addRne (f32 (BitVec.ofNat 32 (leNat (s.mem.readN addr 4)))) (f32 w)
      addElems (addr + 4) ws ({ s with mem := s.mem.write addr (leBytes 4 r.toNat) }, f ||| f2)

/-- A copy engine's write of a piece: bank granules take full-empty and poison bits, lines take poison, tiles take the bytes or their sum (R245, R246, R285, R286). -/
def poke (s : State) (addw : Bool) (va : Nat) (bs : List Byte) (bad : Bool) : State × Fl :=
  match spotOf s.ctx.core va with
  | .scr addr => (s.bankWriteFe addr bs bad, 0)
  | .acc o =>
      let addr := accByte s.ctx.core s.me.tb s.g o
      if addw then addElems addr (wordsOf bs) (s, 0) else ({ s with mem := s.mem.write addr bs }, 0)
  | .fifo cl b => (s.fifoPut cl b bs bad, 0)
  | .trans =>
      (((s.linesAt va bs.length).foldl (fun (a : State × List Byte) c =>
        (lineWrite bad c.2 c.1.1 (a.2.take c.1.2) a.1, a.2.drop c.1.2)) (s, bs)).1, 0)
  | .hole => (s, 0)

/-- Parts written one after another, with their flags. -/
def pokeAll (s : State) (addw : Bool) (ps : List Part) : State × Fl :=
  ps.foldl (fun (a : State × Fl) p =>
    let (s, f) := a.1.poke addw p.2.1 p.2.2.1 p.2.2.2
    (s, a.2 ||| f)) (s, 0)

/-- A bank granule that a copy has written in two parts: its poison is that of both, as of one write of the copy (R245). -/
def noteHalf (a : State × Copy) (p : Part) : State × Copy :=
  match spotOf a.1.ctx.core p.2.1 with
  | .scr addr =>
      let lo := p.2.1 / 16 * 16
      if !a.2.partial_ p then a
      else match a.2.halves.find? (fun h => h.1 == lo) with
        | none => (a.1, { a.2 with halves := a.2.halves ++ [(lo, p.2.2.1.length, p.2.2.2)] })
        | some h =>
            let rest := { a.2 with halves := a.2.halves.filter (fun h => h.1 != lo) }
            if h.2.1 + p.2.2.1.length ≠ 16 then (a.1, rest)
            else ({ a.1 with poison := if h.2.2 || p.2.2.2 then a.1.poison.add (gran addr) else a.1.poison.del (gran addr) }, rest)
  | _ => a

/-- What a copy writes, with its carried parts and its flags brought up to date (R245, R286, R310). -/
def writeParts (s : State) (c : Copy) (all : Bool) (ps : List Part) : State × Copy :=
  let (now, later) := c.sortParts all ps
  let (s, fl) := s.pokeAll c.addw now
  now.foldl noteHalf (s, { c with carry := later, fl := c.fl ||| fl })

/-! ### The copy engine -/

def modCopy (s : State) (id : Nat) (f : Copy → Copy) : State :=
  { s with copies := s.copies.map (fun c => if c.id = id then f c else c) }
def dropCopy (s : State) (id : Nat) : State := { s with copies := s.copies.filter (fun c => c.id != id) }

/-- The writes of an operation that wait at their homes (R290). -/
def sentOf (s : State) (core strand num : Nat) : List HReq :=
  s.home.filter (fun r => r.core == core && r.strand == strand && r.num == num && isWrite r)

/-- The bytes of a copy that have performed: those written without those that wait at their homes (R411). -/
def doneBytes (s : State) (c : Copy) : Nat :=
  c.bytes - ((s.sentOf c.core c.strand c.num).map (fun r => match r.kind with | .write bs _ => bs.length | _ => 0)).sum -
    (c.carry.map (fun p => p.2.2.1.length)).sum

/-- BYTES of the token a copy has armed follows the bytes performed (R411). -/
def noteTok (s : State) (c : Copy) : State :=
  let k := strandKey c.core c.strand
  match c.tok with
  | none => s
  | some i => if ((s.strand k).tokens[i]).st == .armed then s.setTok k c.tok .armed (s.doneBytes c) else s

/-- A copy completes: its token becomes DONE and its flags reach FSTAT (R135, R290, R412). -/
def finishCopy (s : State) (c : Copy) : State :=
  let k := strandKey c.core c.strand
  ((s.setTok k c.tok .done c.bytes).modStrand k
    (fun t => { t with front := { t.front with fstat := t.front.fstat ||| c.fl } })).dropCopy c.id

/-- A copy stops on a fault: its token is FAULTED and its record is raised; its strand is not held (R441). -/
def stopCopy (s : State) (c : Copy) (code va : Nat) : State :=
  let todo := if byGranule c then (List.range c.sectors).filter (fun k => 16 * c.next < min c.total (4096 * k + 4096))
    else c.undone
  let k := strandKey c.core c.strand
  let r := { s.recordOf k code with
    cls := 1, va := va, info := Copy.missBits todo, aux := c.bytes, fsect := todo.headD 0, slot := c.slot
    bundle := c.bundle.toNat, copy := some c.id, launch := some c.launch }
  let s := (s.tlbForget (clusterOf c.core) c.hc va).setTok k c.tok .faulted c.bytes
  (s.modCopy c.id (fun x => { x with faulted := true })).raise c.hc r

/-- The walks a copy's pieces need. -/
def copyMisses (s : State) (ps : List Piece) : List Nat :=
  (ps.flatMap (fun p => s.pageMisses p.src p.len ++ s.pageMisses p.dst p.len)).eraseDups

/-- The fault of some pieces, a piece's source first. -/
def sectorFault (s : State) (ps : List Piece) : Option (Nat × Nat) :=
  ps.findSome? (fun p => match s.pageFault .read p.src p.len with
    | some e => some e
    | none => s.pageFault .write p.dst p.len)

/-- Neighbouring runs of places joined. -/
def joinRuns : List (Nat × Nat) → List (Nat × Nat)
  | [] => []
  | (a, n) :: rs =>
      match joinRuns rs with
      | (b, m) :: qs => if a + n = b then (a, n + m) :: qs else (a, n) :: (b, m) :: qs
      | [] => [(a, n)]

/-- Where an extent lies in the model's space, as runs of places; pages without a leaf have none (R235, R374). -/
def runsAt (s : State) (va n : Nat) : List (Nat × Nat) :=
  match spotOf s.ctx.core va with
  | .scr addr => [(addr, n)]
  | .trans => joinRuns ((pagesOf va n).filterMap (fun c =>
      (s.leafOf (clusterOf s.ctx.core) s.hcid c.1).map (fun e => (leafPa e c.1, c.2))))
  | _ => []

/-- Whether a copy's extents overlap, by their addresses or by two names of the same bytes, so that it translates and reads everything first (R235, R284, R287). -/
def copyOverlaps (s : State) (c : Copy) : Bool :=
  let es := copyExtents (s.width c.core) c
  let runs (wr : Bool) : List (Nat × Nat) := (es.filter (fun e => e.wr == wr)).flatMap (fun e => s.runsAt e.va e.len)
  es.any (fun a => es.any (fun b => !a.wr && b.wr && a.meets b)) ||
  (runs false).any (fun a => (runs true).any (fun b => touches a.1 a.2 b.1 b.2))

/-- The sectors a copy has in flight: those not performed among the 64 from the lowest, or all when its extents overlap (R284, R441, log entry 20). -/
def copyWindow (s : State) (c : Copy) : List Nat :=
  if s.copyOverlaps c then c.undone else (c.undone.take 64).filter (· < c.undone.headD 0 + 64)

/-- The tile operations of a copy's bundle that have still to read a tile the copy writes (R311). -/
def tileReaders (s : State) (c : Copy) : List QOp :=
  let k := strandKey c.core c.strand
  let reads (i : Instr) : Bool := match i with
    | .accret _ _ _ _ | .accst _ _ _ | .accrd _ _ _ _ => true
    | _ => false
  let mine := tilesRead (s.width c.core) (((copyExtents (s.width c.core) c).filter (·.wr)).map (fun e => { e with wr := false }))
  if c.slot ≠ 3 then []
  else (s.strand k).ops.filter (fun o => o.cnt == c.cnt && o.eng == .m && o.guard != some false && reads o.instr &&
    (match o.instr.tile? with | some (t, _) => mine.contains t.val | none => false))

/-- Whether a copy may not write yet: another operation of its bundle has still to read (R262, R311). -/
def copyHeld (s : State) (c : Copy) : Bool :=
  c.slot == 3 && (s.writesHeld (strandKey c.core c.strand) (s.copyAct c) || !(s.tileReaders c).isEmpty)

/-- Whether an operation that holds a copy's writes has writes of its own, so that it waits in turn for the copy's reads (R311). -/
def readsAhead (s : State) (c : Copy) : Bool :=
  let k := strandKey c.core c.strand
  (s.acts k).any (fun b => b.num != c.num && b.cnt == c.cnt && b.reads && writes b) ||
  (s.tileReaders c).any (fun o => writes (s.actOf k o))

/-- The pieces of a sector with their bytes: as read ahead, or read now. -/
def sectorData (c : Copy) (ks : List Nat) (s : State) : List (Piece × List Byte × Bool) × State :=
  match c.data with
  | none => peekAll (ks.flatMap c.sector) s
  | some d => (ks.flatMap (fun k => (c.sector k).zip (((d.find? (fun e => e.1 == k)).map (·.2)).getD [])), s)

/-- The sectors in flight performed: each that translates reads all its bytes and then writes them; a sector that faults stops the copy once the writes sent have performed (R284, R441). -/
def runSectors (s : State) (c : Copy) : State :=
  let s := s.asCopy c
  let ks := s.copyWindow c
  let bad := ks.filter (fun k => (s.sectorFault (c.sector k)).isSome)
  let good := if s.copyOverlaps c && !bad.isEmpty then [] else ks.filter (fun k => !bad.contains k)
  let ps := good.flatMap c.sector
  if c.data.isNone && ps.any (fun p => s.peekHeld p.src p.len) then ps.foldl (fun s p => s.askFor p.src p.len) s
  else if ps.any (fun p => s.pokeWaits p.dst p.len) || c.carry.any (fun p => s.pokeWaits p.2.1 p.2.2.1.length) then s
  else if ps.any (fun p => s.portBad c.port p.dst p.len) then s.violate
  else
    let (got, s) := sectorData c good s
    match got.find? (fun e => e.2.2 && winKind e.1.dst == some 16) with
    | some e => s.consume (s.firstBad e.1.src e.1.len)
    | none =>
        let ws := got.flatMap (fun e => c.parts e.1 e.2.1 e.2.2)
        let c := { c with
          next := max c.next (ks.foldl (fun m k => max m (k + 1)) 0)
          missing := ks.filter (fun k => !good.contains k) ++ c.missing.filter (fun k => !ks.contains k)
          bytes := c.bytes + (good.map c.sectorBytes).sum }
        let (s, c) := (s.takeReplies c.core c.strand c.num).writeParts c (!bad.isEmpty || c.undone.isEmpty) ws
        let s := (s.modCopy c.id (fun _ => c)).noteTok c
        if !(s.sentOf c.core c.strand c.num).isEmpty then s
        else match bad.findSome? (fun k => s.sectorFault (c.sector k)) with
          | some (code, va) => s.stopCopy c code va
          | none => if c.undone.isEmpty then s.finishCopy c else s

/-- A copy reads its whole source ahead of its writes, once every page of it translates; a fault stops it with nothing performed (R311, log entry 89). -/
def readAll (s : State) (c : Copy) : State :=
  let s := s.asCopy c
  let ps := c.undone.flatMap c.sector
  match ps.findSome? (fun p => s.pageFault .read p.src p.len) with
  | some (code, va) => s.stopCopy c code va
  | none =>
      if ps.any (fun p => s.peekHeld p.src p.len) then ps.foldl (fun s p => s.askFor p.src p.len) s
      else
        let (d, s) := c.undone.foldl (fun (a : List (Nat × List (List Byte × Bool)) × State) k =>
          let r := peekAll (c.sector k) a.2
          (a.1 ++ [(k, r.1.map (·.2))], r.2)) ([], s)
        (s.takeReplies c.core c.strand c.num).modCopy c.id (fun c => { c with data := some d })

/-- Granule i of a copy's source read: dequeued from a FIFO bank, taken by COPYFE when it is full, or as it stands; nothing while it must wait (R285, R289). -/
def takeGranule (s : State) (c : Copy) (i : Nat) : Option ((List Byte × Bool) × State) :=
  let a := (c.at_ (16 * i)).1
  match spotOf s.ctx.core a with
  | .fifo cl b => if s.fifoReady cl b 1 then some (s.fifoPeek cl b 1, s.fifoTake cl b 1) else none
  | .scr addr =>
      if c.kind != .fe then some (s.peek a 16)
      else if s.allSeen addr 16 then some ((s.peek a 16).1, s.takeFull addr 16) else none
  | _ => if s.peekHeld a 16 then none else
      let r := s.peek a 16
      some (r.1, r.2.takeReplies c.core c.strand c.num)

/-- What a granule read writes: a FIFO bank's entry, or its bytes at the destination, cut at its granules (R285, R289). -/
def granuleParts (c : Copy) (i : Nat) (bs : List Byte) (bad : Bool) : List Part :=
  let (_, b) := c.at_ (16 * i)
  if winKind b == some 32 then [(16 * i, b, bs, bad)]
  else (c.cut 3 (16 * i) (16 * i + 16)).map (fun p => (p.off, p.dst, (bs.drop (p.off - 16 * i)).take p.len, bad))

/-- The parts a copy carries, written before it stops (R441). -/
def flushCarry (s : State) (c : Copy) : State :=
  if c.carry.any (fun p => s.pokeWaits p.2.1 p.2.2.1.length) then s
  else
    let (s, c) := s.writeParts c true []
    (s.modCopy c.id (fun _ => c)).noteTok c

/-- Granules of a copy that works granule by granule, in ascending order, until one must wait; `write` says whether they are written or only read ahead (R242, R285, R289, R311). -/
def runGranules (write : Bool) : (fuel : Nat) → Copy → State → State
  | 0, c, s => if write && decide (c.total ≤ 16 * c.next) && (s.sentOf c.core c.strand c.num).isEmpty then s.finishCopy c else s
  | n + 1, c, s =>
      let i := if write then c.next else (c.data.getD []).length
      let (a, b) := c.at_ (16 * i)
      let ahead := (c.data.getD [])[i]?
      let miss := (if ahead.isSome then [] else s.pageMisses a 16) ++ (if write then s.pageMisses b 16 else [])
      let fault := match (if ahead.isSome then none else s.pageFault .read a 16) with
        | some e => some e
        | none => if write then s.pageFault .write b 16 else none
      let room := match spotOf s.ctx.core b with
        | .fifo cl bk => s.fifoRoom cl bk 1 && !s.fifoHeld cl bk
        | _ => !s.pokeWaits b 16
      if !miss.isEmpty then miss.foldl startWalk s
      else match fault with
        | some (code, va) =>
            if !c.carry.isEmpty then s.flushCarry c
            else if (s.sentOf c.core c.strand c.num).isEmpty then s.stopCopy c code va else s
        | none =>
            if write && !room then s
            else if write && s.portBad c.port b 16 then s.violate
            else match (match ahead with | some e => (e.2.head?).map (fun d => (d, s)) | none => s.takeGranule c i) with
              | none => if ahead.isNone then s.askFor a 16 else s
              | some ((bs, bad), s) =>
                  if !write then
                    let c := { c with data := some ((c.data.getD []) ++ [(i, [(bs, bad)])]) }
                    runGranules write n c (s.modCopy c.id (fun _ => c))
                  else if bad && winKind b == some 16 then s.consume a
                  else
                    let (s, c) := s.writeParts { c with next := i + 1, bytes := c.bytes + 16 }
                      (decide (c.total ≤ 16 * (i + 1)) || s.copyOverlaps c) (granuleParts c i bs bad)
                    runGranules write n c ((s.modCopy c.id (fun _ => c)).noteTok c)

/-- Whether a copy must wait before it touches its bytes: for earlier accesses of its strand, or, for a copy-schedule entry, for an earlier entry's writes (R262, R292). -/
def copyWaits (s : State) (c : Copy) : Bool :=
  if c.slot = 3 then s.blocked (strandKey c.core c.strand) (s.copyAct c)
  else s.copies.any (fun b => b.slot != 3 && strandKey b.core b.strand == strandKey c.core c.strand && decide (b.id < c.id) &&
    extsMeet ((copyExtents (s.width b.core) b).filter (·.wr)) (copyExtents (s.width c.core) c))

/-- Whether the core of a copy is at HALT.HARD, where copies pause at their next sector boundary (R460). -/
def copyHalts (s : State) (c : Copy) : Bool := decide (2 ≤ (s.core c.core).halt.toNat)

/-- Whether a copy stands still: stopped, kept with a suspended member, or paused by its halted core at a sector boundary (R441, R460). -/
def copyRests (s : State) (c : Copy) : Bool :=
  c.faulted || decide (128 ≤ c.core) || (s.copyHalts c && (!byGranule c || 16 * c.next % 4096 == 0))

/-- What a copy does once its pages are translated or found to fault: it reads ahead, waits, or performs (R284, R311). -/
def tryCopy (s : State) (c : Copy) : State :=
  if !(s.sentOf c.core c.strand c.num).isEmpty then s
  else if s.copyHeld c then (if c.data.isNone && s.readsAhead c then s.readAll c else s)
  else s.runSectors c

/-- A copy in flight goes on: it starts the walks it needs, or performs what it can, and completes with its last byte (R284 to R290). -/
def stepCopy (s : State) (c : Copy) : State :=
  if s.copyRests c || s.copyWaits c then s
  else
    let s := s.asCopy c
    if byGranule c then
      (if s.copyHeld c then
        (if s.readsAhead c then runGranules false (c.total / 16 - (c.data.getD []).length) c s else s)
      else runGranules true (if s.copyHalts c then min (c.total / 16 - c.next) (256 - c.next % 256) else c.total / 16 - c.next) c s)
    else
      let ks := if s.copyHeld c then c.undone else s.copyWindow c
      let miss := s.copyMisses (ks.flatMap c.sector)
      if miss.isEmpty then s.tryCopy c else miss.foldl startWalk s

/-- A copy taken by its engine: with nothing to move its token is DONE at once; otherwise the token is ARMED and the copy is in flight (R282, R283, R287, R289, R290). -/
def takeCopy (s : State) (tk : Option TokReg) (src dst : Nat) (len port : Nat) (addw : Bool) (kind : CopyKind) (slot : Nat) : State :=
  let k := s.meKey
  let cnt := match s.me.ops.find? (fun o => o.num == s.ctx.num) with
    | some o => o.cnt
    | none => s.me.count
  let (id, s) := s.newId
  let c : Copy :=
    { id := id, core := s.ctx.core, strand := s.ctx.strand, hc := s.hcid, launch := s.me.launch, num := s.ctx.num, cnt := cnt
      tok := tk, src := BitVec.ofNat 72 src, dst := BitVec.ofNat 72 dst, len := len, port := port, addw := addw, kind := kind
      slot := slot, word := s.ctx.word, bundle := s.ctx.bundle, next := 0, missing := [], bytes := 0, fl := 0, faulted := false
      skipped := false, data := none }
  if c.total = 0 then s.setTok k tk .done 0 else { (s.setTok k tk .armed 0) with copies := s.copies ++ [c] }

/-- COPY (R283). -/
def copyOp (tk : Option TokReg) (d a : AReg) (n : CopyLen) (s : State) : State :=
  let (port, addw) := match n with | .reg _ => (0, false) | .long _ p w => (p.toNat, w)
  s.takeCopy tk (s.ea a 0) (s.ea d 0) (s.copyBytes n) port addw .plain 3

/-- COPYS (R287). -/
def copysOp (tk : Option TokReg) (d a : AReg) (t : XReg) (s : State) : State :=
  let (len, rows, ss, ds) := shapeOf (s.rdX t)
  s.takeCopy tk (s.ea a 0) (s.ea d 0) 0 0 false (.rows len rows ss ds) 3

/-- COPYG (R288). -/
def copygOp (tk : Option TokReg) (d a : AReg) (t : VReg) (s : State) : State :=
  let offs := ((s.rdV t).toList.take s.lanes).map (fun w => w.toNat % 2 ^ 26)
  s.takeCopy tk (s.ea a 0) (s.ea d 0) 0 0 false (.gather offs) 3

/-- COPYFE (R289). -/
def copyfeOp (tk : Option TokReg) (d a : AReg) (t : XReg) (s : State) : State :=
  s.takeCopy tk (s.ea a 0) (s.ea d 0) (s.rdX t).toNat 0 false .fe 3

/-! ### GEMV (R138, R295 to R297) -/

def modGemv (s : State) (id : Nat) (f : Gemv → Gemv) : State :=
  { s with gemvs := s.gemvs.map (fun c => if c.id = id then f c else c) }

/-- The machine acting for a GEMV in flight. -/
def asGemv (s : State) (c : Gemv) : State :=
  { s with ctx := { Ctx.idle with
      core := c.core, strand := c.strand, slot := 3, word := c.word, bundle := c.bundle, num := c.num
      admitted := true, defer := s.ctx.defer } }

/-- A GEMV stops on a fault: nothing is written, BYTES is 0 (R441, R442). -/
def stopGemv (s : State) (c : Gemv) (code va : Nat) : State :=
  let k := strandKey c.core c.strand
  let r := { s.recordOf k code with
    cls := 1, va := va, slot := 3, bundle := c.bundle.toNat, copy := some c.id, launch := some c.launch }
  let s := (s.tlbForget (clusterOf c.core) c.hc va).setTok k c.tok .faulted 0
  (s.modGemv c.id (fun x => { x with faulted := true })).raise c.hc r

/-- The walks for some extents started, or the first fault among them, or neither. -/
def gemvReady (s : State) (es : List (Nat × Nat × Use)) : List Nat × Option (Nat × Nat) :=
  ((es.flatMap (fun e => s.pageMisses e.1 e.2.1)).eraseDups, es.findSome? (fun e => s.pageFault e.2.2 e.1 e.2.1))

/-- The limits of a descriptor's fields and of the extents it gives (R295, R297). -/
def gemvOk (s : State) (d : Nat) (c : Gemv) : Bool :=
  let k := strandKey c.core c.strand
  let kb := c.k / 32
  decide (d / 2 ^ 224 = 0 ∧ d / 2 ^ 152 % 256 = 0 ∧ d / 2 ^ 72 % 256 = 0 ∧ c.k % 32 = 0 ∧ 32 ≤ c.k ∧ c.k ≤ 2 ^ 20 ∧
    1 ≤ c.n ∧ c.n ≤ 2 ^ 20 ∧ c.wva.toNat % 256 = 0) &&
  s.reaches k transReach c.wva.toNat (c.n * c.k) && s.reaches k transReach c.sva.toNat (c.n * kb) &&
  s.reaches k rowsReach c.input.toNat (c.k + kb) && s.reaches k rowsReach c.dst.toNat (4 * c.n)

/-- A GEMV's fields taken from its descriptor's bytes, once they can be read; a poisoned byte is consumed (R247, R262, R295, R297, log entry 90). -/
def describeGemv (c : Gemv) (s : State) : State :=
  let va := c.desc.toNat
  let (r, s) := s.peek va 32
  let s := s.takeReplies c.core c.strand c.num
  let d := leNat r.1
  let c := { c with
    wva := BitVec.ofNat 72 d, sva := BitVec.ofNat 72 (d / 2 ^ 80), n := d / 2 ^ 160 % 2 ^ 32, k := d / 2 ^ 192 % 2 ^ 32 }
  if r.2 then s.consume (s.firstBad va 32)
  else if s.gemvOk d c then s.modGemv c.id (fun _ => c) else s.violate

/-- The near-memory engine that holds a byte of device HBM (R240). -/
def nmEngine (pa : Nat) : Nat := pa / 4096 % 8 * 16 + pa / 256 % 16

/-- An int8 from its byte. -/
def i8 (b : Byte) : Int := b.toInt

/-- One output of a GEMV from its blocks: each block's engine, weights, inputs and scales (R138). -/
def gemvOut (blocks : List (Nat × List Byte × List Byte × Nat × Nat)) : Word32 × Fl :=
  (List.range 128).foldl (fun (y : Word32 × Fl) e =>
    match blocks.filter (fun b => b.1 == e) with
    | [] => y
    | bs =>
        let part := bs.foldl (fun (p : Word32 × Fl) b =>
          let (_, w, u, xw, xu) := b
          let dot : Int := ((w.zip u).map (fun e => i8 e.1 * i8 e.2)).sum
          let (v, f) := if xw = 255 ∨ xu = 255 then (f32Nan, (0 : Fl))
            else
              let r := fp32.round .rne ((XVal.ofInt dot).scale (-12 + ((xw : Int) - 127) + ((xu : Int) - 127)))
              (BitVec.ofNat 32 r.1, r.2)
          let (r, f2) := addRne (f32 p.1) (f32 v)
          (r, p.2 ||| f ||| f2)) ((0 : Word32), y.2)
        let (r, f) := addRne (f32 y.1) (f32 part.1)
        (r, part.2 ||| f)) ((0 : Word32), (0 : Fl))

/-- Whether some page of an extent lies outside device HBM (R297). -/
def outsideHbm (s : State) (va n : Nat) : Bool := (s.linesAt va n).any (fun c => pkind c.1.1 != .hbm)

/-- The place of one byte. -/
def byteAt (s : State) (va : Nat) : Nat := match s.linesAt va 1 with
  | c :: _ => c.1.1
  | [] => 0

/-- The pieces of an output extent, cut at granules or lines: offset, address and length. -/
def outPieces (dst : Nat) : (fuel off n : Nat) → List (Nat × Nat × Nat)
  | 0, _, _ => []
  | fuel + 1, off, n =>
      if n = 0 then []
      else
        let at_ := (dst + off) % 2 ^ 72
        let k := min n (grainAt at_ - at_ % grainAt at_)
        (off, at_, k) :: outPieces dst fuel (off + k) (n - k)

/-- Weight or scale bytes as a near-memory engine reads them, in its stack or as the home has answered, with their poison; the strand's own withheld bytes lie over them (R240, R257, R296, R448). -/
def stackRead (s : State) (va n : Nat) : List Byte × Bool :=
  let ls := s.linesAt va n
  let bad (c : (Nat × Nat) × Nat) : Bool := match s.replyTo s.ctx.core s.ctx.strand s.ctx.num c.1 with
    | some r => r.bad
    | none => s.homePoison (c.1.1 / 64)
  (ls.flatMap (fun c => seeWithheld s.me c.1.1 (s.chunkOf s.ctx.core s.ctx.strand s.ctx.num c.1)), ls.any bad)

/-- Whether a near-memory engine's read of an extent must wait at some home (R255, R257). -/
def stackHeld (s : State) (va n : Nat) : Bool :=
  (s.linesAt va n).any (fun c => s.lineHeld s.ctx.core s.ctx.strand s.ctx.num c.1)

/-- A near-memory engine's reads that must wait join the lists of their lines (R13, R257). -/
def stackAsk (s : State) (va n : Nat) : State :=
  (s.linesAt va n).foldl (fun s c =>
    if s.lineHeld s.ctx.core s.ctx.strand s.ctx.num c.1 then askLine (s.myReq c.1.1 c.2 0 (.read c.1.2 false)) s else s) s

/-- The outputs of a GEMV formed from its operands, with their flags (R138, R247, R296). -/
def computeGemv (c : Gemv) (s : State) : State :=
  let kb := c.k / 32
  let (w, bad1) := s.stackRead c.wva.toNat (c.n * c.k)
  let (sc, bad2) := s.stackRead c.sva.toNat (c.n * kb)
  let ((u, bad3), s) := s.peek c.input.toNat (c.k + kb)
  let s := s.takeReplies c.core c.strand c.num
  if bad1 then s.consume (s.firstBad c.wva.toNat (c.n * c.k))
  else if bad2 then s.consume (s.firstBad c.sva.toNat (c.n * kb))
  else if bad3 then s.consume (s.firstBad c.input.toNat (c.k + kb))
  else
    let outs := (List.range c.n).map (fun n => gemvOut ((List.range kb).map (fun b =>
      let j := n * kb + b
      (nmEngine (s.byteAt (c.wva.toNat + 32 * j)), (w.drop (32 * j)).take 32, (u.drop (32 * b)).take 32,
        (sc.getD j 0).toNat, (u.getD (c.k + b) 0).toNat))))
    let out := (outs.flatMap (fun o => leBytes 4 o.1.toNat), outs.foldl (fun f o => f ||| o.2) (0 : Fl))
    s.modGemv c.id (fun c => { c with out := some out })

/-- BYTES of the token a GEMV has armed follows the output bytes performed: those written without those that wait at their homes (R411). -/
def noteGemv (s : State) (c : Gemv) : State :=
  let k := strandKey c.core c.strand
  let waiting := ((s.sentOf c.core c.strand c.num).map (fun r => match r.kind with | .write bs _ => bs.length | _ => 0)).sum
  match c.tok with
  | none => s
  | some i => if ((s.strand k).tokens[i]).st == .armed then s.setTok k c.tok .armed (4 * c.n - waiting) else s

/-- The outputs of a GEMV written as a copy engine's writes; into tiles they go in port slot 0 (R223, R245, R296, log entry 90). -/
def writeGemv (c : Gemv) (bs : List Byte) (fl : Fl) (s : State) : State :=
  let ps := outPieces c.dst.toNat (c.n + 1) 0 (4 * c.n)
  if ps.any (fun p => s.pokeWaits p.2.1 p.2.2) then s
  else if ps.any (fun p => s.portBad 0 p.2.1 p.2.2) then s.violate
  else
    let s := (s.pokeAll false (ps.map (fun p => (p.1, p.2.1, (bs.drop p.1).take p.2.2, false)))).1
    (s.modGemv c.id (fun c => { c with out := some ([], fl) })).noteGemv c

/-- A GEMV completes: its token becomes DONE and its flags reach FSTAT (R135, R290). -/
def finishGemv (c : Gemv) (fl : Fl) (s : State) : State :=
  let k := strandKey c.core c.strand
  let s := s.modStrand k (fun t => { t with front := { t.front with fstat := t.front.fstat ||| fl } })
  { (s.setTok k c.tok .done (4 * c.n)) with gemvs := s.gemvs.filter (fun x => x.id != c.id) }

/-- The extents a GEMV translates next: its descriptor, all its operands, or its outputs once they are formed (R296, R297). -/
def gemvNeeds (c : Gemv) : List (Nat × Nat × Use) :=
  let kb := c.k / 32
  if c.n = 0 then [(c.desc.toNat, 32, .read)]
  else if c.out.isSome then [(c.dst.toNat, 4 * c.n, .write)]
  else [(c.wva.toNat, c.n * c.k, .read), (c.sva.toNat, c.n * kb, .read), (c.input.toNat, c.k + kb, .read), (c.dst.toNat, 4 * c.n, .write)]

/-- What a GEMV whose pages are translated does next: reads its descriptor, forms its outputs, writes them when its bundle's reads are over (R262, R296, R297, R311). -/
def runGemv (c : Gemv) (s : State) : State :=
  let kb := c.k / 32
  match c.out with
  | some (bs, fl) => if s.writesHeld s.meKey (s.gemvAct c) then s else writeGemv c bs fl s
  | none =>
      if c.n = 0 then (if s.peekHeld c.desc.toNat 32 then s.askFor c.desc.toNat 32 else describeGemv c s)
      else if s.outsideHbm c.wva.toNat (c.n * c.k) || s.outsideHbm c.sva.toNat (c.n * kb) then s.violate
      else if s.peekHeld c.input.toNat (c.k + kb) || s.stackHeld c.wva.toNat (c.n * c.k) || s.stackHeld c.sva.toNat (c.n * kb) then
        ((s.askFor c.input.toNat (c.k + kb)).stackAsk c.wva.toNat (c.n * c.k)).stackAsk c.sva.toNat (c.n * kb)
      else computeGemv c s

/-- A GEMV in flight goes on: it waits for its writes at their homes and completes, or starts walks, faults, or does its next part (R262, R290, R296, R297). -/
def stepGemv (s : State) (c : Gemv) : State :=
  if c.faulted || decide (128 ≤ c.core) || s.blocked (strandKey c.core c.strand) (s.gemvAct c) ||
      !(s.sentOf c.core c.strand c.num).isEmpty then s
  else match c.out with
    | some ([], fl) => finishGemv c fl s
    | _ =>
        let s := s.asGemv c
        match s.gemvReady (gemvNeeds c) with
        | (m :: ms, _) => (m :: ms).foldl startWalk s
        | ([], some (code, at_)) => s.stopGemv c code at_
        | ([], none) => runGemv c s

/-- The GEMV an operation starts, its descriptor not yet read. -/
def newGemv (tk : Option TokReg) (d a t : AReg) (s : State) : Gemv × State :=
  let cnt := match s.me.ops.find? (fun o => o.num == s.ctx.num) with
    | some o => o.cnt
    | none => s.me.count
  let (id, s) := s.newId
  let c : Gemv :=
    { id := id, core := s.ctx.core, strand := s.ctx.strand, hc := s.hcid, launch := s.me.launch, num := s.ctx.num, cnt := cnt
      tok := tk, desc := BitVec.ofNat 72 (s.ea a 0), dst := s.rdA d, input := s.rdA t, wva := 0, sva := 0, n := 0, k := 0
      word := s.ctx.word, bundle := s.ctx.bundle, faulted := false, skipped := false, out := none }
  (c, { (s.setTok s.meKey tk .armed 0) with gemvs := s.gemvs ++ [c] })

/-- GEMV at the head of the C queue: it waits there until its descriptor can be read, and is then taken by its engine (R282, R295, R297). -/
def gemvOp (tk : Option TokReg) (d a t : AReg) (s : State) : State :=
  let va := s.ea a 0
  if va % 32 ≠ 0 then s.violate
  else match s.gemvReady [(va, 32, .read)] with
    | (m :: ms, _) => (m :: ms).foldl startWalk s
    | ([], _) =>
        if s.peekHeld va 32 then (s.askFor va 32).wait
        else
          let (c, s) := newGemv tk d a t s
          describeGemv c s

/-- GEMV at the head of the C queue whose descriptor's page has no leaf: it is taken, and stops (R297, R441). -/
def gemvFault (tk : Option TokReg) (d a t : AReg) (va : Nat) (s : State) : State :=
  let (c, s) := newGemv tk d a t s
  s.stopGemv c 1 va

/-! ### Bank modes and software-flushed lines (R244, R298 to R300) -/

/-- BANKMODE at the bank's arbiter: it waits for a change in progress, is checked again, and starts its own (R244, R298). -/
def bankmodeOp (x : XReg) (s : State) : State :=
  let w := (s.rdX x).toNat
  let cl := clusterOf s.ctx.core
  let b := w % 128
  let mode := w / 256 % 8
  if (s.bank cl b).chg.isSome then s.wait
  else if s.bankTaken cl b then s.violate
  else s.modBank cl b (fun k => { k with
    chg := some ⟨mode, if mode = 1 then none else some s.hcid, some s.meKey, s.ctx.num⟩ })

/-- The lines of the issuing cluster's cache that meet an extent; pages that do not translate are skipped (R299). -/
def cachedIn (s : State) (va n : Nat) : List (Nat × CLine) :=
  let ls := (s.linesAt va n).map (fun c => c.1.1 / 64)
  (s.cluster (clusterOf s.ctx.core)).lines.filter (fun e => ls.contains e.1)

/-- FLUSH: the dirty bytes of SW-FL lines are sent, and the lines stay (R299). -/
def flushOp (d : XReg) (a : AReg) (s : State) : State :=
  let cl := clusterOf s.ctx.core
  ((s.cachedIn (s.ea a 0) (s.rdX d).toNat).filter (fun e => e.2.pclass == 3)).foldl (fun s e =>
    (s.sendDirty s.ctx.core s.ctx.strand s.ctx.num s.me.launch s.ctx.bundle.toNat e.1 { e.2 with hc := s.hcid }).setLine cl e.1 { e.2 with dirty := 0 }) s

/-- INVAL: cluster copies are dropped, SW-FL lines with their dirty bytes; host lines are left, and a drop waits for the cluster's own writes to the line (R300, R306). -/
def invalOp (d : XReg) (a : AReg) (s : State) : State :=
  let cl := clusterOf s.ctx.core
  let ls := (s.cachedIn (s.ea a 0) (s.rdX d).toNat).filter (fun e => pkind (e.1 * 64) != .host)
  if ls.any (fun e => s.pendingWrite cl e.1) then s.wait
  else ls.foldl (fun s e => s.dropLine cl e.1) s

/-! ### The static copy schedule (R291, R292) -/

/-- The base address of a copy-schedule code (R291). -/
def schedBase (s : State) (k code : Nat) : Nat :=
  if code < 6 then (((s.launchOf k).bind (fun l => l.regions[code]?)).map (fun r => r.base.toNat)).getD 0
  else if code = 6 then 0xFFFF * 2 ^ 56
  else ((s.imageOf k).bind (·.data)).getD 0

/-- The source and destination of a copy-schedule entry. -/
def schedSpan (s : State) (k : Nat) (e : SchedEnt) : Nat × Nat :=
  ((s.schedBase k e.sbase + e.soff) % 2 ^ 72, (s.schedBase k e.dbase + e.doff) % 2 ^ 72)

/-- The next entry of a strand's copy schedule, when its launch enables the schedule (R292). -/
def schedEntry (s : State) (k : Nat) : Option SchedEnt :=
  let t := s.strand k
  match s.launchOf k, s.coreImg k with
  | some l, some c => if l.csched then c.sched[t.schedNext]? else none
  | _, _ => none

/-- Whether the next entry is released: SCNT has reached its stage (R292 step 1). -/
def schedReleased (s : State) (k : Nat) : Bool :=
  match s.schedEntry k with
  | some e => decide (e.stage ≤ (s.strand k).front.scnt.toNat)
  | none => false

/-- Whether an entry's token is free to arm: neither ARMED nor FAULTED (R292 step 2). -/
def entryFree (t : Strand) (e : SchedEnt) : Bool := match e.tok with | some i => !tokBusy t i.val | none => true

/-- A released entry: with OC it begins to wait for the operands-consumed event of every bank its destination touches, a wait that begins while every count is zero being met at once; and it arms its token as soon as that is free (R213, R292 steps 1 to 3). -/
def armEntry (s : State) (k : Nat) : State :=
  match s.schedEntry k with
  | none => s
  | some e =>
      if !s.schedReleased k then s
      else
        let banks := match spotOf (k / 4) (s.schedSpan k e).2 with
          | .scr addr => if e.oc then banksOf addr e.len else []
          | _ => []
        let wait := if banks.all (fun b => (s.bank b.1 b.2).lock == 0) then [] else banks.map (fun b => b.1 * 128 + b.2)
        let s := if (s.strand k).schedOcArm.isSome then s else s.modStrand k (fun t => { t with schedOcArm := some wait })
        if (s.strand k).schedTok || !entryFree (s.strand k) e then s
        else (s.setTok k e.tok .armed 0).modStrand k (fun t => { t with schedTok := true })

/-- Whether a strand's next entry is released and can still start: its token is not FAULTED. EXIT and suspension wait for it (R292, R352, log entry 91). -/
def entryOwed (s : State) (k : Nat) : Bool :=
  s.schedReleased k && ((s.strand k).schedTok || (match s.schedEntry k with | some e => entryFree (s.strand k) e | none => false))

/-- The next entry starts as a long-form COPY, once it is released, its token armed and its banks' operands consumed; a halted core's entries wait (R292, R460). -/
def startEntry (s : State) (k : Nat) : State :=
  let s := s.armEntry k
  let t := s.strand k
  match s.schedEntry k, t.schedOcArm with
  | some e, some [] =>
      if !resident t || t.life == .placed || !t.schedTok || (s.core (k / 4)).halt != 0 then s
      else
        let (src, dst) := s.schedSpan k e
        let s := { s with ctx := { Ctx.idle with
          core := k / 4, strand := k % 4, slot := 9, bundle := t.pc, num := t.opNum + 1, admitted := true, defer := s.ctx.defer } }
        let s := s.modMe (fun t => { t with opNum := t.opNum + 1, schedNext := t.schedNext + 1, schedOcArm := none, schedTok := false })
        if e.len ≠ 0 && (s.copyStop copyReach src dst e.len e.len e.len e.port.toNat e.addw).isSome then
          (s.endLaunch s.me.launch { s.myRecord 0x10 with slot := 9 }).setRes .stopped
        else (s.takeCopy e.tok src dst e.len e.port.toNat e.addw .plain 9).armEntry k
  | _, _ => s

end State

/-! ### Meanings -/

/-- COPY (R283). -/
def execCopy (g : Guard) (tk : Option TokReg) (d a : AReg) (n : CopyLen) (s : State) : Host.Outcome State Fault Refusal :=
  s.slotOp (.copy g tk d a n) g (State.copyOp tk d a n)

/-- COPYS (R287). -/
def execCopys (g : Guard) (tk : Option TokReg) (d a : AReg) (t : XReg) (s : State) : Host.Outcome State Fault Refusal :=
  s.slotOp (.copys g tk d a t) g (State.copysOp tk d a t)

/-- COPYG (R288). -/
def execCopyg (g : Guard) (tk : Option TokReg) (d a : AReg) (t : VReg) (s : State) : Host.Outcome State Fault Refusal :=
  s.slotOp (.copyg g tk d a t) g (State.copygOp tk d a t)

/-- COPYFE (R289). -/
def execCopyfe (g : Guard) (tk : Option TokReg) (d a : AReg) (t : XReg) (s : State) : Host.Outcome State Fault Refusal :=
  s.slotOp (.copyfe g tk d a t) g (State.copyfeOp tk d a t)

/-- GEMV (R295). -/
def execGemv (g : Guard) (tk : Option TokReg) (d a t : AReg) (s : State) : Host.Outcome State Fault Refusal :=
  s.slotOp (.gemv g tk d a t) g (State.gemvOp tk d a t)

/-- BANKMODE (R298). -/
def execBankmode (g : Guard) (a : XReg) (s : State) : Host.Outcome State Fault Refusal :=
  s.slotOp (.bankmode g a) g (State.bankmodeOp a)

/-- FLUSH (R299). -/
def execFlush (g : Guard) (d : XReg) (a : AReg) (s : State) : Host.Outcome State Fault Refusal :=
  s.slotOp (.flush g d a) g (State.flushOp d a)

/-- INVAL (R300). -/
def execInval (g : Guard) (d : XReg) (a : AReg) (s : State) : Host.Outcome State Fault Refusal :=
  s.slotOp (.inval g d a) g (State.invalOp d a)

/-- COPY_COMPLETE: the copy of that name performs what it has in flight and, with its last byte, completes (R284, R290). -/
def execCopyComplete (n : Nat) (s : State) : Host.Outcome State Fault Refusal :=
  match s.copies.find? (fun c => c.id == n) with
  | some c => .next (s.stepCopy c)
  | none => .next s

/-- GEMV_COMPLETE: the GEMV of that name writes its outputs and completes (R296). -/
def execGemvComplete (n : Nat) (s : State) : Host.Outcome State Fault Refusal :=
  match s.gemvs.find? (fun c => c.id == n) with
  | some c => .next (s.stepGemv c)
  | none => .next s

/-- COPYSCHED_ENTRY_START: the strand's next copy-schedule entry starts (R292). -/
def execCopyschedEntryStart (core : Fin 128) (strand : Fin 4) (s : State) : Host.Outcome State Fault Refusal :=
  .next (s.startEntry (strandKey core.val strand.val))

end Sys2Proof.Machine
end

