-- ==== Sys2Proof/Machine/Tile.lean ====
section
/-! DEFINITION. The M-slot forms: matrix operations and tile moves (spec 08 R204 to R223, 05 R136 and R137). -/

namespace Sys2Proof.Machine

/-! ### Elements in bytes (R123, R218) -/

/-- Element i of packed elements of a width in bits; 4-bit elements take the low half first (R123). -/
def elemAt (bs : List Byte) (bits i : Nat) : Nat :=
  if bits = 4 then (bs.getD (i / 2) 0).toNat / 16 ^ (i % 2) % 16
  else leNat ((bs.drop (i * (bits / 8))).take (bits / 8))

/-- Codes packed two to a byte (R123). -/
def packNibbles : List Nat → List Byte
  | a :: b :: cs => BitVec.ofNat 8 (a % 16 + 16 * (b % 16)) :: packNibbles cs
  | [a] => [BitVec.ofNat 8 (a % 16)]
  | [] => []

/-- Codes packed as elements of a width (R123). -/
def packElems (bits : Nat) (cs : List Nat) : List Byte :=
  if bits = 4 then packNibbles cs else cs.flatMap (fun c => leBytes (bits / 8) c)

/-! ### One chunk of one element (R136, R137) -/

/-- The element type behind an operand format. -/
def MFmtTy : MFmt → ETy
  | .mxi8 | .i8 => .i8
  | .mxe4 => .e4m3
  | .mxe5 => .e5m2
  | .mxf4 => .e2m1
  | .bf16 => .bf16
  | .f16 => .f16
  | .i4 => .i4

/-- The accumulator is int32 for .I8 and .I4 (R136). -/
def MFmtInt : MFmt → Bool
  | .i8 | .i4 => true
  | _ => false

/-- A matrix operation's shape and operands: width, transposed, format, K, operand bytes. -/
structure MatOp where
  g : Nat
  trans : Bool
  f : MFmt
  k : Nat
  a : List Byte
  b : List Byte
  deriving DecidableEq, Repr

namespace MatOp

/-- The code of a(m, k) in its chunk (R215). -/
def aCode (o : MatOp) (m c j : Nat) : Nat :=
  let bits := 4 * o.f.half
  elemAt (o.a.drop (4096 * c + 64 * m)) bits j
/-- The code of b(k, n) in its chunk (R215). -/
def bCode (o : MatOp) (n c j : Nat) : Nat :=
  let bits := 4 * o.f.half
  if o.trans then elemAt (o.b.drop (4096 * o.g * c + 32 * o.g * o.f.half * j)) bits n
  else elemAt (o.b.drop (4096 * o.g * c + 64 * n)) bits j
/-- The E8M0 scale of a(m, k) (R215). -/
def aScale (o : MatOp) (m c j : Nat) : Nat := (o.a.getD (4096 * o.f.chunks o.k + 256 * c + 4 * m + j / 32) 0).toNat
/-- The E8M0 scale of b(k, n) (R215). -/
def bScale (o : MatOp) (n c j : Nat) : Nat :=
  (o.b.getD (4096 * o.g * o.f.chunks o.k + 256 * o.g * c + 4 * n + j / 32) 0).toNat
/-- The unmasked elements of a chunk (R136). -/
def chunkLen (o : MatOp) (c : Nat) : Nat := min o.f.chunk (o.k - o.f.chunk * c)

/-- The exact integer sum of a chunk. -/
def intSum (o : MatOp) (m n c : Nat) : Int :=
  ((List.range (o.chunkLen c)).map (fun j => (MFmtTy o.f).toInt (o.aCode m c j) * (MFmtTy o.f).toInt (o.bCode n c j))).sum

/-- One product, before and after its block's scales, with its flags (R127, R137). -/
def product (o : MatOp) (m n c j : Nat) : XVal × XVal × Fl :=
  let (p, f) := (mxValue (MFmtTy o.f) (o.aCode m c j)).mul (mxValue (MFmtTy o.f) (o.bCode n c j))
  (p, if o.f.isMx then mxScaled (o.bScale n c j) (mxScaled (o.aScale m c j) p) else p, f)

/-- The sum of exact products: NaN for a NaN product or scale or for infinite products of both signs, which raise IV whatever the scales; an infinity for one sign, the exact sum otherwise (R133, R137, log entry 57). -/
def sumOf (ps : List (XVal × XVal × Fl)) : XVal × Fl :=
  let pos := ps.any (fun p => p.1 == .inf false)
  let neg := ps.any (fun p => p.1 == .inf true)
  let fl := ps.foldl (fun f p => f ||| p.2.2) (if pos && neg then flIV else 0)
  if ps.any (fun p => p.2.1.isNan) || (pos && neg) then (.nan, fl)
  else if pos then (.inf false, fl)
  else if neg then (.inf true, fl)
  else match ps with
    | [] => (.zero false, fl)
    | p :: ps => (ps.foldl (fun a q => (XVal.add .rne a q.2.1).1) p.2.1, fl)

/-- The bytes of operand A that rows below m read, as offset and length: unmasked elements, and the scales of their blocks (R136, R215, R216, log entry 87). -/
def usedA (o : MatOp) (m : Nat) : List (Nat × Nat) :=
  (List.range (o.f.chunks o.k)).flatMap (fun c => (List.range m).flatMap (fun i =>
    (4096 * c + 64 * i, (o.chunkLen c * o.f.half + 1) / 2) ::
      (if o.f.isMx then [(4096 * o.f.chunks o.k + 256 * c + 4 * i, (o.chunkLen c + 31) / 32)] else [])))

/-- The bytes of operand B that columns below n read (R136, R215, R216, log entry 87). -/
def usedB (o : MatOp) (n : Nat) : List (Nat × Nat) :=
  (List.range (o.f.chunks o.k)).flatMap (fun c =>
    (if o.trans then (List.range (o.chunkLen c)).map (fun j => (4096 * o.g * c + 32 * o.g * o.f.half * j, (n * o.f.half + 1) / 2))
     else (List.range n).map (fun i => (4096 * o.g * c + 64 * i, (o.chunkLen c * o.f.half + 1) / 2))) ++
    (if o.f.isMx then (List.range n).map (fun i => (4096 * o.g * o.f.chunks o.k + 256 * o.g * c + 4 * i, (o.chunkLen c + 31) / 32)) else []))

/-- One chunk added into an element (R137). -/
def addChunk (o : MatOp) (m n c : Nat) (acc : Word32) : Word32 × Fl :=
  if MFmtInt o.f then
    let (i, f) := satInt (-(2 ^ 31)) (2 ^ 31 - 1) (acc.toInt + o.intSum m n c)
    (BitVec.ofInt 32 i, f)
  else
    let (s, f1) := sumOf ((List.range (o.chunkLen c)).map (o.product m n c))
    let (r, f2) := addRne (f32 acc) s
    (r, f1 ||| f2)

/-- Element (m, n) after the chunks from lo up to hi (R137). -/
def element (o : MatOp) (lo hi m n : Nat) (acc : Word32) : Word32 × Fl :=
  (List.range (hi - lo)).foldl (fun (a : Word32 × Fl) c =>
    let (r, f) := o.addChunk m n (lo + c) a.1
    (r, a.2 ||| f)) (acc, 0)

end MatOp

namespace State

/-! ### Tiles (R204, R205) -/

/-- The first n elements of a row of a physical tile, 64 columns from each position (R27). -/
def tileRow (s : State) (core tile m n : Nat) : List Word32 :=
  (List.range ((n + 63) / 64)).flatMap (fun p => wordsOf (s.mem.readN (accAddr core tile m (64 * p)) (4 * min 64 (n - 64 * p))))
/-- The first elements of a row written, 64 columns to each position (R27). -/
def setTileRow (s : State) (core tile m : Nat) (ws : List Word32) : State :=
  (List.range ((ws.length + 63) / 64)).foldl (fun s p =>
    { s with mem := s.mem.write (accAddr core tile m (64 * p)) (((ws.drop (64 * p)).take 64).flatMap (fun w => leBytes 4 w.toNat)) }) s
/-- Every element of a tile, row by row. -/
def tileAll (s : State) (core tile : Nat) : List Word32 :=
  (List.range 64).flatMap (fun m => s.tileRow core tile m (64 * s.width core))
/-- Every element of a tile written, row by row. -/
def setTileAll (s : State) (core tile : Nat) (ws : List Word32) : State :=
  let n := 64 * s.width core
  (List.range 64).foldl (fun s m => s.setTileRow core tile m ((ws.drop (n * m)).take n)) s
/-- The physical tile of a tile field (R205). -/
def tileOf (s : State) (t : TReg) : Nat := s.me.tb + t.val

/-- The chunks from lo up to hi of a matrix operation added into its tile, with their flags (R137, R216). -/
def matWrite (s : State) (core tile m n lo hi : Nat) (o : MatOp) : State × Fl :=
  (List.range m).foldl (fun (a : State × Fl) i =>
    let rs := (a.1.tileRow core tile i n).zipIdx.map (fun e => o.element lo hi i e.2 e.1)
    (a.1.setTileRow core tile i (rs.map (·.1)), rs.foldl (fun f r => f ||| r.2) a.2)) (s, 0)

/-- The first poisoned one of some parts of an extent (R247). -/
def badPart (s : State) (va : Nat) (es : List (Nat × Nat)) : Option Nat :=
  match spotOf s.ctx.core va with
  | .scr addr => (es.find? (fun e => s.anyPoison (addr + e.1) e.2)).map (fun e => va + e.1)
  | _ => none

/-- A matrix operation: empty ones change nothing; one recorded at issue reads its operands now and writes its tile at MMA_COMPLETE; one that stands alone does both. Poison counts in the bytes its elements use (R136, R214 to R216, R247, R320). -/
def matOp (trans : Bool) (d : TReg) (a b : AReg) (xm xn xk : XReg) (f : MFmt) (s : State) : State :=
  let m := (s.rdX xm).toNat
  let n := (s.rdX xn).toNat
  let k := (s.rdX xk).toNat
  if m = 0 ∨ n = 0 ∨ k = 0 then s
  else
    (readVa holdFault (s.ea a 0) (f.extent k) s).run (fun opA s =>
      (readVa holdFault (s.ea b 0) (s.g * f.extent k) s).run (fun opB s =>
        let mine (r : Mma) : Bool := r.core == s.ctx.core && r.strand == s.ctx.strand && r.num == s.ctx.num
        let o : MatOp := ⟨s.g, trans, f, k, opA.1, opB.1⟩
        match s.badPart (s.ea a 0) (o.usedA m), s.badPart (s.ea b 0) (o.usedB n) with
        | some va, _ => s.consume va
        | none, some va => s.consume va
        | none, none =>
            if s.mmas.any mine then
              { s with mmas := s.mmas.map (fun r => if mine r then { r with opA := opA.1, opB := opB.1 } else r) }
            else
              let (s, fl) := s.matWrite s.ctx.core (s.tileOf d) m n 0 (f.chunks k) o
              s.addFlags fl))

/-- Every element of a tile zero (R217). -/
def zeroTile (s : State) (core tile : Nat) : State :=
  (List.range 64).foldl (fun s m => (List.range (s.width core)).foldl (fun s p =>
    { s with mem := s.mem.zero (accAddr core tile m (64 * p)) 256 }) s) s

/-- One element converted by ACCRET: 32-bit types copy (R219). -/
def retElem (ty : ETy) (w : Word32) : Nat × Fl :=
  match ty with
  | .f32 | .i32 => (w.toNat, 0)
  | _ => ty.convert .rne false (if ty.ffmt.isSome then f32 w else XVal.ofInt w.toInt)

/-- ACCRET: the tile converted into its image, its granules set full, then the tile zeroed (R219). -/
def accret (d : TReg) (a : AReg) (ty : ETy) (s : State) : State :=
  let tile := s.tileOf d
  let rs := (s.tileAll s.ctx.core tile).map (retElem ty)
  (store (some true) (s.ea a 0) (packElems ty.bits (rs.map (·.1))) s).run (fun _ s =>
    (s.zeroTile s.ctx.core tile).addFlags (rs.foldl (fun f r => f ||| r.2) 0))

/-- One element updated by ACCADD (R220). -/
def addElem (ty : ETy) (w : Word32) (code : Nat) : Word32 × Fl :=
  match ty.ffmt with
  | some F => addRne (f32 w) (F.decode code)
  | none =>
      let (i, f) := satInt (-(2 ^ 31)) (2 ^ 31 - 1) (w.toInt + ty.toInt code)
      (BitVec.ofInt 32 i, f)

/-- The image a tile operation reads: the bytes it has read at its start, or those that stand there now (R209, R311). -/
def imageLoad (va n : Nat) (s : State) : Acc (List Byte) :=
  match (s.me.ops.find? (fun o => o.num == s.ctx.num)).bind (·.got) with
  | some bs => .ok bs s
  | none => load va n s

/-- ACCADD: the image added element by element; its read waits on no full-empty bit (R220, log entry 101). -/
def accadd (d : TReg) (a : AReg) (ty : ETy) (s : State) : State :=
  let tile := s.tileOf d
  (imageLoad (s.ea a 0) (imageBytes s.g ty) s).run (fun bs s =>
    let rs := (s.tileAll s.ctx.core tile).zipIdx.map (fun e => addElem ty e.1 (elemAt bs ty.bits e.2))
    (s.setTileAll s.ctx.core tile (rs.map (·.1))).addFlags (rs.foldl (fun f r => f ||| r.2) 0))

/-- ACCLD: raw bits into the tile (R217). -/
def accld (d : TReg) (a : AReg) (s : State) : State :=
  (imageLoad (s.ea a 0) (16384 * s.g) s).run (fun bs s => s.setTileAll s.ctx.core (s.tileOf d) (wordsOf bs))

/-- ACCST: raw bits of the tile (R217). -/
def accst (d : TReg) (a : AReg) (s : State) : State :=
  (store none (s.ea a 0) ((s.tileAll s.ctx.core (s.tileOf d)).flatMap (fun w => leBytes 4 w.toNat)) s).fin

/-- ACCRD: rows r and r + 1 across the lanes, rows past the last as zeros (R221). -/
def accrd (d : VReg) (t : TReg) (xm : XReg) (s : State) : State :=
  let r := (s.rdX xm).toNat
  let n := 64 * s.g
  let row (i : Nat) : List Word32 := if i < 64 then s.tileRow s.ctx.core (s.tileOf t) i n else List.replicate n 0
  let ws := row r ++ row (r + 1)
  s.wrV d (BitVec.allOnes 512) (fun l => ws.getD l 0)

/-- ACCWR: the lanes to rows r and r + 1; rows past the last are not written (R221). -/
def accwr (d : TReg) (v : VReg) (xm : XReg) (s : State) : State :=
  let r := (s.rdX xm).toNat
  let n := 64 * s.g
  let ws := (s.rdV v).toList
  let put (i : Nat) (ws : List Word32) (s : State) : State := if i < 64 then s.setTileRow s.ctx.core (s.tileOf d) i ws else s
  put (r + 1) ((ws.drop n).take n) (put r (ws.take n) s)

/-! ### Matrix operations in flight (R211, R216) -/

/-- An operation of a strand leaves its engine queue. -/
def popOp (s : State) (k num : Nat) : State :=
  s.modStrand k (fun t => { t with ops := t.ops.filter (fun o => o.num != num) })

/-- A tile's busy bit cleared (R209). -/
def clearBusy (s : State) (core tile : Nat) : State := s.modCore core (fun c => { c with busy := c.busy.del tile })

/-- Whether an MMA has read its operands (R216 step 2). -/
def mmaStarted (s : State) (m : Mma) : Bool :=
  (s.strand (strandKey m.core m.strand)).ops.any (fun o => o.num == m.num && o.stage == .started)

/-- An MMA reaches operands-consumed: its lock counts fall (R211). -/
def consumeMma (s : State) (m : Mma) : State :=
  if m.consumed || !s.mmaStarted m then s
  else
    let f (r : Mma) : Mma := if r.id = m.id then { r with consumed := true } else r
    { (s.unlock m) with mmas := s.mmas.map f }

/-- A flag set of a strand raised (R135). -/
def flagStrand (s : State) (k : Nat) (fl : Fl) : State :=
  s.modStrand k (fun t => { t with front := { t.front with fstat := t.front.fstat ||| fl } })

/-- A matrix operation in flight, as a shape. -/
def mmaShape (m : Mma) : MatOp := ⟨m.width, m.trans, m.fmt, m.k, m.opA, m.opB⟩

/-- The access of an MMA in flight, which its tile is written by (R311). -/
def mmaHeld (s : State) (m : Mma) : Bool :=
  let k := strandKey m.core m.strand
  match (s.strand k).ops.find? (fun o => o.num == m.num) with
  | some o => s.writesHeld k (s.actOf k o)
  | none => false

/-- The next chunk of an MMA that has read its operands, added into its tile: copies may update its elements between two chunks (R137, R223, log entry 88). -/
def stepMma (s : State) (m : Mma) : State :=
  if m.fmt.chunks m.k ≤ m.chunk + 1 || s.mmaHeld m then s
  else
    let (s, fl) := s.matWrite m.core m.tile m.m m.n m.chunk (m.chunk + 1) (mmaShape m)
    let f (r : Mma) : Mma := if r.id = m.id then { r with chunk := m.chunk + 1, fl := m.fl ||| fl } else r
    { s with mmas := s.mmas.map f }

/-- An MMA past operands-consumed adds its last chunks, clears the tile's busy bit and leaves its queue (R135, R216 step 3). -/
def completeMma (s : State) (m : Mma) : State :=
  if !m.consumed || s.mmaHeld m then s
  else
    let k := strandKey m.core m.strand
    let (s, fl) := s.matWrite m.core m.tile m.m m.n m.chunk (m.fmt.chunks m.k) (mmaShape m)
    let s := ((s.flagStrand k (m.fl ||| fl)).clearBusy m.core m.tile).popOp k m.num
    { s with mmas := s.mmas.filter (fun r => r.id != m.id) }

end State

/-! ### Meanings -/

/-- MMA (R214 to R216). -/
def execMma (g : Guard) (d : TReg) (a b : AReg) (xm xn xk : XReg) (f : MFmt) (s : State) : Host.Outcome State Fault Refusal :=
  s.slotOp (.mma g d a b xm xn xk f) g (State.matOp false d a b xm xn xk f)

/-- MMAT: operand B laid by columns (R214 to R216). -/
def execMmat (g : Guard) (d : TReg) (a b : AReg) (xm xn xk : XReg) (f : MFmt) (s : State) : Host.Outcome State Fault Refusal :=
  s.slotOp (.mmat g d a b xm xn xk f) g (State.matOp true d a b xm xn xk f)

/-- ACCZ (R217). -/
def execAccz (g : Guard) (d : TReg) (s : State) : Host.Outcome State Fault Refusal :=
  s.slotOp (.accz g d) g (fun s => s.zeroTile s.ctx.core (s.tileOf d))

/-- ACCRET (R219). -/
def execAccret (g : Guard) (d : TReg) (a : AReg) (ty : ETy) (s : State) : Host.Outcome State Fault Refusal :=
  s.slotOp (.accret g d a ty) g (State.accret d a ty)

/-- ACCADD (R220); its port slot orders its writes against other agents' (R222). -/
def execAccadd (g : Guard) (d : TReg) (a : AReg) (ty : ETy) (port : BitVec 2) (s : State) : Host.Outcome State Fault Refusal :=
  s.slotOp (.accadd g d a ty port) g (State.accadd d a ty)

/-- ACCLD (R217). -/
def execAccld (g : Guard) (d : TReg) (a : AReg) (s : State) : Host.Outcome State Fault Refusal :=
  s.slotOp (.accld g d a) g (State.accld d a)

/-- ACCST (R217). -/
def execAccst (g : Guard) (d : TReg) (a : AReg) (s : State) : Host.Outcome State Fault Refusal :=
  s.slotOp (.accst g d a) g (State.accst d a)

/-- ACCRD (R221). -/
def execAccrd (g : Guard) (d : VReg) (t : TReg) (xm : XReg) (s : State) : Host.Outcome State Fault Refusal :=
  s.slotOp (.accrd g d t xm) g (State.accrd d t xm)

/-- ACCWR (R221). -/
def execAccwr (g : Guard) (d : TReg) (v : VReg) (xm : XReg) (s : State) : Host.Outcome State Fault Refusal :=
  s.slotOp (.accwr g d v xm) g (State.accwr d v xm)

/-- MMA_OPERANDS_CONSUMED (R211, R213). -/
def execMmaOperandsConsumed (n : Nat) (s : State) : Host.Outcome State Fault Refusal :=
  match s.mmas.find? (fun m => m.id == n) with
  | some m => .next (s.consumeMma m)
  | none => .next s

/-- MMA_COMPLETE (R216). -/
def execMmaComplete (n : Nat) (s : State) : Host.Outcome State Fault Refusal :=
  match s.mmas.find? (fun m => m.id == n) with
  | some m => .next (s.completeMma m)
  | none => .next s

end Sys2Proof.Machine
end

