-- ==== Sys2Proof/Machine/Vec.lean ====
section
/-! DEFINITION. The V-slot forms (spec 07 R180 to R203). -/

namespace Sys2Proof.Machine

/-! ### Elements (R187, R191, R192, R195) -/

/-- A floating or integer operation on elements of a type. -/
def arith (ty : ETy) (mode : Mode) (fi : Int → Int → Int) (ff : XVal → XVal → XVal × Fl) (a b : Nat) : Nat × Fl :=
  match ty.ffmt with
  | some F =>
      let (x, f1) := ff (F.decode a) (F.decode b)
      let (c, f2) := F.round mode x
      (c, f1 ||| f2)
  | none => (ty.ofInt (fi (ty.toInt a) (ty.toInt b)), 0)

/-- The sum of two elements (R187). -/
def elemAdd (ty : ETy) (mode : Mode) (a b : Nat) : Nat × Fl := arith ty mode (· + ·) (XVal.add mode) a b
/-- The difference (R187). -/
def elemSub (ty : ETy) (mode : Mode) (a b : Nat) : Nat × Fl := arith ty mode (· - ·) (fun x y => XVal.add mode x y.neg) a b
/-- The product (R187). -/
def elemMul (ty : ETy) (mode : Mode) (a b : Nat) : Nat × Fl := arith ty mode (· * ·) XVal.mul a b
/-- u + s × t with one rounding (R187). -/
def elemFma (ty : ETy) (mode : Mode) (s t u : Nat) : Nat × Fl :=
  match ty.ffmt with
  | some F =>
      let (x, f1) := XVal.fma mode (F.decode u) (F.decode s) (F.decode t)
      let (c, f2) := F.round mode x
      (c, f1 ||| f2)
  | none => (ty.ofInt (ty.toInt u + ty.toInt s * ty.toInt t), 0)
/-- The minimum (R134, R187). -/
def elemMin (ty : ETy) (a b : Nat) : Nat :=
  match ty.ffmt with
  | some F => F.minBits a b
  | none => if ty.toInt a ≤ ty.toInt b then a else b
/-- The maximum (R134, R187). -/
def elemMax (ty : ETy) (a b : Nat) : Nat :=
  match ty.ffmt with
  | some F => F.maxBits a b
  | none => if ty.toInt a ≤ ty.toInt b then b else a
/-- The absolute value (R187). -/
def elemAbs (ty : ETy) (a : Nat) : Nat :=
  match ty.ffmt with
  | some F => if (F.decode a).isNan then F.nanBits.1 else a % 2 ^ (F.width - 1)
  | none => ty.ofInt (if ty.toInt a < 0 then -(ty.toInt a) else ty.toInt a)
/-- The negation (R187). -/
def elemNeg (ty : ETy) (a : Nat) : Nat :=
  match ty.ffmt with
  | some F => if (F.decode a).isNan then F.nanBits.1 else (a + 2 ^ (F.width - 1)) % 2 ^ F.width
  | none => ty.ofInt (-(ty.toInt a))
/-- A condition between two elements (R192). -/
def elemCmp (c : Cond) (ty : ETy) (a b : Nat) : Bool :=
  match ty.ffmt with
  | some F => XVal.test c (F.decode a) (F.decode b)
  | none =>
      match c with
      | .eq => a == b
      | .ne => a != b
      | .lt => ty.toInt a < ty.toInt b
      | .le => ty.toInt a ≤ ty.toInt b
      | .gt => ty.toInt b < ty.toInt a
      | .ge => ty.toInt b ≤ ty.toInt a
      | .ltn => a < b
      | .len => a ≤ b
      | .gtn => b < a
      | .gen => b ≤ a

/-- Combine of VRED and VSCAN (R195, log entry 50). -/
def combine (op : RedOp) (ty : ETy) (mode : Mode) (a b : Nat) : Nat × Fl :=
  match op with
  | .add => elemAdd ty mode a b
  | .min => (elemMin ty a b, 0)
  | .max => (elemMax ty a b, 0)
  | .and => (a &&& b, 0)
  | .or => (a ||| b, 0)
  | .xor => (a ^^^ b, 0)

/-- Identity of VRED (R195). -/
def redIdentity (op : RedOp) (ty : ETy) : Nat :=
  match op, ty.ffmt with
  | .add, _ => 0
  | .min, some F => F.infBits false
  | .min, none => ty.ofInt ty.range.2
  | .max, some F => F.infBits true
  | .max, none => ty.ofInt ty.range.1
  | .and, _ => 2 ^ ty.bits - 1
  | .or, _ => 0
  | .xor, _ => 0

/-- One level of the tree: neighbours combined, a lone child passed on (R195). -/
def treeLevel (op : RedOp) (ty : ETy) (mode : Mode) : List (Option Nat) → List (Option Nat) × Fl
  | a :: b :: ns =>
      let (rs, f) := treeLevel op ty mode ns
      match a, b with
      | some x, some y =>
          let (r, g) := combine op ty mode x y
          (some r :: rs, g ||| f)
      | some x, none => (some x :: rs, f)
      | none, b => (b :: rs, f)
  | ns => (ns, 0)

/-- The whole tree, level by level (R195). -/
def tree (op : RedOp) (ty : ETy) (mode : Mode) : (levels : Nat) → List (Option Nat) → Option Nat × Fl
  | 0, ns => (ns.headD none, 0)
  | k + 1, ns =>
      let (rs, f) := treeLevel op ty mode ns
      let (r, g) := tree op ty mode k rs
      (r, f ||| g)

/-- The running prefixes of the active elements (R196). -/
def scan (op : RedOp) (ty : ETy) (mode : Mode) : Option Nat → List (Option Nat) → List Nat × Fl
  | _, [] => ([], 0)
  | acc, none :: es =>
      let (rs, f) := scan op ty mode acc es
      (0 :: rs, f)
  | none, some e :: es =>
      let (rs, f) := scan op ty mode (some e) es
      (e :: rs, f)
  | some a, some e :: es =>
      let (r, g) := combine op ty mode a e
      let (rs, f) := scan op ty mode (some r) es
      (r :: rs, g ||| f)

/-- A NaN of a type made canonical; every other element unchanged (R126). -/
def canon (ty : ETy) (c : Nat) : Nat :=
  match ty.ffmt with
  | some F => if (F.decode c).isNan then F.nanBits.1 else c
  | none => c

/-- The 64-bit value of a lane of a register pair (R202). -/
def pair64 (lo hi : Word32) : BitVec 64 := hi ++ lo

namespace State

/-! ### Lane by lane (R185, R186) -/

/-- The effective rounding mode of a V form (R129). -/
def modeOf (s : State) (rm : Rm) : Mode := rm.eff s.front.fmode

/-- Each active lane of vD computed, and the flags of the active lanes reported (R185, R186). -/
def lanewise (d : VReg) (m : QReg) (f : Nat → Word32 × Fl) (s : State) : State :=
  let mask := s.rdQ m
  let rs := (List.range s.lanes).map (fun l => if mask.getLsbD l then f l else (0, 0))
  (s.wrV d mask (fun l => (rs.getD l (0, 0)).1)).addFlags (rs.foldl (fun a r => a ||| r.2) 0)

/-- Lane l of a register. -/
def lane (s : State) (r : VReg) (l : Nat) : Word32 := (s.rdV r).toList.getD l 0

/-- A form of one source, element by element. -/
def v1 (ty : ETy) (f : Nat → Nat × Fl) (d a : VReg) (m : QReg) (s : State) : State :=
  let x := (s.rdV a).toList
  lanewise d m (fun l => let r := f (ty.elem (x.getD l 0)); (ty.lane r.1, r.2)) s

/-- A form of two sources, element by element. -/
def v2 (ty : ETy) (f : Nat → Nat → Nat × Fl) (d a b : VReg) (m : QReg) (s : State) : State :=
  let x := (s.rdV a).toList
  let y := (s.rdV b).toList
  lanewise d m (fun l => let r := f (ty.elem (x.getD l 0)) (ty.elem (y.getD l 0)); (ty.lane r.1, r.2)) s

/-- A form of three sources, element by element. -/
def v3 (ty : ETy) (f : Nat → Nat → Nat → Nat × Fl) (d a b c : VReg) (m : QReg) (s : State) : State :=
  let x := (s.rdV a).toList
  let y := (s.rdV b).toList
  let z := (s.rdV c).toList
  lanewise d m (fun l =>
    let r := f (ty.elem (x.getD l 0)) (ty.elem (y.getD l 0)) (ty.elem (z.getD l 0)); (ty.lane r.1, r.2)) s

/-- A form of one source on whole lanes. -/
def w1 (f : Word32 → Word32 × Fl) (d a : VReg) (m : QReg) (s : State) : State :=
  let x := (s.rdV a).toList
  lanewise d m (fun l => f (x.getD l 0)) s

/-- A form of two sources on whole lanes. -/
def w2 (f : Word32 → Word32 → Word32) (d a b : VReg) (m : QReg) (s : State) : State :=
  let x := (s.rdV a).toList
  let y := (s.rdV b).toList
  lanewise d m (fun l => (f (x.getD l 0) (y.getD l 0), 0)) s

/-- A shift of whole lanes by a register of counts or by one count (R191). -/
def vshift (f : Word32 → Nat → Word32) (d a : VReg) (t : VCount) (m : QReg) (s : State) : State :=
  let x := (s.rdV a).toList
  let cs := match t with
    | .reg t => (s.rdV t).toList.map (fun (w : Word32) => w.toNat % 64)
    | .imm u => List.replicate 512 u.toNat
  lanewise d m (fun l => (f (x.getD l 0) (cs.getD l 0), 0)) s

/-- VCMP (R192). -/
def vcmp (c : Cond) (d : QReg) (a b : VReg) (m : QReg) (ty : ETy) (s : State) : State :=
  let x := (s.rdV a).toList
  let y := (s.rdV b).toList
  s.wrQ d (s.rdQ m) (fun l => elemCmp c ty (ty.elem (x.getD l 0)) (ty.elem (y.getD l 0)))

/-- VSEL (R193). -/
def vsel (d a b : VReg) (u m : QReg) (s : State) : State :=
  let x := (s.rdV a).toList
  let y := (s.rdV b).toList
  let q := s.rdQ u
  lanewise d m (fun l => (if q.getLsbD l then x.getD l 0 else y.getD l 0, 0)) s

/-- VBCAST (R193). -/
def vbcast (d : VReg) (a : VBSrc) (m : QReg) (s : State) : State :=
  let w : Word32 := match a with
    | .reg x => (s.rdX x).setWidth 32
    | .imm u => u.signExtend 32
    | .long l => l
  lanewise d m (fun _ => (w, 0)) s

/-- VPERM (R194). -/
def vperm (d a b : VReg) (m : QReg) (s : State) : State :=
  let x := (s.rdV a).toList
  let y := (s.rdV b).toList
  let n := s.lanes
  lanewise d m (fun l => let j := (y.getD l 0).toNat; (if j < n then x.getD j 0 else 0, 0)) s

/-- VSLIDE and VSLIDE.DN (R194). -/
def vslide (down : Bool) (d a : VReg) (t : XReg) (m : QReg) (s : State) : State :=
  let x := (s.rdV a).toList
  let n := s.lanes
  let c := (s.rdX t).toNat
  lanewise d m (fun l =>
    (if down then (if l + c < n then x.getD (l + c) 0 else 0) else (if c ≤ l then x.getD (l - c) 0 else 0), 0)) s

/-- The active elements of a register, lane by lane. -/
def actives (s : State) (ty : ETy) (a : VReg) (mask : LaneMask) : List (Option Nat) :=
  ((s.rdV a).toList.take s.lanes).zipIdx.map (fun e => if mask.getLsbD e.2 then some (ty.elem e.1) else none)

/-- VRED (R195). -/
def vred (op : RedOp) (d a : VReg) (m : QReg) (ty : ETy) (rm : Rm) (s : State) : State :=
  let (r, f) := tree op ty (s.modeOf rm) s.lanes.log2 (s.actives ty a (s.rdQ m))
  let w := ty.lane (canon ty (r.getD (redIdentity op ty)))
  (s.wrV d (s.rdQ m) (fun _ => w)).addFlags f

/-- VSCAN (R196). -/
def vscan (op : RedOp) (d a : VReg) (m : QReg) (ty : ETy) (rm : Rm) (s : State) : State :=
  let (rs, f) := scan op ty (s.modeOf rm) none (s.actives ty a (s.rdQ m))
  (s.wrV d (s.rdQ m) (fun l => ty.lane (canon ty (rs.getD l 0)))).addFlags f

/-- The lanes in which both a mask register and the governing mask are set (R185, R197). -/
def votes (s : State) (a m : QReg) : List Nat :=
  (List.range s.lanes).filter (fun l => (s.rdQ a).getLsbD l && (s.rdQ m).getLsbD l)

/-- VANY (R197). -/
def vany (d : PReg) (a m : QReg) (s : State) : State := s.wrP d (!(s.votes a m).isEmpty)
/-- VALL (R197). -/
def vall (d : PReg) (a m : QReg) (s : State) : State :=
  s.wrP d ((List.range s.lanes).all (fun l => !(s.rdQ m).getLsbD l || (s.rdQ a).getLsbD l))
/-- VFIRST (R197). -/
def vfirst (d : XReg) (a m : QReg) (s : State) : State := s.wrX d (BitVec.ofNat 64 ((s.votes a m).headD s.lanes))
/-- VPOPC (R197). -/
def vpopc (d : XReg) (a m : QReg) (s : State) : State := s.wrX d (BitVec.ofNat 64 (s.votes a m).length)

/-- VEXTR (R198). -/
def vextr (d : XReg) (a : VReg) (t : XReg) (s : State) : State :=
  let j := (s.rdX t).toNat
  s.wrX d (if j < s.lanes then (s.lane a j).setWidth 64 else 0)

/-- VINS (R198). -/
def vins (d : VReg) (a t : XReg) (s : State) : State :=
  let j := (s.rdX t).toNat
  let w : Word32 := (s.rdX a).setWidth 32
  if j < s.lanes then s.wrV d (BitVec.twoPow 512 j) (fun _ => w) else s

/-- VQMX: block by block (R128, R200). -/
def vqmx (d a t : VReg) (ty : ETy) (rm : Rm) (nsat : Bool) (s : State) : State :=
  let x := (s.rdV a).toList
  let bs := (List.range (s.lanes / 32)).map (fun b =>
    mxBlock ty (s.modeOf rm) nsat (((x.drop (32 * b)).take 32).map f32))
  let es := bs.flatMap (·.1)
  let s1 := s.wrV d (BitVec.allOnes 512) (fun l => ty.lane (es.getD l 0))
  let s2 := s1.wrV t (BitVec.allOnes 512) (fun l => BitVec.ofNat 32 (bs.getD (l / 32) ([], 0, 0)).2.1)
  s2.addFlags (bs.foldl (fun f b => f ||| b.2.2) 0)

/-- VDQMX (R201). -/
def vdqmx (d a t : VReg) (m : QReg) (ty : ETy) (rm : Rm) (s : State) : State :=
  let x := (s.rdV a).toList
  let y := (s.rdV t).toList
  let mode := s.modeOf rm
  lanewise d m (fun l =>
    let r := fp32.round mode (mxScaled ((y.getD l 0).toNat % 256) (mxValue ty (ty.elem (x.getD l 0))))
    (BitVec.ofNat 32 r.1, r.2)) s

/-- The v register after one of a pair. -/
def nextV (r : VReg) : VReg := if h : r.val + 1 < 32 then ⟨r.val + 1, h⟩ else 0

/-- VRAND (R146, R147, R202). -/
def vrand (d a t : VReg) (m : QReg) (ty : ETy) (adv : Bool) (s : State) : State :=
  let mask := s.rdQ m
  let c0 := (s.rdV a).toList
  let c1 := (s.rdV (nextV a)).toList
  let k0 := (s.rdV t).toList
  let k1 := (s.rdV (nextV t)).toList
  let cnt (l : Nat) : BitVec 64 := pair64 (c0.getD l 0) (c1.getD l 0)
  let draw (l : Nat) : Word32 :=
    let o := vrandOut (cnt l) (pair64 (k0.getD l 0) (k1.getD l 0))
    if ty = .f32 then vrandF32 o else o
  let s := s.wrV d mask draw
  if adv then
    (s.wrV a mask (fun l => (cnt l + 1).setWidth 32)).wrV (nextV a) mask (fun l => ((cnt l + 1) >>> 32).setWidth 32)
  else s

/-- A logic operation on mask bits (R203). -/
def qop (f : Bool → Bool → Bool) (d a b : QReg) (m : QReg) (s : State) : State :=
  let x := s.rdQ a
  let y := s.rdQ b
  s.wrQ d (s.rdQ m) (fun l => f (x.getLsbD l) (y.getLsbD l))

end State

/-! ### Meanings -/

/-- VADD (R187). -/
def execVadd (g : Guard) (d a b : VReg) (m : QReg) (ty : ETy) (rm : Rm) (s : State) : Host.Outcome State Fault Refusal :=
  s.slotOp (.vadd g d a b m ty rm) g (fun s => State.v2 ty (elemAdd ty (s.modeOf rm)) d a b m s)
/-- VSUB (R187). -/
def execVsub (g : Guard) (d a b : VReg) (m : QReg) (ty : ETy) (rm : Rm) (s : State) : Host.Outcome State Fault Refusal :=
  s.slotOp (.vsub g d a b m ty rm) g (fun s => State.v2 ty (elemSub ty (s.modeOf rm)) d a b m s)
/-- VMUL (R187). -/
def execVmul (g : Guard) (d a b : VReg) (m : QReg) (ty : ETy) (rm : Rm) (s : State) : Host.Outcome State Fault Refusal :=
  s.slotOp (.vmul g d a b m ty rm) g (fun s => State.v2 ty (elemMul ty (s.modeOf rm)) d a b m s)
/-- VFMA (R187, R188). -/
def execVfma (g : Guard) (d a b u : VReg) (m : QReg) (ty : ETy) (rm : Rm) (s : State) : Host.Outcome State Fault Refusal :=
  s.slotOp (.vfma g d a b u m ty rm) g (fun s => State.v3 ty (elemFma ty (s.modeOf rm)) d a b u m s)
/-- VMIN (R187). -/
def execVmin (g : Guard) (d a b : VReg) (m : QReg) (ty : ETy) (s : State) : Host.Outcome State Fault Refusal :=
  s.slotOp (.vmin g d a b m ty) g (State.v2 ty (fun x y => (elemMin ty x y, 0)) d a b m)
/-- VMAX (R187). -/
def execVmax (g : Guard) (d a b : VReg) (m : QReg) (ty : ETy) (s : State) : Host.Outcome State Fault Refusal :=
  s.slotOp (.vmax g d a b m ty) g (State.v2 ty (fun x y => (elemMax ty x y, 0)) d a b m)
/-- VABS (R187). -/
def execVabs (g : Guard) (d a : VReg) (m : QReg) (ty : ETy) (s : State) : Host.Outcome State Fault Refusal :=
  s.slotOp (.vabs g d a m ty) g (State.v1 ty (fun x => (elemAbs ty x, 0)) d a m)
/-- VNEG (R187). -/
def execVneg (g : Guard) (d a : VReg) (m : QReg) (ty : ETy) (s : State) : Host.Outcome State Fault Refusal :=
  s.slotOp (.vneg g d a m ty) g (State.v1 ty (fun x => (elemNeg ty x, 0)) d a m)
/-- VCLAMP: Min(Max(s, t), u) (R187, R189). -/
def execVclamp (g : Guard) (d a b u : VReg) (m : QReg) (ty : ETy) (s : State) : Host.Outcome State Fault Refusal :=
  s.slotOp (.vclamp g d a b u m ty) g (State.v3 ty (fun x y z => (elemMin ty (elemMax ty x y) z, 0)) d a b u m)
/-- VRCP (R144, R190). -/
def execVrcp (g : Guard) (d a : VReg) (m : QReg) (s : State) : Host.Outcome State Fault Refusal :=
  s.slotOp (.vrcp g d a m) g (State.w1 rcpLane d a m)
/-- VRSQ (R145, R190). -/
def execVrsq (g : Guard) (d a : VReg) (m : QReg) (s : State) : Host.Outcome State Fault Refusal :=
  s.slotOp (.vrsq g d a m) g (State.w1 rsqLane d a m)
/-- VEXP2 (R142, R190). -/
def execVexp2 (g : Guard) (d a : VReg) (m : QReg) (s : State) : Host.Outcome State Fault Refusal :=
  s.slotOp (.vexp2 g d a m) g (State.w1 exp2Lane d a m)
/-- VLOG2 (R143, R190). -/
def execVlog2 (g : Guard) (d a : VReg) (m : QReg) (s : State) : Host.Outcome State Fault Refusal :=
  s.slotOp (.vlog2 g d a m) g (State.w1 log2Lane d a m)
/-- VAND (R191). -/
def execVand (g : Guard) (d a b : VReg) (m : QReg) (s : State) : Host.Outcome State Fault Refusal :=
  s.slotOp (.vand g d a b m) g (State.w2 (· &&& ·) d a b m)
/-- VOR (R191). -/
def execVor (g : Guard) (d a b : VReg) (m : QReg) (s : State) : Host.Outcome State Fault Refusal :=
  s.slotOp (.vor g d a b m) g (State.w2 (· ||| ·) d a b m)
/-- VXOR (R191). -/
def execVxor (g : Guard) (d a b : VReg) (m : QReg) (s : State) : Host.Outcome State Fault Refusal :=
  s.slotOp (.vxor g d a b m) g (State.w2 (· ^^^ ·) d a b m)
/-- VSHL (R191). -/
def execVshl (g : Guard) (d a : VReg) (t : VCount) (m : QReg) (s : State) : Host.Outcome State Fault Refusal :=
  s.slotOp (.vshl g d a t m) g (State.vshift (fun w c => w <<< c) d a t m)
/-- VSHR (R191). -/
def execVshr (g : Guard) (d a : VReg) (t : VCount) (m : QReg) (s : State) : Host.Outcome State Fault Refusal :=
  s.slotOp (.vshr g d a t m) g (State.vshift (fun w c => w >>> c) d a t m)
/-- VSHRA (R191). -/
def execVshra (g : Guard) (d a : VReg) (t : VCount) (m : QReg) (s : State) : Host.Outcome State Fault Refusal :=
  s.slotOp (.vshra g d a t m) g (State.vshift (fun w c => w.sshiftRight c) d a t m)
/-- VCMP (R192). -/
def execVcmp (g : Guard) (c : Cond) (d : QReg) (a b : VReg) (m : QReg) (ty : ETy) (s : State) : Host.Outcome State Fault Refusal :=
  s.slotOp (.vcmp g c d a b m ty) g (State.vcmp c d a b m ty)
/-- VSEL (R193). -/
def execVsel (g : Guard) (d a b : VReg) (u m : QReg) (s : State) : Host.Outcome State Fault Refusal :=
  s.slotOp (.vsel g d a b u m) g (State.vsel d a b u m)
/-- VMOV (R193). -/
def execVmov (g : Guard) (d a : VReg) (m : QReg) (s : State) : Host.Outcome State Fault Refusal :=
  s.slotOp (.vmov g d a m) g (State.w1 (fun w => (w, 0)) d a m)
/-- VBCAST (R193). -/
def execVbcast (g : Guard) (d : VReg) (a : VBSrc) (m : QReg) (s : State) : Host.Outcome State Fault Refusal :=
  s.slotOp (.vbcast g d a m) g (State.vbcast d a m)
/-- VPERM (R194). -/
def execVperm (g : Guard) (d a b : VReg) (m : QReg) (s : State) : Host.Outcome State Fault Refusal :=
  s.slotOp (.vperm g d a b m) g (State.vperm d a b m)
/-- VSLIDE (R194). -/
def execVslide (g : Guard) (d a : VReg) (t : XReg) (m : QReg) (s : State) : Host.Outcome State Fault Refusal :=
  s.slotOp (.vslide g d a t m) g (State.vslide false d a t m)
/-- VSLIDE.DN (R194). -/
def execVslideDn (g : Guard) (d a : VReg) (t : XReg) (m : QReg) (s : State) : Host.Outcome State Fault Refusal :=
  s.slotOp (.vslideDn g d a t m) g (State.vslide true d a t m)
/-- VRED (R195). -/
def execVred (g : Guard) (op : RedOp) (d a : VReg) (m : QReg) (ty : ETy) (rm : Rm) (s : State) : Host.Outcome State Fault Refusal :=
  s.slotOp (.vred g op d a m ty rm) g (State.vred op d a m ty rm)
/-- VSCAN (R196). -/
def execVscan (g : Guard) (op : RedOp) (d a : VReg) (m : QReg) (ty : ETy) (rm : Rm) (s : State) : Host.Outcome State Fault Refusal :=
  s.slotOp (.vscan g op d a m ty rm) g (State.vscan op d a m ty rm)
/-- VANY (R197). -/
def execVany (g : Guard) (d : PReg) (a m : QReg) (s : State) : Host.Outcome State Fault Refusal :=
  s.slotOp (.vany g d a m) g (State.vany d a m)
/-- VALL (R197). -/
def execVall (g : Guard) (d : PReg) (a m : QReg) (s : State) : Host.Outcome State Fault Refusal :=
  s.slotOp (.vall g d a m) g (State.vall d a m)
/-- VFIRST (R197). -/
def execVfirst (g : Guard) (d : XReg) (a m : QReg) (s : State) : Host.Outcome State Fault Refusal :=
  s.slotOp (.vfirst g d a m) g (State.vfirst d a m)
/-- VPOPC (R197). -/
def execVpopc (g : Guard) (d : XReg) (a m : QReg) (s : State) : Host.Outcome State Fault Refusal :=
  s.slotOp (.vpopc g d a m) g (State.vpopc d a m)
/-- VIOTA (R198). -/
def execViota (g : Guard) (d : VReg) (m : QReg) (s : State) : Host.Outcome State Fault Refusal :=
  s.slotOp (.viota g d m) g (fun s => s.wrV d (s.rdQ m) (fun l => BitVec.ofNat 32 l))
/-- VEXTR (R198). -/
def execVextr (g : Guard) (d : XReg) (a : VReg) (t : XReg) (s : State) : Host.Outcome State Fault Refusal :=
  s.slotOp (.vextr g d a t) g (State.vextr d a t)
/-- VINS (R198). -/
def execVins (g : Guard) (d : VReg) (a t : XReg) (s : State) : Host.Outcome State Fault Refusal :=
  s.slotOp (.vins g d a t) g (State.vins d a t)
/-- VCVT (R199). -/
def execVcvt (g : Guard) (d a : VReg) (m : QReg) (src dst : ETy) (rm : Rm) (nsat : Bool) (s : State) : Host.Outcome State Fault Refusal :=
  s.slotOp (.vcvt g d a m src dst rm nsat) g (fun s =>
    let mode := s.modeOf rm
    State.w1 (fun w => let r := cvtElem src dst mode nsat (src.elem w); (dst.lane r.1, r.2)) d a m s)
/-- VQMX (R200). -/
def execVqmx (g : Guard) (d a t : VReg) (ty : ETy) (rm : Rm) (nsat : Bool) (s : State) : Host.Outcome State Fault Refusal :=
  s.slotOp (.vqmx g d a t ty rm nsat) g (State.vqmx d a t ty rm nsat)
/-- VDQMX (R201). -/
def execVdqmx (g : Guard) (d a t : VReg) (m : QReg) (ty : ETy) (rm : Rm) (s : State) : Host.Outcome State Fault Refusal :=
  s.slotOp (.vdqmx g d a t m ty rm) g (State.vdqmx d a t m ty rm)
/-- VRAND (R202). -/
def execVrand (g : Guard) (d a t : VReg) (m : QReg) (ty : ETy) (adv : Bool) (s : State) : Host.Outcome State Fault Refusal :=
  s.slotOp (.vrand g d a t m ty adv) g (State.vrand d a t m ty adv)
/-- QAND (R203). -/
def execQand (g : Guard) (d a b : QReg) (m : QReg) (s : State) : Host.Outcome State Fault Refusal :=
  s.slotOp (.qand g d a b m) g (State.qop (fun x y => x && y) d a b m)
/-- QOR (R203). -/
def execQor (g : Guard) (d a b : QReg) (m : QReg) (s : State) : Host.Outcome State Fault Refusal :=
  s.slotOp (.qor g d a b m) g (State.qop (fun x y => x || y) d a b m)
/-- QXOR (R203). -/
def execQxor (g : Guard) (d a b : QReg) (m : QReg) (s : State) : Host.Outcome State Fault Refusal :=
  s.slotOp (.qxor g d a b m) g (State.qop (fun x y => x != y) d a b m)
/-- QNOT (R203). -/
def execQnot (g : Guard) (d a : QReg) (m : QReg) (s : State) : Host.Outcome State Fault Refusal :=
  s.slotOp (.qnot g d a m) g (State.qop (fun x _ => !x) d a a m)

end Sys2Proof.Machine
end

