-- ==== Sys2Proof/Machine/Quince.lean ====
section
/-! DEFINITION. The X-slot forms: the Sloe sorting network and the Quince candidate file (spec 08 R224 to R232). -/

namespace Sys2Proof.Machine

/-- An entry that Sloe compares: value, index and tiebreak rank (R224). -/
structure Cand where
  val : Word32
  idx : Word32
  rank : Nat
  deriving DecidableEq, Repr

/-- Whether one entry precedes another, ascending or descending (R224). -/
def Cand.precedes (asc : Bool) (a b : Cand) : Bool :=
  let x := f32 a.val
  let y := f32 b.val
  let ties := decide (a.idx.toNat < b.idx.toNat ∨ (a.idx = b.idx ∧ a.rank < b.rank))
  if x.isNan then y.isNan && ties
  else if y.isNan then true
  else if x.below y then asc
  else if y.below x then !asc
  else ties

/-- An entry put in its place among sorted entries. -/
def Cand.insert (asc : Bool) (a : Cand) : List Cand → List Cand
  | [] => [a]
  | b :: bs => if a.precedes asc b then a :: b :: bs else b :: Cand.insert asc a bs

/-- Entries sorted (R224). -/
def Cand.sort (asc : Bool) : List Cand → List Cand
  | [] => []
  | a :: as => Cand.insert asc a (Cand.sort asc as)

/-- Lanes of values and indices as entries with ranks from a first one. -/
def Cand.ofLanes (n first : Nat) (v i : Lanes) : List Cand :=
  ((v.toList.zip i.toList).take n).zipIdx.map (fun e => ⟨e.1.1, e.1.2, first + e.2⟩)

/-- The weight of an entry: its value above +0, else 0 (R230). -/
def weightOf (v : Word32) : XVal :=
  match f32 v with
  | .num false m e => .num false m e
  | .inf false => .inf false
  | _ => .zero false

/-- Prefix sums from a first one, each rounded once (R230). -/
def prefixSums (acc : XVal) : List XVal → List XVal
  | [] => [acc]
  | w :: ws => acc :: prefixSums (rne32v (XVal.add .rne acc w).1) ws

/-- Whether one value is at least another; neither is NaN. -/
def atLeast (x y : XVal) : Bool := decide (0 ≤ x.cmp y)

/-- The position CTOPP chooses (R231). -/
def topP (ws : List XVal) (p : Word32) : Nat :=
  let ps := prefixSums (.zero false) ws
  let one : XVal := .num false 1 0
  let q : XVal := match f32 p with
    | .nan => one
    | .num false m e => if (XVal.num false m e).cmp one > 0 then one else .num false m e
    | .inf false => one
    | _ => .zero false
  let h : XVal := match q with
    | .zero _ => .zero false
    | q => rne32v (q.mul (ps.getLastD (.zero false))).1
  match (List.range ws.length).find? (fun n => atLeast (ps.getD (n + 1) (.zero false)) h) with
  | some n => n + 1
  | none => 0

/-- The position CDRAW draws among the first n entries (R232). -/
def drawAt (ws : List XVal) (u : Word32) : Nat :=
  let ps := prefixSums (.zero false) ws
  let sum := ps.getLastD (.zero false)
  let x : XVal := match f32 u with
    | .num false m e => .num false m e
    | .inf false => .inf false
    | _ => .zero false
  let h : XVal := match x with
    | .zero _ => .zero false
    | x => rne32v (x.mul sum).1
  let js := List.range ws.length
  let pOf (j : Nat) : XVal := ps.getD (j + 1) (.zero false)
  if h == .inf false && sum == .inf false then (js.find? (fun j => pOf j == .inf false)).getD 0
  else match js.find? (fun j => decide (0 < (pOf j).cmp h)) with
    | some j => j
    | none => (js.reverse.find? (fun j => decide (0 < (ws.getD j (.zero false)).cmp (.zero false)))).getD 0

namespace State

/-- Sorted entries written to a register pair, values then indices (R225, R226). -/
def wrPair (d : VReg) (es : List Cand) (s : State) : State :=
  let s := s.wrV d (BitVec.allOnes 512) (fun l => ((es[l]?).map (·.val)).getD 0)
  s.wrV (nextV d) (BitVec.allOnes 512) (fun l => ((es[l]?).map (·.idx)).getD 0)

/-- SORTB (R225). -/
def sortb (asc : Bool) (d a t : VReg) (s : State) : State :=
  wrPair d (Cand.sort asc (Cand.ofLanes s.lanes 0 (s.rdV a) (s.rdV t))) s

/-- MERGE (R226). -/
def merge (asc : Bool) (d a : VReg) (s : State) : State :=
  let n := s.lanes
  let x := Cand.ofLanes n 0 (s.rdV d) (s.rdV (nextV d))
  let y := Cand.ofLanes n n (s.rdV a) (s.rdV (nextV a))
  wrPair d ((Cand.sort asc (x ++ y)).take n) s

/-- The valid entries of the candidate file (R227). -/
def kValid (s : State) : List KEnt := s.eng.k.toList.take s.eng.qcnt

/-- CMRG (R228). -/
def cmrg (a t : VReg) (s : State) : State :=
  let file := (s.kValid).zipIdx.map (fun e => (⟨e.1.val, e.1.idx, e.2⟩ : Cand))
  let new := (Cand.ofLanes s.lanes 64 (s.rdV a) (s.rdV t)).filter (fun c => !(f32 c.val).isNan)
  let all := (Cand.sort false (file ++ new)).take 64
  s.wrK (Vector.ofFn (fun i : Fin 64 => ((all[i.val]?).map (fun c => KEnt.mk c.val c.idx)).getD KEnt.empty)) all.length

/-- CGET: the value or the index of an entry (R229). -/
def cget (idx : Bool) (d : XReg) (k : KReg) (s : State) : State :=
  s.wrX d ((if idx then (s.rdK k).idx else (s.rdK k).val).setWidth 64)

/-- CCLR (R229). -/
def cclr (s : State) : State := s.wrK (Vector.replicate 64 KEnt.empty) 0

/-- CTOPP (R231). -/
def ctopp (d a : XReg) (s : State) : State :=
  s.wrX d (BitVec.ofNat 64 (topP (s.kValid.map (fun e => weightOf e.val)) ((s.rdX a).setWidth 32)))

/-- CDRAW (R232). -/
def cdraw (d a : XReg) (s : State) : State :=
  let lim := ((s.rdX a).extractLsb' 32 7).toNat
  let n := min s.eng.qcnt (if lim = 0 ∨ 64 < lim then 64 else lim)
  if n = 0 then s.wrX d 0x40FFFFFFFF
  else
    let es := s.kValid.take n
    let j := drawAt (es.map (fun e => weightOf e.val)) ((s.rdX a).setWidth 32)
    s.wrX d (BitVec.ofNat 64 (j * 2 ^ 32 + ((es[j]?).map (fun e => e.idx.toNat)).getD 0))

end State

/-! ### Meanings -/

/-- SORTB (R225). -/
def execSortb (g : Guard) (asc : Bool) (d a t : VReg) (s : State) : Host.Outcome State Fault Refusal :=
  s.slotOp (.sortb g asc d a t) g (State.sortb asc d a t)
/-- MERGE (R226). -/
def execMerge (g : Guard) (asc : Bool) (d a : VReg) (s : State) : Host.Outcome State Fault Refusal :=
  s.slotOp (.merge g asc d a) g (State.merge asc d a)
/-- CMRG (R228). -/
def execCmrg (g : Guard) (a t : VReg) (s : State) : Host.Outcome State Fault Refusal :=
  s.slotOp (.cmrg g a t) g (State.cmrg a t)
/-- CGET (R229). -/
def execCget (g : Guard) (idx : Bool) (d : XReg) (k : KReg) (s : State) : Host.Outcome State Fault Refusal :=
  s.slotOp (.cget g idx d k) g (State.cget idx d k)
/-- CCLR (R229). -/
def execCclr (g : Guard) (s : State) : Host.Outcome State Fault Refusal :=
  s.slotOp (.cclr g) g State.cclr
/-- CTOPP (R231). -/
def execCtopp (g : Guard) (d a : XReg) (s : State) : Host.Outcome State Fault Refusal :=
  s.slotOp (.ctopp g d a) g (State.ctopp d a)
/-- CDRAW (R232). -/
def execCdraw (g : Guard) (d a : XReg) (s : State) : Host.Outcome State Fault Refusal :=
  s.slotOp (.cdraw g d a) g (State.cdraw d a)

end Sys2Proof.Machine
end

