-- ==== Sys2Proof/Machine/Gang.lean ====
section
/-! DEFINITION. Gangs: barriers, acquires, the start and the resumption of a member, suspension and its continuation record, exit (spec 02 R43, R50, R53, R62 to R65; 09 R248 to R250, R254; 12 R351, R352; 15 R415; 16 R456). -/

namespace Sys2Proof.Machine

namespace State

/-! ### Members and barriers (R53, R415) -/

/-- The members of a launch that have not exited, each with its number. -/
def liveMembers (l : Launch) : List (Nat × Member) :=
  (l.members.zipIdx.filter (fun e => !e.1.exited)).map (fun e => (e.2, e.1))

/-- The key of a member's strand. -/
def Member.key (m : Member) : Nat := strandKey m.core m.strand

def modMember (s : State) (id i : Nat) (f : Member → Member) : State :=
  s.modLaunch id (fun l => { l with members := l.members.zipIdx.map (fun e => if e.2 = i then f e.1 else e.1) })

/-- Every barrier at which all of the live members have arrived completes (R415, log entry 54). -/
def settleBars (l : Launch) : Launch :=
  let n := (liveMembers l).length
  let f (b : Nat × Nat) : Nat × Nat := if b.1 ≠ 0 ∧ n ≤ b.1 then (0, (b.2 + 1) % 65536) else b
  { l with bars := l.bars.map f }

/-- A barrier of a launch: COUNT and GEN. -/
def barOf (l : Launch) (b : Nat) : Nat × Nat := l.bars.toList.getD b (0, 0)

/-- A member arrives at a barrier and waits for its generation to end (R416). -/
def arrive (s : State) (b : Nat) : State :=
  let gen := ((s.launchOf s.meKey).map (fun l => (barOf l b).2)).getD 0
  let f (e : (Nat × Nat) × Nat) : Nat × Nat := if e.2 = b then (e.1.1 + 1, e.1.2) else e.1
  let s := s.modLaunch s.me.launch (fun l =>
    settleBars { l with bars := Vector.ofFn (fun i : Fin 16 => f (l.bars[i], i.val)) })
  s.modMe (fun t => { t with barWait := some (b, gen) })

/-- Whether a strand waits at a barrier whose generation has not ended (R416). -/
def barHeld (s : State) (k : Nat) : Bool :=
  match (s.strand k).barWait, s.launchOf k with
  | some (b, gen), some l => (barOf l b).2 == gen
  | _, _ => false

/-! ### Acquires (R254, R306, R317) -/

/-- A clean device-HBM line of a cluster. -/
def cleanHbm (e : Nat × CLine) : Bool := pkind (e.1 * 64) == .hbm && e.2.pclass == 0

/-- Whether a cluster may drop its clean device-HBM lines: none waits for a write of the cluster (R306). -/
def acquireReady (s : State) (cl : Nat) : Bool :=
  (s.cluster cl).lines.all (fun e => !cleanHbm e || !s.pendingWrite cl e.1)

/-- An acquire at DEVICE or wider: the cluster's clean device-HBM lines are dropped (R254). -/
def acquire (s : State) (cl : Nat) : State :=
  s.modCluster cl (fun c => { c with lines := c.lines.filter (fun e => !cleanHbm e) })

/-! ### Work under way (R63, R352) -/

/-- Whether a launch's strand has read a value that a write waiting at its home will give (R315). -/
def seenWaits (s : State) (k id : Nat) : Bool := s.home.any (fun r => r.seen.contains (k, id))

/-- Whether a strand has nothing under way but queued operations that are allowed and, where `faults` allows them, copies stopped by a fault: no write withheld, no released entry of its copy schedule still to start (R63, R352, R448, log entry 91). -/
def idleBut (s : State) (k : Nat) (faults : Bool) (ok : QOp → Bool) : Bool :=
  let mine (c n : Nat) : Bool := strandKey c n == k
  (s.strand k).ops.all ok &&
  s.copies.all (fun c => !mine c.core c.strand || (faults && c.faulted)) &&
  s.gemvs.all (fun c => !mine c.core c.strand || (faults && c.faulted)) &&
  !s.mmas.any (fun m => mine m.core m.strand) && !s.pushes.any (fun p => mine p.core p.strand) &&
  !s.home.any (fun r => mine r.core r.strand) && (s.strand k).withheld.isEmpty && !s.entryOwed k

/-! ### Landings written (R55, R63) -/

/-- A landed value written to its register; a write to x0 is discarded (R55, R101). -/
def putDatum (s : State) (k : Nat) (d : Dest) (v : Datum) : State :=
  match d, v with
  | .x r, .x w => if r = 0 then s else s.modStrand k (fun t => { t with front := { t.front with x := t.front.x.set r.val w } })
  | .v r, .v l =>
      let n := 128 * s.width (k / 4)
      s.modStrand k (fun t => { t with eng := { t.eng with
        v := t.eng.v.set r.val (mergeLanes n (BitVec.allOnes 512) t.eng.v[r.val] (fun i => l.toList.getD i 0)) } })
  | _, _ => s

/-- A landing put in its place by due count. -/
def insertDue (l : Landing) : List Landing → List Landing
  | [] => [l]
  | a :: as => if l.due < a.due then l :: a :: as else a :: insertDue l as

/-- Every outstanding landing written in the order of its landing bundle, the withheld v writes first (R63 step 2, log entry 61). -/
def settleLandings (s : State) (k : Nat) : State :=
  let t := s.strand k
  let s := t.vland.foldl (fun s l => s.putDatum k (.v l.reg) (.v l.val)) s
  let s := (t.landings.foldl (fun a l => insertDue l a) []).foldl (fun s l =>
    match l.data with
    | some v => s.putDatum k l.dest v
    | none => s) s
  s.modStrand k (fun t => { t with vland := [], landings := [] })

/-! ### Parks (R250) -/

/-- A park moved to its owner's HBM spill slot, where the slot's pages translate (R249, R250, R366). -/
def movePark (s : State) (k n : Nat) : State :=
  match (s.strand k).parks.get? n with
  | none => s
  | some p =>
      if p.loc = 3 || !(pagesOf (s.spillVa k n) (512 * s.width (k / 4))).all (fun c => (s.sysPa (s.strand k).hc c.1 true).isSome) then s
      else s.modStrand k (fun t => { t with parks := t.parks.set n { p with loc := 3, tile := 0, sub := 0, bstrand := 0 } })

/-- The parks of a core that lie where a strand's window and banks are, by owner and register (R249, R250). -/
def parksUnder (s : State) (k : Nat) : List (Nat × Nat) :=
  let t := s.strand k
  (List.range 4).flatMap (fun i =>
    let o := strandKey (k / 4) i
    ((s.strand o).parks.filter (fun e => (e.2.loc == 1 && decide (t.tb ≤ e.2.tile ∧ e.2.tile < t.tb + t.tn)) ||
      (e.2.loc == 2 && e.2.bstrand == k % 4))).map (fun e => (o, e.1)))

/-! ### Start (R49, R50, R248) -/

/-- A plan's buffers cleared in a core's banks (R248). -/
def clearPlan (s : State) (core : Nat) (plan : List Spad) : State :=
  plan.foldl (fun s p => s.bankClear (bankAddr (core / 4) ((32 * (core % 4) + p.bank) * 65536 + p.off)) p.size) s

/-- Every tile of a strand's window zeroed (R50). -/
def clearWindow (s : State) (k : Nat) : State :=
  (List.range (s.strand k).tn).foldl (fun s i => s.zeroTile (k / 4) ((s.strand k).tb + i)) s

/-- The strand of a member as placement leaves it, with the registers of the start of a launch and its first bundle (R50, R366, R427). -/
def freshStrand (k : Nat) (t : Strand) (pc : Word32) : Strand :=
  { Strand.reset (k / 4) with
    opNum := t.opNum, launch := t.launch, gang := t.gang, member := t.member, hc := t.hc, image := t.image
    tb := t.tb, tn := t.tn, wbase := t.wbase, wsize := t.wsize, life := .running, pc := pc, segStart := pc }

/-- The base addresses of the footprint regions in a0 to a5 (R50). -/
def regionBases (l : Launch) : Vector AWord 16 :=
  Vector.ofFn (fun i : Fin 16 => match l.regions[i.val]? with
    | some r => if i.val < 6 ∧ r.present then r.base else 0
    | none => 0)

/-- A member given the state of the first bundle of a launch (R50, R248, R254). -/
def startMember (s : State) (l : Launch) (i : Nat) (m : Member) : State :=
  let k := Member.key m
  let t := freshStrand k (s.strand k) (l.starts.getD i 0)
  let t := { t with front := { t.front with a := regionBases l } }
  let plan := ((s.image? l.image).bind (fun g => g.cores[i]?)).map (·.spad)
  ((((s.clearPlan m.core (plan.getD [])).setStrand k t).clearWindow k).acquire (clusterOf m.core)).armEntry k

/-! ### The save area (R64, R456) -/

/-- The masks of a full register set. -/
def SegRec.full : SegRec :=
  { start := 0, endseg := 0, icount := 0, sign := 0, chk := false, safe := false, susp := true
    livex := BitVec.allOnes 64, livea := BitVec.allOnes 16, livep := BitVec.allOnes 16, liveq := BitVec.allOnes 8
    liveb := BitVec.allOnes 8, livev := BitVec.allOnes 32, livek := BitVec.allOnes 64 }

/-- The masks of nothing. -/
def SegRec.none : SegRec :=
  { SegRec.full with livex := 0, livea := 0, livep := 0, liveq := 0, liveb := 0, livev := 0, livek := 0 }

/-- The masks a member saves and restores by: those of the segment that begins at a bundle, or every register (R63 step 3, R94, log entry 33). -/
def masksAt (s : State) (l : Launch) (i : Nat) (full : Bool) (pc : Word32) : SegRec :=
  if full then SegRec.full
  else (((s.image? l.image).bind (fun g => g.cores[i]?)).bind (fun c => c.segs.find? (fun r => r.start == pc))).getD SegRec.none

/-- The numbers whose bit is set in a mask. -/
def bitsOf {n : Nat} (m : BitVec n) : List (Fin n) := (List.finRange n).filter (fun i => m.getLsbD i.val)

/-- The bits of p1 to p15. -/
def predBits (p : Vector Bool 16) : BitVec 64 :=
  (List.finRange 16).foldl (fun w i => if p[i] && i.val != 0 then w ||| (1#64 <<< i.val) else w) 0

/-- The registers a member writes to its save area, as offset and bytes; the eight bytes of p keep the bits that are not saved (R456, log entry 24). -/
def saveWrites (g : Nat) (t : Strand) (m : SegRec) (oldP : List Byte) : List (Nat × List Byte) :=
  let f := t.front
  let e := t.eng
  let pm : BitVec 64 := if m.livep = BitVec.allOnes 16 then BitVec.allOnes 64 else m.livep.setWidth 64
  [(64, leBytes 8 f.fstat.toNat ++ leBytes 8 f.fmode.toNat ++ leBytes 8 f.scnt.toNat ++ leBytes 8 f.seqlen.toNat ++
      leBytes 8 f.bindsel.toNat ++ leBytes 8 ((BitVec.ofNat 64 (leNat oldP) &&& ~~~pm) ||| (predBits f.p &&& pm)).toNat),
   (120, leBytes 8 0), (160, leBytes 32 0)] ++
  (if m.livek = 0 then [] else [(112, leBytes 8 e.qcnt)]) ++
  (bitsOf m.liveb).map (fun i => (128 + 4 * i.val, leBytes 4 f.b[i].toNat)) ++
  (bitsOf m.livea).map (fun i => (192 + 16 * i.val, leBytes 16 f.a[i].toNat)) ++
  (bitsOf m.livex).map (fun i => (448 + 8 * i.val, leBytes 8 (if i.val = 0 then 0 else f.x[i].toNat))) ++
  (bitsOf m.livek).map (fun i => (960 + 8 * i.val, leBytes 4 e.k[i].val.toNat ++ leBytes 4 e.k[i].idx.toNat)) ++
  (bitsOf m.liveq).map (fun i => (1472 + 64 * i.val, leBytes 64 (e.q[i].toNat % 2 ^ (128 * g)))) ++
  (bitsOf m.livev).map (fun i => (65536 + 16384 * g + 512 * g * i.val, laneBytes (128 * g) e.v[i]))

/-- n bytes of free values, n a multiple of 8 (log entry 7). -/
def freeBytes : Nat → State → List Byte × State
  | 0, s => ([], s)
  | n + 1, s =>
      let (v, s) := s.freeVal
      let (bs, s) := freeBytes n s
      (leBytes 8 v.toNat ++ bs, s)

/-- The coding of a token state (R411). -/
def tokByte : TokSt → Nat
  | .clear => 0
  | .armed => 0x80
  | .done => 0xC0
  | .faulted => 0xA0

/-- The width code of a width (R34). -/
def wcodeOf (g : Nat) : Nat := if g = 4 then 2 else if g = 2 then 1 else 0

/-- A member's continuation record (R64). -/
def contRecord (s : State) (l : Launch) (i k : Nat) (pre : Bool) : List Byte :=
  let t := s.strand k
  let lns := t.levels.toList.any (fun e => e != Level.reset)
  let segs := (((s.image? l.image).bind (fun g => g.cores[i]?)).map (·.segs)).getD []
  let flags := (if pre then 3 else 0) + (if lns then 4 else 0) + (if pre && l.thermal then 8 else 0)
  let lvl := ((List.range 6).map (fun j => if (level t j).run then 2 ^ j else 0)).sum
  let iters := ((List.range 6).map (fun j => (level t j).iter.toNat * 2 ^ (20 * j))).sum
  let toks := ((List.range 8).map (fun j => tokByte (t.tokens.toList.getD j Token.reset).st * 256 ^ j)).sum
  leBytes 64 (packBits [(s.saveVa k / 256, 64), (flags, 32), ((t.dep.getD 0).toNat, 32), (lvl, 6), (0, 2), (iters, 120),
    (toks, 64), (l.image, 32), (t.pc.toNat, 32), (l.seq.toNat, 48), (l.stream, 2), (l.hc, 6), (0, 8),
    (segs.findIdx (fun r => r.start == t.pc), 16), (0, 8), (l.cls, 2), (wcodeOf l.width, 2), (l.ncl, 3),
    (if l.single then 1 else 0, 1), (i, 5), (0, 27)])

/-- Whether a member's whole save area may be written (R456, log entry 62). -/
def areaReady (s : State) (k : Nat) : Bool :=
  (pagesOf (s.saveVa k) (65536 + 32768 * s.width (k / 4))).all (fun c => (s.sysPa (s.strand k).hc c.1 true).isSome)

/-- A write at an offset of a member's save area. -/
def saveAt (s : State) (h va : Nat) (w : Nat × List Byte) : State := (s.sysWrite h (va + w.1) w.2).getD s

/-! ### Suspension (R62 to R64) -/

/-- Whether the operation is a SUSPEND. -/
def isSuspend (o : QOp) : Bool := match o.instr with | .suspend _ _ => true | _ => false

/-- The lines of a member's save area that are not free: suspension and resumption take their turns there (R13, R63, R65). -/
def areaLines (s : State) (k : Nat) : List Nat :=
  let taken := s.busyLines ++ s.home.map (fun r => r.addr / 64)
  (pagesOf (s.saveVa k) (65536 + 32768 * s.width (k / 4))).flatMap (fun c => match s.sysPa (s.strand k).hc c.1 true with
    | some p => taken.filter (fun l => decide (p.1 / 64 ≤ l ∧ l * 64 < p.1 + c.2))
    | none => [])

/-- The lines of the save areas of a launch's live members that are not free. -/
def gangLines (s : State) (l : Launch) : List Nat := (liveMembers l).flatMap (fun e => s.areaLines (Member.key e.2))

/-- Whether a member has arrived at the rendezvous and drained: nothing under way but its SUSPEND, which has taken effect, and copies stopped by a fault; the writes that its reads have seen have performed (R63 step 1, R315, R317). -/
def arrived (s : State) (k : Nat) : Bool :=
  let t := s.strand k
  t.life == .rendezvous && s.idleBut k true isSuspend && t.holds == 0 && (t.ops.isEmpty || t.dep.isSome) &&
  t.landings.all (fun l => l.data.isSome) && s.areaReady k && !s.seenWaits k t.launch

/-- The copies and GEMVs of a strand that a fault has stopped stay with the suspended member (R63 step 1, log entry 34). -/
def keepCopies (s : State) (k i : Nat) : State :=
  let f (c : Copy) : Copy := if strandKey c.core c.strand = k then { c with core := 128, strand := i } else c
  let g (c : Gemv) : Gemv := if strandKey c.core c.strand = k then { c with core := 128, strand := i } else c
  { s with copies := s.copies.map f, gemvs := s.gemvs.map g }

/-- One member suspended: its landings written, its parks moved, its registers and its record saved, its strand freed (R63, R250, R456). -/
def suspendMember (l : Launch) (s : State) (e : Nat × Member) : State :=
  let k := Member.key e.2
  let s := s.settleLandings k
  let s := (s.strand k).parks.foldl (fun s p => s.movePark k p.1) s
  let t := s.strand k
  let pre := t.dep.isNone
  let va := s.saveVa k
  let oldP := (s.sysRead t.hc (va + 104) 8).getD []
  let s := (saveWrites (s.width (k / 4)) t (s.masksAt l e.1 pre t.pc) oldP).foldl (fun s w => s.saveAt t.hc va w) s
  let s := if t.levels.toList.any (fun v => v != Level.reset) then
      let (bs, s) := freeBytes 72 s
      s.saveAt t.hc va (1984, bs)
    else s
  let s := (List.range 8).foldl (fun s j =>
    if (t.tokens.toList.getD j Token.reset).st = .faulted then
      let (bs, s) := freeBytes 8 s
      s.saveAt t.hc va (2560 + 64 * j, bs)
    else s) s
  let rec_ := s.contRecord l e.1 k pre
  let s := (s.saveAt t.hc va (0, rec_)).keepCopies k e.1
  let cs := s.copies.filter (fun c => c.launch == l.id && c.core == 128 && c.strand == e.1)
  let gs := s.gemvs.filter (fun c => c.launch == l.id && c.core == 128 && c.strand == e.1)
  (s.freeStrand k).modMember l.id e.1 (fun m => { m with
    dep := t.dep, record := rec_, levels := t.levels, schedNext := t.schedNext, copies := cs, gemvs := gs })

/-- One more, at most a bound (R430, R431). -/
def satSucc {n : Nat} (v : BitVec n) : BitVec n := if v = BitVec.allOnes n then v else v + 1

/-- The core whose CYCLE times a launch's pre-emptions: its member 0's (R429). -/
def leadCore (l : Launch) : Nat := (l.members.map (·.core)).headD 0

/-- A pre-emption counted: the longest time from mark to record, and the gangs pre-empted by thermal shedding (R429, R430, log entry 25). -/
def notePreempt (s : State) (l : Launch) (core : Nat) : State :=
  let took : BitVec 64 := (s.core core).cycle - BitVec.ofNat 64 (l.markAt.getD (s.core core).cycle.toNat)
  let s := s.modHctx l.hc (fun c => { c with acct := c.acct.set 8 (if c.acct[8] < took then took else c.acct[8]) })
  if l.thermal then
    { s with plat := { s.plat with thermal := { s.plat.thermal with thpre := satSucc s.plat.thermal.thpre } } }
  else s

/-- Every member that has arrived suspended, and the launch SUSPENDED (R41, R63, R454). -/
def suspendGang (l : Launch) (s : State) : State :=
  let ms := liveMembers l
  let pre := ms.any (fun e => (s.strand (Member.key e.2)).dep.isNone)
  let s := if pre then s.notePreempt l (leadCore l) else s
  let s := ms.foldl (suspendMember l) s
  let gone (m : Member) : Member := if m.exited then { m with record := [], copies := [], gemvs := [] } else m
  s.modLaunch l.id (fun l => { l with
    members := l.members.map gone, st := .suspended, side := false, everSusp := true, thermal := false, markAt := none, hostVer := false })

/-- The suspension rendezvous: when every member that has not exited has arrived and drained, their lines are checked in; once their homes have applied the check-ins the gang is suspended, in its turn at the lines of its save areas (R13, R41, R63, R256). -/
def tryRendezvous (s : State) (id : Nat) : State :=
  match s.launch? id with
  | none => s
  | some l =>
      let ms := liveMembers l
      if l.st != .running || l.status.isSome || ms.isEmpty || !ms.all (fun e => s.arrived (Member.key e.2)) then s
      else
        let s := ms.foldl (fun s e => s.checkInAll (Member.key e.2)) s
        if !ms.all (fun e => s.arrived (Member.key e.2)) then s else s.inTurn (ioTurn 4 id) (s.gangLines l) (suspendGang l)

/-! ### Resumption (R65) -/

/-- The registers of a member: those saved as its save area holds them, the others as at the start of its launch; QCNT is 0 (R50, R65, R208, R456, log entry 24). -/
def restoreRegs (s : State) (l : Launch) (va g core : Nat) (m : SegRec) : FrontRegs × EngineRegs :=
  let h := l.hc
  let rd (off n : Nat) : Nat := leNat ((s.sysRead h (va + off) n).getD [])
  let f := FrontRegs.reset core
  let e := EngineRegs.reset
  let pb := rd 104 8
  ({ f with
     x := Vector.ofFn (fun i : Fin 64 => if i.val ≠ 0 ∧ m.livex.getLsbD i.val then BitVec.ofNat 64 (rd (448 + 8 * i.val) 8) else 0)
     a := Vector.ofFn (fun i : Fin 16 => if m.livea.getLsbD i.val then BitVec.ofNat 72 (rd (192 + 16 * i.val) 9) else (regionBases l)[i])
     p := Vector.ofFn (fun i : Fin 16 => i.val == 0 || (m.livep.getLsbD i.val && pb.testBit i.val))
     b := Vector.ofFn (fun i : Fin 8 => if m.liveb.getLsbD i.val then BitVec.ofNat 32 (rd (128 + 4 * i.val) 4) else 0)
     fstat := BitVec.ofNat 5 (rd 64 8), fmode := BitVec.ofNat 2 (rd 72 8), scnt := BitVec.ofNat 16 (rd 80 8)
     seqlen := BitVec.ofNat 20 (rd 88 8), bindsel := BitVec.ofNat 7 (rd 96 8) },
   { e with
     v := Vector.ofFn (fun i : Fin 32 =>
       if m.livev.getLsbD i.val then lanesOf (wordsOf ((s.sysRead h (va + 65536 + 16384 * g + 512 * g * i.val) (512 * g)).getD []))
       else Vector.replicate 512 0)
     q := Vector.ofFn (fun i : Fin 8 => if i.val = 0 then BitVec.allOnes 512
       else if m.liveq.getLsbD i.val then BitVec.ofNat 512 (rd (1472 + 64 * i.val) (16 * g)) else 0)
     k := Vector.ofFn (fun i : Fin 64 => if m.livek.getLsbD i.val then
         ⟨BitVec.ofNat 32 (rd (960 + 8 * i.val) 4), BitVec.ofNat 32 (rd (964 + 8 * i.val) 4)⟩ else KEnt.empty) })

/-- The parts of a save area that a resumption reads into registers, as offset and bytes: the record and the registers it restores (R65, R456). -/
def restoreSpans (g : Nat) (m : SegRec) : List (Nat × Nat) :=
  [(0, 64), (64, 48)] ++ (bitsOf m.liveb).map (fun i => (128 + 4 * i.val, 4)) ++ (bitsOf m.livea).map (fun i => (192 + 16 * i.val, 16)) ++
  (bitsOf m.livex).map (fun i => (448 + 8 * i.val, 8)) ++ (bitsOf m.livek).map (fun i => (960 + 8 * i.val, 8)) ++
  (bitsOf m.liveq).map (fun i => (1472 + 64 * i.val, 16 * g)) ++
  (bitsOf m.livev).map (fun i => (65536 + 16384 * g + 512 * g * i.val, 512 * g))

/-- The address of the first poisoned line that a member's restoring would read into its registers (R247, R451). -/
def restorePoison (s : State) (l : Launch) (e : Nat × Member) : Option Nat :=
  let va := s.saveVa (Member.key e.2)
  let r := leNat e.2.record
  let m := s.masksAt l e.1 (r.testBit 417) (BitVec.ofNat 32 (r / 2 ^ 128))
  let bad (x : Nat × Nat) : Bool := (s.sysChunks l.hc (va + x.1) x.2).any (fun c => s.homePoison (c.1.1 / 64))
  ((restoreSpans (s.width e.2.core) m).find? bad).map (fun x => va + x.1)

/-- The state of a token from its byte (R411). -/
def tokOf (b : Nat) : TokSt :=
  if b.testBit 5 then .faulted else if b.testBit 6 then .done else if b.testBit 7 then .armed else .clear

/-- The tokens of a member from TOKENS: the BYTES of a stopped copy come with it; those of a token that is DONE are in no save slot and are a free value (R65, R412, log entry 7). -/
def restoreTokens (s : State) (k : Nat) (toks : Nat) : State :=
  (List.finRange 8).foldl (fun s j =>
    let st := tokOf (toks / 256 ^ j.val % 256)
    let copies := s.copies.filter (fun c => strandKey c.core c.strand == k && c.tok == some j)
    match st with
    | .clear => s
    | .done =>
        let (v, s) := s.freeVal
        s.setTok k (some j) .done (v.toNat % 2 ^ 32)
    | st => s.setTok k (some j) st ((copies.map (·.bytes)).headD 0)) s

/-- Copies kept with a suspended member go to its new strand. -/
def giveCopies (s : State) (id i core strand : Nat) : State :=
  let f (c : Copy) : Copy := if c.launch = id ∧ c.core = 128 ∧ c.strand = i then { c with core := core, strand := strand } else c
  let g (c : Gemv) : Gemv := if c.launch = id ∧ c.core = 128 ∧ c.strand = i then { c with core := core, strand := strand } else c
  { s with copies := s.copies.map f, gemvs := s.gemvs.map g }

/-- Whether a member's record in memory is as the part wrote it (R64, log entry 24). -/
def recordKept (s : State) (k : Nat) (m : Member) : Bool :=
  match s.sysRead (s.strand k).hc (s.saveVa k) 64 with
  | some bs => bs == m.record
  | none => true

/-- The copies and GEMVs of a strand that RESUME with SKIP abandoned while its member was suspended end: their tokens become DONE and their flags reach FSTAT (R135, R443). -/
def endSkipped (s : State) (k : Nat) : State :=
  let s := (s.copies.filter (fun c => strandKey c.core c.strand == k && c.skipped)).foldl finishCopy s
  let gone := s.gemvs.filter (fun c => strandKey c.core c.strand == k && c.skipped)
  let s := gone.foldl (fun s c => s.setTok k c.tok .done 0) s
  { s with gemvs := s.gemvs.filter (fun c => !gone.contains c) }

/-- The copies and GEMVs of a strand that RESUME replays while its member was suspended translate their pages afresh (R442, R503). -/
def walkAfresh (s : State) (k : Nat) : State :=
  let s := (s.copies.filter (fun c => strandKey c.core c.strand == k && !c.faulted)).foldl
    (fun s c => s.tlbForgetAll (clusterOf c.core) c.hc (s.copyAct c).exts) s
  (s.gemvs.filter (fun c => strandKey c.core c.strand == k && !c.faulted)).foldl
    (fun s c => s.tlbForgetAll (clusterOf c.core) c.hc (s.gemvAct c).exts) s

/-- A placed member restored from its save area, its window zero (R50, R65, R248, R254, R412, R426). -/
def resumeMember (s : State) (l : Launch) (i : Nat) (m : Member) : State :=
  let k := Member.key m
  let r := leNat m.record
  let pc := BitVec.ofNat 32 (r / 2 ^ 128)
  let va := s.saveVa k
  let (f, e) := s.restoreRegs l va (s.width m.core) m.core (s.masksAt l i (r.testBit 417) pc)
  let t := freshStrand k (s.strand k) pc
  let t := { t with front := f, eng := e, levels := m.levels, schedNext := m.schedNext }
  let plan := ((s.image? l.image).bind (fun g => g.cores[i]?)).map (·.spad)
  let s := (((s.clearPlan m.core (plan.getD [])).setStrand k t).clearWindow k).giveCopies l.id i m.core m.strand
  ((((s.restoreTokens k (r / 2 ^ 192 % 2 ^ 64)).endSkipped k).walkAfresh k).acquire (clusterOf m.core)).armEntry k

/-! ### Exit (R53, R352) -/

/-- A member exits: its lines are checked in (its EXIT has waited for their homes), its parks discarded, its levels ended and its strand freed; barriers and a rendezvous that waited only for it go on; the last member's exit makes the launch DONE (R43, R53, R352, R416, R425). -/
def exitMember (s : State) (k : Nat) : State :=
  let t := s.strand k
  let s := s.modStrand k (fun t => { t with levels := t.levels.map (fun l => { l with run := false }) })
  let s := (s.checkInAll k).freeStrand k
  let s := (s.modMember t.launch t.member (fun m => { m with exited := true })).modLaunch t.launch settleBars
  match s.launch? t.launch with
  | none => s
  | some l =>
      if l.status.isSome then s
      else if (liveMembers l).isEmpty then s.setStatus l.id (if l.replays = 0 then .done else .replayedDone)
      else s.tryRendezvous l.id

end State

end Sys2Proof.Machine
end

