-- ==== Sys2Proof/Machine/Launches.lean ====
section
/-! DEFINITION. The scheduler's acceptance of launch records, its rejections, and event records (spec 02 R41, R42, R44; 10 R294; 12 R328 to R333, R350; 16 R456). -/

namespace Sys2Proof.Machine

/-- n bits of a number from bit lo up. -/
def bitsAt (w lo n : Nat) : Nat := w / 2 ^ lo % 2 ^ n

/-- The region entry i of a launch record (R331). -/
def regionAt (r i : Nat) : Region :=
  let e := bitsAt r (128 * i + 256) 128
  { present := e.testBit 127, write := e.testBit 126, len := bitsAt e 72 48, base := BitVec.ofNat 72 e }

/-- The regions of a launch record (R331). -/
def regionsOf (r : Nat) : List Region := (List.range 6).map (regionAt r)

/-- The bits of a launch record that must be zero (R331). -/
def launchRsv (r : Nat) : Bool :=
  bitsAt r 160 24 == 0 && bitsAt r 66 6 == 0 && bitsAt r 41 23 == 0 && bitsAt r 0 32 == 0 &&
  (List.range 6).all (fun i => bitsAt r (128 * i + 376) 6 == 0)

/-- The conditions of one region entry (R331). -/
def regionOk (e : Region) : Bool :=
  if e.present then e.len != 0 && decide (e.base.toNat + e.len ≤ 0xFFFF * 2 ^ 56) else e.len == 0

/-- Whether two regions overlap and one of them is marked write (R44). -/
def regionsClash (a b : Region) : Bool :=
  a.present && b.present && (a.write || b.write) &&
  decide (a.base.toNat < b.base.toNat + b.len ∧ b.base.toNat < a.base.toNat + a.len)

/-- The members of a gang of an image (R46, R47). -/
def Image.ncores (g : Image) : Nat := g.cores.length

/-- The width of a width code; code 3 is none (R34). -/
def widthOf (c : Nat) : Option Nat := match c with | 0 => some 1 | 1 => some 2 | 2 => some 4 | _ => none

namespace State

/-! ### Event records (R326, R328) -/

/-- An event record written into its context's event queue, or discarded and counted in LOST (R326, R328, log entry 65). -/
def postEvent (s : State) (h ty : Nat) (word : BitVec 64) (seq stream : Nat) (sid : Option Nat) : State :=
  let lost := (s.hctx h).lost
  let rec_ := leBytes 32 (packBits [(word.toNat, 64), (seq, 48), (stream, 2), (0, 14), (lost, 32), (0, 16),
    (sid.getD 0, 12), (if sid.isNone then 1 else 0, 1), (0, 59), (ty, 8)])
  match s.ringPut h 4 rec_ with
  | some s => s.modHctx h (fun c => { c with lost := 0 })
  | none => s.modHctx h (fun c => { c with lost := min (lost + 1) (2 ^ 32 - 1) })

/-! ### Records about contexts and streams (R435, R436) -/

/-- A record about a context and one of its streams, with no strand (R436). -/
def ctxRecord (h code stream aux info : Nat) : FaultRec :=
  { va := 0, info := info, aux := aux, handle := 0, bundle := 0, seq := 0, stream := stream, hc := h, member := 0, core := 0
    strand := 0, slot := 15, cls := classOf code, code := code, stamp := 0, fsect := 0, launch := none, op := none, copy := none }

/-- A record rejected: a launch-rejected record and no completion (R42). -/
def reject (s : State) (h stream reason : Nat) : State := s.raise h (ctxRecord h 0x30 stream stream reason)

/-! ### Acceptance (R332) -/

/-- Launches accepted and not COMPLETE. -/
def journal (s : State) : List Launch := s.launches.filter (fun l => l.st != .complete)

/-- The lowest-numbered free save areas of a context, when there are n of them (R456). -/
def freeAreas (s : State) (h n : Nat) : Option (List Nat) :=
  let used := (s.journal.filter (fun l => l.hc == h)).flatMap (·.areas)
  let free := ((List.range (used.length + n)).filter (fun a => a < (s.hctx h).saven && !used.contains a)).take n
  if free.length = n then some free else none

/-- The start vector a record names: the image's START section, or NCORES words at STARTVA (R331, R332). -/
def startVector (s : State) (h : Nat) (g : Image) (r : Nat) : Option (List Word32) :=
  let va := bitsAt r 184 72
  if va = 0 then some g.starts
  else if va % 4 ≠ 0 then none
  else (s.sysRead h va (4 * g.ncores)).map wordsOf

/-- What the scheduler reads of a context's memory to take a record: its start vector (R332). -/
def startReads (s : State) (h r : Nat) : List (Nat × Nat × Nat) :=
  let va := bitsAt r 184 72
  match s.images.find? (fun g => g.handle == bitsAt r 128 32 && g.hc == h) with
  | some g => if va = 0 then [] else [(h, va, 4 * g.ncores)]
  | none => []

/-- Whether a copy-schedule entry stays within the regions a record gives (R294, log entry 59). -/
def schedFits (regs : List Region) (e : SchedEnt) : Bool :=
  let fits (code off : Nat) : Bool := decide (6 ≤ code) ||
    (match regs[code]? with
     | some r => r.present && decide (off + e.len ≤ r.len)
     | none => false)
  fits e.sbase e.soff && fits e.dbase e.doff

/-- The conditions of R331, R332, R96 and R294 on a record: its image and start vector, or the reason of R435 for which it is malformed (log entry 53). -/
def checkLaunch (s : State) (h stream : Nat) (seq : Nat) (r : Nat) : Except Nat (Image × List Word32) :=
  let regs := regionsOf r
  let c := s.hctx h
  if !(launchRsv r && regs.all regionOk && bitsAt r 38 2 != 3 && bitsAt r 72 6 == h && bitsAt r 78 2 == stream &&
      bitsAt r 80 48 == seq && ((c.rings.toList.getD (bitsAt r 64 2) Ring.reset).logd != 0) &&
      (!r.testBit 32 || bitsAt r 33 3 == 0)) then .error 1
  else match s.images.find? (fun g => g.handle == bitsAt r 128 32 && g.hc == h) with
    | none => .error 2
    | some g =>
        if widthOf (bitsAt r 36 2) ≠ some g.width ∨ r.testBit 32 = g.clgang ∨
            (g.clgang ∧ g.ncores * g.width ≠ (bitsAt r 33 3 + 1) * 4) then .error 3
        else if !(regs.zip g.footprint).all (fun e =>
            !e.1.present || (e.2.2 != 0 && e.2.1 == e.1.write && decide (e.1.len ≤ e.2.2))) then .error 5
        else match s.startVector h g r with
          | none => .error 4
          | some st =>
              if !(st.zip g.cores).all (fun e => e.2.segs.any (fun x => x.start == e.1)) then .error 4
              else if !g.cores.all (fun k => k.sched.all (schedFits regs)) then .error 6
              else .ok (g, st)

/-- The lowest journal entry that no launch holds (R333, log entry 92). -/
def freeSlot (s : State) : Nat :=
  ((List.range (s.launches.length + 1)).find? (fun i => !s.launches.any (fun l => l.st != .complete && l.jslot == i))).getD 0

/-- The bytes of a journal entry: the record, the start vector, SEQ (R332, log entry 92). -/
def journalBytes (r : Nat) (starts : List Word32) (seq : BitVec 48) : List Byte :=
  let sv := starts.flatMap (fun w => leBytes 4 w.toNat)
  leBytes 128 r ++ sv ++ List.replicate (128 - sv.length) 0 ++ leBytes 8 seq.toNat

/-- A journal entry written in both copies (R332 step 1, R333). -/
def writeJournal (s : State) (slot : Nat) (bs : List Byte) : State :=
  let at_ := Config.journalBase + Config.journalStride * slot
  { s with mem := (s.mem.write at_ bs).write (at_ + Config.journalCopy) bs }

/-- The record slots of save areas cleared, as their allocation does (R64). -/
def clearRecords (s : State) (h : Nat) (areas : List Nat) : State :=
  areas.foldl (fun s a =>
    (s.sysWrite h ((s.hctx h).saveva.toNat + Config.saveStride * a) (List.replicate 64 0)).getD s) s

/-- A launch accepted into the journal, in its four steps, with its edges and its save areas (R44, R64, R332, R429, R456). -/
def accept (s : State) (h stream : Nat) (r : Nat) (g : Image) (starts : List Word32) (areas : List Nat) (fromNotify : Bool) : State :=
  let c := s.hctx h
  let seq := (c.streams.toList.getD stream StreamD.reset).nextseq
  let regs := regionsOf r
  let edges := (s.journal.filter (fun l => l.hc == h && l.regions.any (fun a => regs.any (regionsClash a)))).map (·.id)
  let (id, s) := s.newId
  let slot := s.freeSlot
  let s := (s.writeJournal slot (journalBytes r starts seq)).clearRecords h areas
  let l : Launch :=
    { id := id, hc := h, stream := stream, seq := seq, cring := bitsAt r 64 2, cls := bitsAt r 38 2, width := g.width
      ncl := bitsAt r 33 3, single := r.testBit 32, image := g.handle, csched := r.testBit 40, regions := regs, starts := starts
      st := if edges.isEmpty then .ready else .waiting, edges := edges, gang := 0, members := [], bars := Vector.replicate 16 (0, 0)
      pushes := [], areas := areas, everSusp := false, replays := 0, side := false, status := none, waited := false
      notify := fromNotify, thermal := false, markAt := none, hostVer := false, wdog := c.wdog
      owed := none, jslot := slot }
  let s := s.modHctx h (fun c => { c with
    acct := c.acct.set 0 (c.acct[0] + 1)
    streams := if hs : stream < 4 then c.streams.set stream { c.streams[stream] with nextseq := seq + 1 } else c.streams })
  { s with launches := s.launches ++ [l] }

/-- Whether the journal has room for another launch (R333). -/
def journalRoom (s : State) : Bool := decide (s.journal.length < Config.journalEntries)

/-- A ring or notify record taken: accepted, or rejected; nothing while the journal or the save areas are full (R42, R332, R333, R456, log entry 81). -/
def takeRecord (s : State) (h stream : Nat) (r : Nat) (fromNotify : Bool) : Option State :=
  let seq := if fromNotify then 0 else ((s.hctx h).streams.toList.getD stream StreamD.reset).nextseq.toNat
  if !s.journalRoom then none
  else match s.checkLaunch h stream seq r with
    | .error e => some (s.reject h stream e)
    | .ok (g, st) =>
        match s.freeAreas h g.ncores with
        | none => none
        | some as => some (s.accept h stream r g st as fromNotify)

/-- Whether a stream owes an ADMIN record, so that no further record is taken from it (R437). -/
def owesAdmin (s : State) (h stream : Nat) : Bool :=
  (s.hctx h).waiting.any (fun r => r.cls == 5 && r.stream == stream)

/-- A record handed over by LAUNCH: the result and the state (R350, log entry 53). -/
def deviceLaunch (s : State) (h : Nat) (r : Nat) : XWord × State :=
  let stream := bitsAt r 78 2
  let d := (s.hctx h).streams.toList.getD stream StreamD.reset
  let bad : XWord := 0x8000000000000001
  let full : XWord := 0x8000000000000002
  if bitsAt r 72 6 ≠ h ∨ d.mode ≠ 2 ∨ bitsAt r 80 48 ≠ 0 then (bad, s.reject h stream 1)
  else if !s.journalRoom then (full, s)
  else match s.checkLaunch h stream 0 r with
    | .error e => (bad, s.reject h stream e)
    | .ok (g, st) =>
        match s.freeAreas h g.ncores with
        | none => (full, s)
        | some as => (d.nextseq.setWidth 64, s.accept h stream r g st as false)

end State

end Sys2Proof.Machine
end

