-- ==== Sys2Proof/Machine/Dict.lean ====
section
/-! DEFINITION. Dictionary windows: allocation, sharing, reclaiming and loading (spec 03 R78; 13 R358 to R361). -/

namespace Sys2Proof.Machine

namespace State

/-- WSIZE of a dictionary section of n records (R359). -/
def windowSize (n : Nat) : Nat := 256 * ((n + 256) / 256)

/-- Whether some resident strand of a core uses the window at a base. -/
def windowUsed (s : State) (core base : Nat) : Bool :=
  (List.range 4).any (fun i =>
    let t := s.strand (strandKey core i)
    resident t && t.wsize != 0 && t.wbase == base)

/-- SHR of a strand: another resident strand's window has the same base (R358). -/
def windowShared (s : State) (k : Nat) : Bool :=
  (List.range 4).any (fun i =>
    let o := strandKey (k / 4) i
    o != k && resident (s.strand o) && (s.strand o).wsize != 0 && (s.strand o).wbase == (s.strand k).wbase)

/-- The lowest base at which a window of a size overlaps none (R361). -/
def fitWindow (ws : List Window) (size : Nat) : Option Nat :=
  ((List.range 32).map (256 * ·)).find? (fun b =>
    decide (b + size ≤ Config.dictEntries) && ws.all (fun w => decide (b + size ≤ w.base ∨ w.base + w.size ≤ b)))

/-- The least recently used of some windows. -/
def oldestWindow : List Window → Option Window
  | [] => none
  | w :: ws =>
      match oldestWindow ws with
      | none => some w
      | some v => if v.stamp < w.stamp then some v else some w

/-- Free entries for a window, kept windows reclaimed, least recently used first, while too few are free (R360). -/
def allocWindow : (fuel : Nat) → (core size : Nat) → State → Option (Nat × State)
  | 0, core, size, s => (fitWindow (s.core core).windows size).map (fun b => (b, s))
  | n + 1, core, size, s =>
      match fitWindow (s.core core).windows size with
      | some b => some (b, s)
      | none =>
          match oldestWindow ((s.core core).windows.filter (fun w => !s.windowUsed core w.base)) with
          | none => none
          | some w => allocWindow n core size (s.modCore core (fun c => { c with windows := c.windows.filter (fun v => v.base != w.base) }))

/-- The next use stamp of a core's windows. -/
def windowStamp (s : State) (core : Nat) : Nat := ((s.core core).windows.foldl (fun m w => max m w.stamp) 0) + 1

/-- A window loaded from a DICT section: entry 0 and the entries above the records hold the all-NOP bundle (R359). -/
def loadedWindow (base stamp image gcore : Nat) (dict : List (BitVec 384)) : Window :=
  let size := windowSize dict.length
  ⟨base, size, image, gcore, false, stamp, 0 :: dict ++ List.replicate (size - dict.length - 1) 0⟩

/-- The window of a member at placement: an unchanged window of its image and gang core, resident or kept, or a fresh one loaded (R339, R360). -/
def placeWindow (s : State) (core image gcore : Nat) (dict : List (BitVec 384)) : Option (Nat × Nat × State) :=
  let n := s.windowStamp core
  match (s.core core).windows.find? (fun w => w.image == image && w.gcore == gcore && !w.changed) with
  | some w =>
      let f (v : Window) : Window := if v.base = w.base then { v with stamp := n } else v
      some (w.base, w.size, s.modCore core (fun c => { c with windows := c.windows.map f }))
  | none =>
      match s.allocWindow 32 core (windowSize dict.length) with
      | none => none
      | some (b, s) =>
          let w := loadedWindow b n image gcore dict
          some (b, w.size, s.modCore core (fun c => { c with windows := c.windows ++ [w] }))

/-- The window a strand uses. -/
def windowOf (s : State) (k : Nat) : Option Window := (s.core (k / 4)).windows.find? (fun w => w.base == (s.strand k).wbase)

/-- A strand's own window made private: a shared one is copied into free entries, when there are any (R362). -/
def privateWindow (s : State) (k : Nat) : Option State :=
  if !s.windowShared k then some s
  else match s.windowOf k with
    | none => none
    | some w =>
        match s.allocWindow 32 (k / 4) (s.strand k).wsize with
        | none => none
        | some (b, s) =>
            let n := s.windowStamp (k / 4)
            let s := s.modCore (k / 4) (fun c => { c with windows := c.windows ++ [{ w with base := b, stamp := n }] })
            some (s.modStrand k (fun t => { t with wbase := b }))

/-- Bundles written into a strand's window from an entry up; the window counts as changed (R362). -/
def writeWindow (s : State) (k first : Nat) (bs : List (BitVec 384)) : State :=
  let base := (s.strand k).wbase
  let f (w : Window) : Window :=
    if w.base = base then { w with entries := w.entries.take first ++ bs ++ w.entries.drop (first + bs.length), changed := true } else w
  s.modCore (k / 4) (fun c => { c with windows := c.windows.map f })

end State

end Sys2Proof.Machine
end

