-- ==== Sys2Proof/Machine/Queue.lean ====
section
/-! DEFINITION. The Q-slot forms of ordering, queues and scheduling: FENCE, DRAIN, PUSH, POP, QSTAT, NOTIFY, LAUNCH, SUSPEND, EXIT, EVPOST, DICTLD, TLBINV (spec 10 R301 to R303; 11 R314 to R320; 12 R344 to R353; 13 R362, R376, R377). -/

namespace Sys2Proof.Machine

namespace State

/-! ### Queue barriers (R120, R301 to R303) -/

/-- Whether every A, C and M operation issued before the one being performed has left its queue; an MMA that its engine has taken has left, and so has a load sent on to its homes (R116, R120, R302, R320, log entry 59); those of its own bundle are among them, by their lower numbers (log entry 99). -/
def earlierGone (s : State) : Bool :=
  let taken (o : QOp) : Bool := o.stage == .sent || (o.stage == .started && (match o.instr with
    | .mma _ _ _ _ _ _ _ _ | .mmat _ _ _ _ _ _ _ _ => true
    | _ => false))
  !s.me.ops.any (fun o => (o.eng == .a || o.eng == .c || o.eng == .m) && !taken o &&
    (s.ctx.num == 0 || decide (o.num < s.ctx.num)))

/-- Whether a scope reaches beyond the cluster of the strand being acted for: DEVICE or wider, or GANG of several clusters (R254, R305). -/
def wide (s : State) (c : Scope) : Bool :=
  match c with
  | .strand | .core | .cluster => false
  | .gang => match s.launchOf s.meKey with
    | some l => l.ncl != 0
    | none => false
  | _ => true

/-- Whether a home request of the strand being acted for has still to perform at a scope: a write, but a copy-schedule entry's, and, where reads count, a read or a check-out not yet granted; within its cluster a write to a line of the cluster's copy has performed there (R301 to R303, R305, log entry 93). -/
def requestWaits (s : State) (reads : Bool) (c : Scope) (r : HReq) : Bool :=
  strandKey r.core r.strand == s.meKey && !r.entry &&
  (match r.kind with
   | .read _ _ | .chkout => reads
   | .turn => false
   | _ => s.wide c || !isWrite r || (s.cline (clusterOf s.ctx.core) (r.addr / 64)).isNone)

/-- Whether everything the strand issued before has performed at a scope: its writes, those it has withheld among them; `reads` asks for its reads as well, and for the writes whose values they returned (R301 to R303, R305, R315, R448). FQPOP, SFRAME and BTSNAP write as stores do, and a check-out not yet granted counts as a read (log entry 93). -/
def performed (s : State) (reads : Bool) (c : Scope) : Bool :=
  let k := s.meKey
  let mine (c n : Nat) : Bool := strandKey c n == k
  !s.copies.any (fun c => mine c.core c.strand && c.slot == 3) && !s.gemvs.any (fun c => mine c.core c.strand) &&
  !s.pushes.any (fun p => mine p.core p.strand) && s.me.withheld.isEmpty && !s.home.any (s.requestWaits reads c) &&
  !(reads && s.me.ops.any (fun o => o.stage == .sent)) && !(reads && s.wide c && s.seenWaits k s.me.launch)

/-- The acquire of a FENCE, where its scope calls for it (R254, R301). -/
def acquireFor (c : Scope) (s : State) : State :=
  let cl := clusterOf s.ctx.core
  if !s.wide c then s
  else if s.acquireReady cl then s.acquire cl else s.wait

/-- FENCE.ACQ (R301). -/
def fenceAcq (c : Scope) (s : State) : State := if s.earlierGone then acquireFor c s else s.wait
/-- FENCE.REL (R301). -/
def fenceRel (c : Scope) (s : State) : State := if s.earlierGone && s.performed true c then s else s.wait
/-- FENCE.FULL (R301). -/
def fenceFull (c : Scope) (s : State) : State := if s.earlierGone && s.performed true c then acquireFor c s else s.wait
/-- DRAIN (R302). -/
def drainOp (c : Scope) (s : State) : State := if s.earlierGone && s.performed false c then s else s.wait

/-! ### Push queues (R259, R260, R345 to R348) -/

/-- A queue's counters of the strand's launch changed. -/
def modPush (s : State) (id q : Nat) (f : PushQ → PushQ) : State :=
  s.modLaunch id (fun l => { l with pushes := l.pushes.set q (f (l.pushes.getD q PushQ.reset)) })

/-- The place of a ring slot in its consumer's bank (R345, R370). -/
def ringSlot (l : Launch) (d : PushDesc) (i : Nat) : Option Nat :=
  (l.members[d.cons]?).map (fun m =>
    bankAddr (clusterOf m.core) ((32 * column m.core + d.bank) * 65536 + (d.goff + i % depthOf d) * 16))

/-- Whether an operation was issued before the one being performed. -/
def before (s : State) (n : Nat) : Bool := s.ctx.num == 0 || decide (n < s.ctx.num)

/-- Whether a GEMV issued before the operation being performed has not read its descriptor, so that what it writes is not yet known (R262). -/
def gemvBefore (s : State) : Bool :=
  s.gemvs.any (fun c => strandKey c.core c.strand == s.meKey && c.n == 0 && s.before c.num) ||
  s.me.ops.any (fun o => s.before o.num && o.guard != some false && (match o.instr with | .gemv _ _ _ _ _ => true | _ => false))

/-- Whether an access of the strand issued earlier writes, or may write, some of the bytes of a Q operation's source (R262, R345, R362). -/
def srcBusy (s : State) (va n : Nat) : Bool :=
  s.gemvBefore || (s.acts s.meKey).any (fun b => s.before b.num && b.exts.any (fun e => e.wr && e.meets ⟨va, n, false⟩))

/-- 16 bytes at a time. -/
def granules : Nat → List Byte → List (List Byte)
  | 0, _ => []
  | n + 1, bs => bs.take 16 :: granules n (bs.drop 16)

/-- The poison of source granule i: that of its bank granule or its line, when the whole read met poison (R245). -/
def srcPoison (s : State) (va i : Nat) (any : Bool) : Bool :=
  any && (match s.placeOf (va + 16 * i) with
    | some pa => if pa < bankBase then s.homePoison (pa / 64) else s.anyPoison pa 16
    | none => any)

/-- PUSH at its queue head: the source is read and its entries go on their way in ring order; standing alone it reserves its slots itself (R260, R345, R448). -/
def pushOp (d : XReg) (a : AReg) (t : XReg) (s : State) : State :=
  let n := (s.rdX d).toNat
  let q := (s.rdX t).toNat
  let va := s.ea a 0
  match s.pushDesc q, s.launchOf s.meKey with
  | some p, some l =>
      if n = 0 then s
      else if s.srcBusy va (16 * n) then s.wait
      else (readVa holdFault va (16 * n) s).run (fun r s =>
        let s := if s.ctx.num = 0 then s.modPush l.id q (fun c => { c with res := c.res + BitVec.ofNat 32 n }) else s
        let s := if s.withholds && decide (Config.withholdEntries < s.withheldCount s.ctx.core + n) then s.loseProtection else s
        let first := (l.pushes.getD q PushQ.reset).tail.toNat + s.pushes.countP (fun e => e.launch == l.id && e.queue == q)
        (granules n r.1).zipIdx.foldl (fun s e =>
          let (id, s) := s.newId
          let x : PushEnt :=
            ⟨id, l.id, q, (first + e.2) % depthOf p, e.1, s.srcPoison va e.2 r.2, s.ctx.num, s.ctx.core, s.ctx.strand⟩
          { s with pushes := s.pushes ++ [x] }) s)
  | _, _ => s
/-- Whether an access of the strand issued earlier reaches some bytes of banks. -/
def bankBusy (s : State) (addrs : List Nat) : Bool :=
  (s.acts s.meKey).any (fun b => s.before b.num &&
    b.exts.any (fun e => match spotOf s.ctx.core e.va with
      | .scr x => addrs.any (fun a => decide (x < a + 16 ∧ a < x + e.len))
      | .fifo cl bk => addrs.any (fun a => bankOf a == (cl, bk))
      | _ => false))

/-- POP at its queue head (R260, R347). -/
def popQueue (d x : XReg) (s : State) : State :=
  let w := (s.rdX x).toNat
  let q := w % 256
  let n := w / 65536 % 128
  match s.pushDesc q, s.launchOf s.meKey with
  | some p, some l =>
      let c := l.pushes.getD q PushQ.reset
      let slots := (List.range n).filterMap (fun i => ringSlot l p (c.head.toNat + i))
      if (c.tailc - c.head).toNat < n ∨ s.bankBusy slots then s.wait
      else
        let s := slots.foldl (fun s a => s.setFull a 16 false) s
        let head := c.head + BitVec.ofNat 32 n
        (s.modPush l.id q (fun c => { c with head := head, headc := head })).wrX d (head.setWidth 64)
  | _, _ => s

/-- QSTAT (R348). -/
def qstatOp (d x : XReg) (s : State) : State :=
  let w := s.rdX x
  match s.pushDesc (w.toNat % 256) with
  | none => s
  | some p =>
      let c := s.pushQ (w.toNat % 256)
      let v := if w.getLsbD 8 then (c.tailc - c.head).toNat else depthOf p - (c.res - c.headc).toNat
      s.wrX d (BitVec.ofNat 64 (v % 8192 + p.logd * 65536))

/-- PUSH_DELIVERY: an entry is written at its consumer with its full-empty bit, and TAIL and TAILC advance past it; entries of one queue are delivered in order, and a locked bank or a protected segment holds one back (R212, R245, R260, R322, R448). -/
def deliverPush (s : State) (id : Nat) : State :=
  match s.pushes.find? (fun e => e.id == id) with
  | none => s
  | some e =>
      let first := s.pushes.find? (fun x => x.launch == e.launch && x.queue == e.queue)
      let s' := { s with ctx := { Ctx.idle with core := e.core, strand := e.strand, num := e.num } }
      match s.launch? e.launch, first.map (·.id) == some id with
      | some l, true =>
          match ((s.image? l.image).bind (fun i => (i.push[e.queue]?).join)).bind (fun d => ringSlot l d e.slot) with
          | none => s
          | some a =>
              if s'.bankHeld a 16 || s.pushWithheld e then s
              else
                let s := { (s.bankWriteFe a e.bytes e.poison) with pushes := s.pushes.filter (fun x => x.id != id) }
                s.modPush e.launch e.queue (fun c => { c with tail := c.tail + 1, tailc := c.tailc + 1 })
      | _, _ => s

/-! ### NOTIFY and LAUNCH (R335, R349, R350) -/

/-- NOTIFY's act on the lines that are its own: its end, or the lines whose turns it waits for (R335, R349). -/
def notifyAct (a : AReg) (t : XReg) (s : State) : Acc (List Nat) :=
  let va := s.ea a 0
  (translate holdFault .write va 32 s).bind (fun dps s =>
    (load va 32 s).bind (fun bs s =>
      let d := leNat bs
      let i := bitsAt d 224 32
      let logd := bitsAt d 72 4
      let qva := bitsAt d 0 72
      if logd < 4 ∨ 12 < logd ∨ qva / 2 ^ 56 = 0xFFFF then .stop s.violate
      else (page holdFault .read qva s).bind (fun qp s =>
        if qp.2 ≠ 1 then .stop s.violate
        else (load (qva + 64) 8 s).bind (fun hs s =>
          if 2 ^ logd ≤ (BitVec.ofNat 32 i - BitVec.ofNat 32 (leNat hs)).toNat then .stop s.wait
          else
            let slot := qva + 128 + 64 * (i % 2 ^ logd)
            (translate holdFault .write slot 64 s).bind (fun rps s =>
              (translate holdFault .write qva 8 s).bind (fun tps s =>
                let lines := (dps ++ rps ++ tps).flatMap (fun p => (chunksOf p.1 p.2.1).map (fun c => c.1 / 64))
                if !lines.all s.homeFree then .ok (lines.filter (fun l => !s.homeFree l)) s
                else
                  let l := s.launchOf s.meKey
                  let seq := (l.map (fun l => l.seq.toNat)).getD 0
                  let stream := (l.map (fun l => l.stream)).getD 0
                  let rec_ := leBytes 64 (packBits [(s.hcid, 6), (stream, 2), (seq, 48), (i, 32), ((s.rdX t).toNat, 64)])
                  let next := (i + 1) % 2 ^ 32
                  let defer := s.ctx.defer
                  let s := { s with ctx := { s.ctx with defer := false } }
                  let s := writePages rps rec_ s
                  let s := writePages tps (leBytes 8 next) s
                  let s := writePages dps (leBytes 32 (d % 2 ^ 224 + next * 2 ^ 224)) s
                  .ok [] { s with ctx := { s.ctx with defer := defer } }))))))

/-- NOTIFY at its queue head: a release at POOL, then the record, TAIL and PTAIL in that order, in its turns at their lines; TAIL's upper half is written zero, and the count in its lower half wraps with PTAIL (R13, R335, R349, log entry 103). -/
def notifyOp (a : AReg) (t : XReg) (s : State) : State :=
  if !(s.earlierGone && s.performed true .pool) then s.wait
  else
    let o := s.myTurn
    let own := s.turnLines o
    match notifyAct a t (s.asMine o own) with
    | .ok [] u => giveBack o own s u
    | .ok ls u => (joinLines o (own ++ ls) (keepBack o own s u)).wait
    | .stop u => giveBack o own s u

/-- LAUNCH at its queue head: a release at DEVICE, then the scheduler's decision once it can read the start vector; no record is taken from a stream that owes an ADMIN record (R317, R350, R437, log entry 53). -/
def launchOp (d : XReg) (a : AReg) (s : State) : State :=
  if !(s.earlierGone && s.performed true .device) then s.wait
  else (load (s.ea a 0) 128 s).run (fun bs s =>
    let r := leNat bs
    let h := s.hcid
    let starts := s.startReads h r
    if s.owesAdmin h (bitsAt r 78 2) then s.wait
    else if starts.any (fun e => s.sysHeld e.1 e.2.1 e.2.2) then (starts.foldl (fun s e => s.sysAsk e.1 e.2.1 e.2.2) s).wait
    else
      let (v, s) := s.deviceLaunch h r
      (s.takeReplies 128 0 0).wrX d v)

/-! ### SUSPEND, EXIT, EVPOST (R351 to R353) -/

/-- SUSPEND at its queue head: the member has its dependence word, stops issuing, and waits at the rendezvous, which takes place when all have arrived and drained (R63, R351). -/
def suspendOp (x : XReg) (s : State) : State :=
  if !s.earlierGone then s.wait
  else
    let w := BitVec.ofNat 32 (s.rdX x).toNat
    let k := s.meKey
    let id := s.me.launch
    let s := s.modMe (fun t => { t with life := .rendezvous, dep := some w })
    let t := (s.tryRendezvous id)
    if (t.strand k).life == .rendezvous then t.wait else t

/-- EXIT at its queue head: once everything the strand has under way has completed and no token is ARMED or FAULTED, its lines are checked in, and it is freed when their homes have applied them (R256, R352). -/
def exitOp (s : State) : State :=
  let k := s.meKey
  let s := s.modMe (fun t => { t with life := .exiting, redirects := [] })
  let ended (s : State) : Bool :=
    s.idleBut k false (fun o => o.num == s.ctx.num) && s.me.tokens.all (fun t => t.st != .armed && t.st != .faulted)
  if !ended s then s.wait
  else
    let s := s.checkInAll k
    if ended s then s.exitMember k else s.wait

/-- EVPOST: an event record of TYPE 1 (R328, R353). -/
def evpostOp (x t : XReg) (s : State) : State :=
  let l := s.launchOf s.meKey
  let w := (s.rdX t).toNat
  s.postEvent s.hcid 1 (s.rdX x) ((l.map (fun l => l.seq.toNat)).getD 0) ((l.map (fun l => l.stream)).getD 0)
    (if w.testBit 12 then none else some (w % 4096))

/-! ### DICTLD (R362, R363) -/

/-- Bundles from their bytes, 48 to a bundle (R69). -/
def bundlesOf : Nat → List Byte → List (BitVec 384)
  | 0, _ => []
  | n + 1, bs => BitVec.ofNat 384 (leNat (bs.take 48)) :: bundlesOf n (bs.drop 48)

/-- DICTLD at its queue head (R362). -/
def dictldOp (d : XReg) (a : AReg) (t : XReg) (s : State) : State :=
  let w := (s.rdX t).toNat
  let first := w % 8192
  let n := w / 65536 % 512
  let va := s.ea a 0
  if s.srcBusy va (48 * n) then s.wait
  else match s.privateWindow s.meKey with
    | none => s.wrX d 1
    | some _ =>
        (load va (48 * n) s).run (fun bs s =>
          let s := (s.privateWindow s.meKey).getD s
          (s.writeWindow s.meKey first (bundlesOf n bs)).wrX d 0)

/-! ### TLBINV (R376, R377) -/

/-- Which leaves an invalidation names. -/
inductive Drop where
  | page (h va : Nat)
  | hc (h : Nat)
  | all
  deriving DecidableEq, Repr

/-- Whether an invalidation names a leaf. -/
def Drop.names (d : Drop) (e : TlbEnt) : Bool :=
  match d with
  | .page h va => leafCovers e h va
  | .hc h => e.hc == h
  | .all => true

/-- Whether an invalidation names a walk in progress. -/
def Drop.walks (d : Drop) (w : Walk) : Bool :=
  match d with
  | .page h va => w.hc == h && w.vpage == va / 65536
  | .hc h => w.hc == h
  | .all => true

/-- Whether an invalidation waits for the accesses of a context at some address: it drops its translations (R377). -/
def Drop.holds (d : Drop) (hc : Nat) : Bool :=
  match d with
  | .page h _ => hc == h
  | .hc h => hc == h
  | .all => true

/-- Whether an access translated by leaves that an invalidation drops has still to perform: a request at a home, or a write withheld (R377, R448). -/
def leafUsed (s : State) (d : Drop) : Bool :=
  s.home.any (fun r => r.kind != .turn && d.holds r.hc) ||
  s.strands.any (fun e => d.holds e.2.hc && e.2.withheld.any (fun w => decide (w.addr < bankBase)))

/-- Every TLB of the part drops the leaves named, once the walks of those pages have ended and the accesses they translated have performed; none while they have not (R377). -/
def dropLeaves (s : State) (d : Drop) : Option State :=
  if s.walks.any d.walks || s.leafUsed d then none
  else some { s with clusters := s.clusters.map (fun e => (e.1, { e.2 with tlb := e.2.tlb.filter (fun t => !d.names t) })) }

/-- TLBINV at its queue head (R376, R377, log entry 59). -/
def tlbinvOp (d : Drop) (s : State) : State := (s.dropLeaves d).getD s.wait

end State

/-! ### Meanings -/

/-- FENCE.ACQ (R301). -/
def execFenceAcq (g : Guard) (c : Scope) (s : State) : Host.Outcome State Fault Refusal :=
  s.slotOp (.fenceAcq g c) g (State.fenceAcq c)

/-- FENCE.REL (R301). -/
def execFenceRel (g : Guard) (c : Scope) (s : State) : Host.Outcome State Fault Refusal :=
  s.slotOp (.fenceRel g c) g (State.fenceRel c)

/-- FENCE.FULL (R301). -/
def execFenceFull (g : Guard) (c : Scope) (s : State) : Host.Outcome State Fault Refusal :=
  s.slotOp (.fenceFull g c) g (State.fenceFull c)

/-- DRAIN (R302). -/
def execDrain (g : Guard) (c : Scope) (s : State) : Host.Outcome State Fault Refusal :=
  s.slotOp (.drain g c) g (State.drainOp c)

/-- PUSH (R345). -/
def execPush (g : Guard) (d : XReg) (a : AReg) (t : XReg) (s : State) : Host.Outcome State Fault Refusal :=
  s.slotOp (.push g d a t) g (State.pushOp d a t)

/-- POP (R347). -/
def execPop (g : Guard) (d x : XReg) (s : State) : Host.Outcome State Fault Refusal :=
  s.slotOp (.pop g d x) g (State.popQueue d x)

/-- QSTAT (R348). -/
def execQstat (g : Guard) (d x : XReg) (s : State) : Host.Outcome State Fault Refusal :=
  s.slotOp (.qstat g d x) g (State.qstatOp d x)

/-- NOTIFY (R349). -/
def execNotify (g : Guard) (a : AReg) (t : XReg) (s : State) : Host.Outcome State Fault Refusal :=
  s.slotOp (.notify g a t) g (State.notifyOp a t)

/-- LAUNCH (R350). -/
def execLaunch (g : Guard) (d : XReg) (a : AReg) (s : State) : Host.Outcome State Fault Refusal :=
  s.slotOp (.launch g d a) g (State.launchOp d a)

/-- SUSPEND (R351). -/
def execSuspend (g : Guard) (x : XReg) (s : State) : Host.Outcome State Fault Refusal :=
  s.slotOp (.suspend g x) g (State.suspendOp x)

/-- EXIT (R352). -/
def execExit (g : Guard) (s : State) : Host.Outcome State Fault Refusal :=
  s.slotOp (.exit g) g State.exitOp

/-- EVPOST (R353). -/
def execEvpost (g : Guard) (x t : XReg) (s : State) : Host.Outcome State Fault Refusal :=
  s.slotOp (.evpost g x t) g (State.evpostOp x t)

/-- DICTLD (R362). -/
def execDictld (g : Guard) (d : XReg) (a : AReg) (t : XReg) (s : State) : Host.Outcome State Fault Refusal :=
  s.slotOp (.dictld g d a t) g (State.dictldOp d a t)

/-- TLBINV.PAGE (R376). -/
def execTlbinvPage (g : Guard) (a : AReg) (s : State) : Host.Outcome State Fault Refusal :=
  s.slotOp (.tlbinvPage g a) g (fun s => State.tlbinvOp (.page s.hcid (s.ea a 0)) s)

/-- TLBINV.HC (R376). -/
def execTlbinvHc (g : Guard) (x : XReg) (s : State) : Host.Outcome State Fault Refusal :=
  s.slotOp (.tlbinvHc g x) g (fun s => State.tlbinvOp (.hc (s.rdX x).toNat) s)

/-- TLBINV.ALL (R376). -/
def execTlbinvAll (g : Guard) (s : State) : Host.Outcome State Fault Refusal :=
  s.slotOp (.tlbinvAll g) g (State.tlbinvOp .all)

/-- PUSH_DELIVERY (R260). -/
def execPushDelivery (n : Nat) (s : State) : Host.Outcome State Fault Refusal := .next (s.deliverPush n)

end Sys2Proof.Machine
end

