-- ==== Sys2Proof/Machine/Medlar.lean ====
section
/-! DEFINITION. The KV and prefix forms over Medlar's map, block entries and the prefix index (spec 14 R379 to R394). -/

namespace Sys2Proof.Machine

/-- How an act ends without effect: a failure code, a translation or permission fault at an address, a wait for lines that are not free (or, with none named, for something else), poison consumed at an address (R381, R382, R436). -/
inductive TErr where
  | code (n : Nat)
  | fault (code va : Nat)
  | hold (lines : List Nat)
  | poison (va : Nat)
  deriving DecidableEq, Repr

/-- Tokens a block holds: TPB (R384). -/
def MedRec.tpb (m : MedRec) : Nat := 2 ^ m.logtpb
/-- Bytes of a token slot: SB (R384). -/
def MedRec.sb (m : MedRec) : Nat := 65536 / m.tpb

/-- H(K) (R386). -/
def MKey.hash (k : MKey) : Nat :=
  ((k.hc * 2 ^ 52 + k.seq * 2 ^ 20 + k.lblk) * 0x9E3779B97F4A7C15) % 2 ^ 64 / 2 ^ 42

/-- A block entry that registration has not written. -/
def Blk.reset : Blk := ⟨0, 0, 0, .free, 0, 0, false, 0, 0⟩
def MSlot.reset : MSlot := ⟨none, 0⟩

namespace State

/-! ### The map (R386) -/

def blk (s : State) (b : Nat) : Blk := s.blks.getD b Blk.reset
def modBlk (s : State) (b : Nat) (f : Blk → Blk) : State := { s with blks := s.blks.set b (f (s.blk b)) }
def mslot (s : State) (n : Nat) : MSlot := s.slots.getD n MSlot.reset
def modSlot (s : State) (n : Nat) (f : MSlot → MSlot) : State := { s with slots := s.slots.set n (f (s.mslot n)) }
def med (s : State) (h : Nat) : MedRec := (s.hctx h).med
def modMed (s : State) (h : Nat) (f : MedRec → MedRec) : State := s.modHctx h (fun c => { c with med := f c.med })

/-- Where a mapping lies. -/
inductive MLoc where
  | slot (n : Nat)
  | cell (n : Nat)
  deriving DecidableEq, Repr

/-- The cell that holds a key in an overflow list, and the block it names. -/
def findCell (s : State) (k : MKey) : (fuel c : Nat) → Option (MLoc × Nat)
  | 0, _ => none
  | n + 1, c =>
      if c = 0 then none
      else match s.cells.get? c with
        | none => none
        | some e => if e.key = k then some (.cell c, e.blk) else findCell s k n e.next

/-- The eight primary slots of a key. -/
def slotsOf (k : MKey) : List Nat := (List.range 8).map (fun i => (k.hash + i) % Config.mapSlots)

/-- Find(K): the mapping's place and block (R386). -/
def findMap (s : State) (k : MKey) : Option (MLoc × Nat) :=
  match (slotsOf k).findSome? (fun n => match (s.mslot n).key with
      | some e => if e.1 = k then some (MLoc.slot n, e.2) else none
      | none => none) with
  | some r => some r
  | none => s.findCell k (s.cells.length + 1) (s.mslot k.hash).ovh

/-- The block a key maps to. -/
def mapped (s : State) (h seq l : Nat) : Option Nat := (s.findMap ⟨h, seq, l⟩).map (·.2)

/-- The lowest free overflow cell: cell 0 does not exist (R386, log entry 55). -/
def freeCell (s : State) : Option Nat :=
  ((List.range (s.cells.length + 1)).map (· + 1)).find? (fun c => c < Config.mapCells && (s.cells.get? c).isNone)

/-- Insert(K, b); nothing when there is no room (R386). -/
def insertMap (s : State) (k : MKey) (b : Nat) : Option State :=
  match (slotsOf k).find? (fun n => (s.mslot n).key.isNone) with
  | some n => some (s.modSlot n (fun e => { e with key := some (k, b) }))
  | none =>
      match s.freeCell with
      | none => none
      | some c =>
          let s := { s with cells := s.cells.set c ⟨k, b, (s.mslot k.hash).ovh⟩ }
          some (s.modSlot k.hash (fun e => { e with ovh := c }))

/-- Remove of a key's mapping (R386). -/
def removeMap (s : State) (k : MKey) : State :=
  match s.findMap k with
  | none => s
  | some (.slot n, _) => s.modSlot n (fun e => { e with key := none })
  | some (.cell c, _) =>
      let next := ((s.cells.get? c).map (·.next)).getD 0
      let s := { s with cells := (s.cells.erase c).map (fun (e : Nat × MCell) => if e.2.next = c then (e.1, { e.2 with next := next }) else e) }
      s.modSlot k.hash (fun e => if e.ovh = c then { e with ovh := next } else e)

/-- A mapping changed to name another block. -/
def remap (s : State) (k : MKey) (b : Nat) : State :=
  match s.findMap k with
  | some (.slot n, _) => s.modSlot n (fun e => { e with key := some (k, b) })
  | some (.cell c, _) => { s with cells := s.cells.map (fun e => if e.1 = c then (c, { e.2 with blk := b }) else e) }
  | none => s

/-- The blocks a sequence maps, from LBLK l up, `fuel` mappings at most. -/
def blocksFrom (s : State) (h seq : Nat) : (fuel l : Nat) → List Nat
  | 0, _ => []
  | n + 1, l =>
      match s.mapped h seq l with
      | some b => b :: blocksFrom s h seq n (l + 1)
      | none => []

/-- The blocks of a sequence, LBLK 0 first (R386). -/
def blocksOf (s : State) (h seq : Nat) : List Nat := s.blocksFrom h seq (s.slots.length + s.cells.length) 0

/-- The length of a sequence: the sum of FILL over its blocks (R386). -/
def seqLength (s : State) (h seq : Nat) : Nat := ((s.blocksOf h seq).map (fun b => (s.blk b).fill)).sum

/-! ### Blocks (R384, R385) -/

/-- A block from the head of a context's free list, retired ones passed over (R385). -/
def takeFrom (h : Nat) : (fuel : Nat) → State → Option (Nat × State)
  | 0, _ => none
  | n + 1, s =>
      let m := s.med h
      if m.nfree = 0 then none
      else
        let b := m.freehead
        let s := s.modMed h (fun m => { m with freehead := (s.blk b).next, nfree := m.nfree - 1 })
        if (s.blk b).st = .retired then takeFrom h n s
        else some (b, s.modBlk b (fun e => { e with st := .live, ref := 1, fill := 0, hc := h }))

def takeBlock (s : State) (h : Nat) : Option (Nat × State) := s.takeFrom h ((s.med h).nfree + 1)

/-- One reference of a block given up; with the last it returns to the head of the free list unless it is retired (R385). -/
def dropRef (s : State) (h b : Nat) : State :=
  let s := s.modBlk b (fun e => { e with ref := e.ref - 1 })
  if (s.blk b).ref = 0 ∧ (s.blk b).st ≠ .retired then
    let head := (s.med h).freehead
    (s.modBlk b (fun e => { e with st := .free, next := head })).modMed h
      (fun m => { m with freehead := b, nfree := m.nfree + 1 })
  else s

/-- One more reference of a block. -/
def addRef (s : State) (b : Nat) : State := s.modBlk b (fun e => { e with ref := e.ref + 1 })

/-- The pool class of a block's page in its context's arena. -/
def blockClass (s : State) (h b : Nat) : Nat :=
  let m := s.med h
  ((s.walk h ((m.arena.signExtend 72).toNat + 65536 * (b - m.base))).map (·.pclass)).getD 0

/-- n bytes copied from place to place at their homes by the home's copy engine, line by line with their poison (R380, R246). -/
def copyHome (s : State) (dclass src dst n : Nat) : State :=
  (chunksOf dst n).foldl (fun s c =>
    let from_ := src + (c.1 - dst)
    let bs := s.sysGet from_ c.2
    let bad := (chunksOf from_ c.2).any (fun x => s.homePoison (x.1 / 64))
    let s := if coherent (c.1 / 64) dclass then s.invalidateOthers 32 (c.1 / 64) else s
    s.homePut c.1 bs bad) s

/-- The lines of some bytes. -/
def linesOf (pa n : Nat) : List Nat := (chunksOf pa n).map (fun c => c.1 / 64)

/-- Whether every line of an extent is free at its home. -/
def linesFree (s : State) (pa n : Nat) : Bool := (linesOf pa n).all s.homeFree

/-- The lines of some that an act may not use yet: it takes its turns there (R13, R380). -/
def heldLines (s : State) (lines : List Nat) : List Nat := lines.filter (fun l => !s.homeFree l)

/-- A block copied to another for copy-on-write: the first n bytes, when the lines of both are free (R380). -/
def copyBlock (s : State) (h b b2 n : Nat) : Except TErr State :=
  match s.heldLines (linesOf (s.blk b).frame n ++ linesOf (s.blk b2).frame n) with
  | [] => .ok (s.copyHome (s.blockClass h b2) (s.blk b).frame (s.blk b2).frame n)
  | ls => .error (.hold ls)

/-- The virtual address of a byte of a block, as KV forms give it (R384, R387). -/
def blockVa (s : State) (h b off : Nat) : XWord :=
  (s.med h).arena + BitVec.ofNat 64 (65536 * (b - (s.med h).base) + off)

/-! ### The acts (R387 to R394) -/

/-- KVLOOK's act (R387). -/
def kvLook (s : State) (h : Nat) (key off : Nat) : Except TErr XWord :=
  match s.mapped h (key % 2 ^ 32) (key / 2 ^ 32) with
  | some b => .ok (s.blockVa h b (off % 65536))
  | none => .error (.code 1)

/-- Copy-on-write of a mapping: a fresh block takes the first `keep` tokens and counts `fill` of them (R388, R390). -/
def cow (s : State) (h seq l b keep fill : Nat) : Except TErr (Nat × State) :=
  match s.takeBlock h with
  | none => .error (.code 2)
  | some (b2, s) =>
      (s.copyBlock h b b2 (keep * (s.med h).sb)).map (fun s =>
        let s := s.modBlk b2 (fun e => { e with seq := BitVec.ofNat 32 seq, lblk := l, fill := fill })
        let s := s.modBlk b (fun e => { e with ref := e.ref - 1 })
        (b2, s.remap ⟨h, seq, l⟩ b2))

/-- KVAPP's act (R388). -/
def kvApp (s : State) (h : Nat) (key n : Nat) : Except TErr (XWord × State) :=
  let m := s.med h
  let seq := key % 2 ^ 32
  let l := key / 2 ^ 32
  if n = 0 ∨ m.tpb < n then .error (.code 10)
  else match s.mapped h seq l with
    | none =>
        let gap := l ≠ 0 ∧ (match s.mapped h seq (l - 1) with
          | some p => decide ((s.blk p).fill < m.tpb)
          | none => true) = true
        if gap then .error (.code 6)
        else if (s.mapped h seq (l + 1)).isSome then .error (.code 7)
        else match s.takeBlock h with
          | none => .error (.code 2)
          | some (b, s) =>
              match s.insertMap ⟨h, seq, l⟩ b with
              | none => .error (.code 3)
              | some s =>
                  let s := s.modBlk b (fun e => { e with seq := BitVec.ofNat 32 seq, lblk := l, fill := n })
                  .ok (s.blockVa h b 0, s)
    | some b =>
        let old := (s.blk b).fill
        if (s.mapped h seq (l + 1)).isSome then .error (.code 7)
        else if m.tpb < old + n then .error (.code 5)
        else if (s.blk b).ref = 1 then .ok (s.blockVa h b (old * m.sb), s.modBlk b (fun e => { e with fill := old + n }))
        else match s.cow h seq l b old (old + n) with
          | .error e => .error e
          | .ok (b2, s) => .ok (s.blockVa h b2 (old * m.sb), s)

/-- Blocks mapped into a sequence from LBLK 0 up, each with one more reference (R389, R393). -/
def mapAll (h seq : Nat) : (l : Nat) → List Nat → State → Option State
  | _, [], s => some s
  | l, b :: bs, s =>
      match s.insertMap ⟨h, seq, l⟩ b with
      | none => none
      | some s => mapAll h seq (l + 1) bs (s.addRef b)

/-- Blocks shared with a sequence that has no mapping: EXISTS, REFMAX and NOCELL in that order (R389, R393). -/
def share (s : State) (h seq : Nat) (bs : List Nat) : Except TErr State :=
  if (s.mapped h seq 0).isSome then .error (.code 7)
  else if bs.any (fun b => decide (65535 ≤ (s.blk b).ref)) then .error (.code 4)
  else match s.mapAll h seq 0 bs with
    | none => .error (.code 3)
    | some s => .ok s

/-- KVFORK's act (R389). -/
def kvFork (s : State) (h child : Nat) (w : Nat) : Except TErr (XWord × State) :=
  let n := w / 2 ^ 32 % 2 ^ 20
  let parent := w % 2 ^ 32
  let bs := (s.blocksOf h parent).take n
  if n = 0 then .error (.code 10)
  else if bs.length < n then .error (.code 1)
  else (s.share h child bs).map (fun s => (BitVec.ofNat 64 n, s))

/-- The mappings of a sequence from LBLK l up removed, highest first; how many there were (R390, R391). -/
def removeFrom (s : State) (h seq l : Nat) : Nat × State :=
  let bs := (s.blocksOf h seq).zipIdx.filter (fun e => l ≤ e.2)
  (bs.length, bs.reverse.foldl (fun s e => (s.removeMap ⟨h, seq, e.2⟩).dropRef h e.1) s)

/-- KVTRUNC's act: the cut of a sequence to c tokens (R390). -/
def kvTrunc (s : State) (h seq c : Nat) : Except TErr (Nat × State) :=
  let tpb := (s.med h).tpb
  let k := c / tpb
  let keep := c % tpb
  if s.seqLength h seq ≤ c then .ok (0, s)
  else
    let (n, s) := s.removeFrom h seq (if keep = 0 then k else k + 1)
    match (if keep = 0 then none else s.mapped h seq k) with
    | none => .ok (n, s)
    | some b =>
        if (s.blk b).fill ≤ keep then .ok (n, s)
        else if (s.blk b).ref = 1 then .ok (n, s.modBlk b (fun e => { e with fill := keep }))
        else (s.cow h seq k b keep keep).map (fun r => (n, r.2))

/-- The eight slots of a prefix hash (R392). -/
def pfxSlots (hash : BitVec 64) : List Nat := (List.range 8).map (fun i => (hash.toNat % 65536 + i) % 65536)

/-- The slot and entry of a prefix hash in a context (R392). -/
def findPfx (s : State) (h : Nat) (hash : BitVec 64) : Option (Nat × PfxEnt) :=
  (pfxSlots hash).findSome? (fun n => match s.pfx.get? n with
    | some e => if e.hc = h ∧ e.hash = hash then some (n, e) else none
    | none => none)

/-- PFXFIND's act (R393). -/
def pfxFind (s : State) (h : Nat) (hash : BitVec 64) (seq : Nat) : Except TErr (XWord × State) :=
  match s.findPfx h hash with
  | none => .error (.code 1)
  | some (_, e) => (s.share h seq e.blks).map (fun s => (BitVec.ofNat 64 e.ntok, s))

/-- A sequence's mappings moved to a spare sequence, their blocks and references kept (R394). -/
def moveAll (h seq z : Nat) : (l : Nat) → List Nat → State → Option State
  | _, [], s => some s
  | l, b :: bs, s =>
      match (s.removeMap ⟨h, seq, l⟩).insertMap ⟨h, z, l⟩ b with
      | none => none
      | some s => moveAll h seq z (l + 1) bs s

/-- PFXINS's act; a REF that cannot rise reports REFMAX (R383, R394, log entry 102). -/
def pfxIns (s : State) (h : Nat) (hash : BitVec 64) (w : Nat) : Except TErr (XWord × State) :=
  let seq := w % 2 ^ 32
  let z := w / 2 ^ 32
  let bs := s.blocksOf h seq
  let len := s.seqLength h seq
  if (s.mapped h z 0).isSome then .error (.code 7)
  else if bs.isEmpty then .error (.code 1)
  else if 24 < bs.length then .error (.code 10)
  else match s.findPfx h hash with
    | none =>
        match (pfxSlots hash).find? (fun n => (s.pfx.get? n).isNone) with
        | none => .error (.code 3)
        | some n =>
            if bs.any (fun b => decide (65535 ≤ (s.blk b).ref)) then .error (.code 4)
            else
              let s := bs.foldl addRef { s with pfx := s.pfx.set n ⟨hash, h, len, bs⟩ }
              .ok (BitVec.ofNat 64 len, s)
    | some (_, e) =>
        if e.ntok ≠ len then .error (.code 8)
        else if e.blks.any (fun b => decide (65535 ≤ (s.blk b).ref)) then .error (.code 4)
        else match (s.moveAll h seq z 0 bs).bind (mapAll h seq 0 e.blks) with
          | none => .error (.code 3)
          | some s => .ok (BitVec.ofNat 64 len ||| (1#64 <<< 62), s)

/-- A prefix entry removed: a reference given up on each block, last to first (R392). -/
def pfxRemove (s : State) (n : Nat) (e : PfxEnt) : State :=
  e.blks.reverse.foldl (fun s b => s.dropRef e.hc b) { s with pfx := s.pfx.erase n }

/-! ### Running an act (R379 to R382) -/

/-- Whether every write the strand issued before has performed at DEVICE: those of its accesses, of a GEMV that has not read its descriptor, of FLUSH and CHKIN, those withheld, and its pushes (R303, R381). -/
def tableReady (s : State) : Bool :=
  let k := s.meKey
  let sends (i : Instr) : Bool := match i with | .flush _ _ _ | .chkin _ _ => true | _ => false
  !(s.acts k).any (fun b => b.num != s.ctx.num && s.before b.num && writes b) && !s.gemvBefore &&
  !s.me.ops.any (fun o => s.before o.num && o.guard != some false && sends o.instr) &&
  s.me.withheld.all (fun w => !s.before w.num) && !s.pushes.any (fun p => strandKey p.core p.strand == k) &&
  !s.home.any (s.requestWaits false .device)

/-! ### The lines of the tables (R378, R381, log entry 94) -/

def slotLine (n : Nat) : Nat := (Config.mapBase + 16 * n) / 64
def cellLine (n : Nat) : Nat := (Config.cellBase + 16 * n) / 64
def blkLine (b : Nat) : Nat := (Config.blkBase + 32 * b) / 64
def medLine (h : Nat) : Nat := (Config.medBase + 32 * h) / 64
def pfxLines (n : Nat) : List Nat := [(Config.pfxBase + 128 * n) / 64, (Config.pfxBase + 128 * n) / 64 + 1]
def strmLines (sid : Nat) : List Nat := [(Config.strmBase + 128 * sid) / 64, (Config.strmBase + 128 * sid) / 64 + 1]

/-- The lines of the cells that the search of an overflow list reads. -/
def cellLines (s : State) (k : MKey) : (fuel c : Nat) → List Nat
  | 0, _ => []
  | n + 1, c =>
      if c = 0 then []
      else cellLine c :: (match s.cells.get? c with
        | none => []
        | some e => if e.key = k then [] else cellLines s k n e.next)

/-- The lines that Find(K) reads (R386). -/
def findLines (s : State) (k : MKey) : List Nat :=
  let hit (n : Nat) : Bool := match (s.mslot n).key with
    | some e => e.1 == k
    | none => false
  match (slotsOf k).findIdx? hit with
  | some i => ((slotsOf k).take (i + 1)).map slotLine
  | none => ((slotsOf k).map slotLine) ++ s.cellLines k (s.cells.length + 1) (s.mslot k.hash).ovh

/-- The lines that Insert(K, b) reads and writes (R386). -/
def insertLines (s : State) (k : MKey) : List Nat :=
  match (slotsOf k).findIdx? (fun n => (s.mslot n).key.isNone) with
  | some i => ((slotsOf k).take (i + 1)).map slotLine
  | none => ((slotsOf k).map slotLine) ++ s.freeCell.toList.map cellLine

/-- The lines of the searches for the first n mappings of a sequence from LBLK l up: those that are there, and the first that is not. -/
def searchLines (s : State) (h seq : Nat) : (n l : Nat) → List Nat
  | 0, _ => []
  | n + 1, l => s.findLines ⟨h, seq, l⟩ ++ (if (s.mapped h seq l).isSome then searchLines s h seq n (l + 1) else [])

/-- The lines read of a whole sequence from LBLK l up: those of its searches, and of its blocks. -/
def seqLines (s : State) (h seq l : Nat) : List Nat :=
  let n := s.slots.length + s.cells.length
  s.searchLines h seq (n + 1) l ++ (s.blocksFrom h seq n l).map blkLine

/-- The block entries that a block's taking from the free list reads: retired ones are passed over (R385). -/
def takeChain (s : State) : (fuel b : Nat) → List Nat
  | 0, _ => []
  | n + 1, b => blkLine b :: (if (s.blk b).st = .retired then takeChain s n (s.blk b).next else [])

/-- The lines that a block's taking from the free list reads and writes (R385). -/
def takeLines (s : State) (h : Nat) : List Nat := medLine h :: s.takeChain (s.med h).nfree (s.med h).freehead

/-- The lines of mappings entered from LBLK l up. -/
def mapLines (h seq : Nat) : (l : Nat) → List Nat → State → List Nat
  | _, [], _ => []
  | l, b :: bs, s =>
      s.insertLines ⟨h, seq, l⟩ ++ (match s.insertMap ⟨h, seq, l⟩ b with
        | none => []
        | some s => mapLines h seq (l + 1) bs s)

/-- The lines of mappings moved to a spare sequence from LBLK l up. -/
def moveLines (h seq z : Nat) : (l : Nat) → List Nat → State → List Nat
  | _, [], _ => []
  | l, b :: bs, s =>
      let s := s.removeMap ⟨h, seq, l⟩
      s.insertLines ⟨h, z, l⟩ ++ (match s.insertMap ⟨h, z, l⟩ b with
        | none => []
        | some s => moveLines h seq z (l + 1) bs s)

/-- The lines of blocks shared with a sequence (R389, R393). -/
def shareLines (s : State) (h seq : Nat) (bs : List Nat) : List Nat :=
  s.findLines ⟨h, seq, 0⟩ ++
  (if (s.mapped h seq 0).isSome then []
   else bs.map blkLine ++ (if bs.any (fun b => decide (65535 ≤ (s.blk b).ref)) then [] else mapLines h seq 0 bs s))

/-- The lines of KVLOOK's act (R387). -/
def lookLines (s : State) (h key : Nat) : List Nat :=
  s.findLines ⟨h, key % 2 ^ 32, key / 2 ^ 32⟩ ++ (if (s.mapped h (key % 2 ^ 32) (key / 2 ^ 32)).isSome then [medLine h] else [])

/-- The lines of KVAPP's act (R388). -/
def appLines (s : State) (h key n : Nat) : List Nat :=
  let m := s.med h
  let seq := key % 2 ^ 32
  let l := key / 2 ^ 32
  let past := s.findLines ⟨h, seq, l + 1⟩
  medLine h :: (if n = 0 ∨ m.tpb < n then []
  else s.findLines ⟨h, seq, l⟩ ++ (match s.mapped h seq l with
    | none =>
        let before := s.mapped h seq (l - 1)
        (if l = 0 then [] else s.findLines ⟨h, seq, l - 1⟩ ++ before.toList.map blkLine) ++
        (if l ≠ 0 ∧ before.all (fun p => decide ((s.blk p).fill < m.tpb)) then []
         else past ++ (if (s.mapped h seq (l + 1)).isSome then []
         else s.takeLines h ++ (match s.takeBlock h with
           | none => []
           | some (_, s) => s.insertLines ⟨h, seq, l⟩)))
    | some b =>
        blkLine b :: past ++
        (if (s.mapped h seq (l + 1)).isSome ∨ m.tpb < (s.blk b).fill + n ∨ (s.blk b).ref = 1 then [] else s.takeLines h)))

/-- The lines of KVFORK's act (R389). -/
def forkLines (s : State) (h child w : Nat) : List Nat :=
  let n := w / 2 ^ 32 % 2 ^ 20
  let parent := w % 2 ^ 32
  let bs := (s.blocksOf h parent).take n
  s.searchLines h parent (min n (bs.length + 1)) 0 ++ (if n = 0 ∨ bs.length < n then [] else s.shareLines h child bs)

/-- The lines of KVTRUNC's act (R390). -/
def truncLines (s : State) (h seq c : Nat) : List Nat :=
  let tpb := (s.med h).tpb
  let k := c / tpb
  let keep := c % tpb
  medLine h :: s.seqLines h seq 0 ++
  (if s.seqLength h seq ≤ c ∨ keep = 0 then []
   else
    let s := (s.removeFrom h seq (k + 1)).2
    match s.mapped h seq k with
    | none => []
    | some b => if (s.blk b).fill ≤ keep ∨ (s.blk b).ref = 1 then [] else s.takeLines h)

/-- The lines of KVFREE's act: the context record where a block returns to the free list (R391). -/
def releaseLines (s : State) (h seq l : Nat) : List Nat :=
  s.seqLines h seq l ++
  (if (s.blocksFrom h seq (s.slots.length + s.cells.length) l).any (fun b => (s.blk b).ref == 1 && (s.blk b).st != .retired) then [medLine h]
   else [])

/-- The lines of a prefix hash's slots up to the one that holds it (R392). -/
def hashLines (s : State) (h : Nat) (hash : BitVec 64) : List Nat :=
  match s.findPfx h hash with
  | some (n, _) => ((pfxSlots hash).takeWhile (· != n) ++ [n]).flatMap pfxLines
  | none => (pfxSlots hash).flatMap pfxLines

/-- The lines of PFXFIND's act (R393). -/
def pfxFindLines (s : State) (h : Nat) (hash : BitVec 64) (seq : Nat) : List Nat :=
  s.hashLines h hash ++ (match s.findPfx h hash with
    | none => []
    | some (_, e) => s.shareLines h seq e.blks)

/-- The lines of PFXINS's act (R394). -/
def pfxInsLines (s : State) (h : Nat) (hash : BitVec 64) (w : Nat) : List Nat :=
  let seq := w % 2 ^ 32
  let z := w / 2 ^ 32
  let bs := s.blocksOf h seq
  s.findLines ⟨h, z, 0⟩ ++
  (if (s.mapped h z 0).isSome then []
   else if 24 < bs.length then s.searchLines h seq 25 0
   else s.seqLines h seq 0 ++ (if bs.isEmpty then []
   else s.hashLines h hash ++ (match s.findPfx h hash with
    | none => []
    | some (_, e) =>
        if e.ntok ≠ s.seqLength h seq then []
        else e.blks.map blkLine ++ (if e.blks.any (fun b => decide (65535 ≤ (s.blk b).ref)) then []
        else moveLines h seq z 0 bs s ++ (match s.moveAll h seq z 0 bs with
          | none => []
          | some s => mapLines h seq 0 e.blks s)))))

/-- The table lines that a form's act reads and writes, but those of a stream's cut and of a batch row's stream, which the act comes to (R380, R381). -/
def tableLines (s : State) (i : Instr) : List Nat :=
  let h := s.hcid
  match i with
  | .kvlook _ _ x _ => s.lookLines h (s.rdX x).toNat
  | .kvapp _ _ x t => s.appLines h (s.rdX x).toNat (s.rdX t).toNat
  | .kvfork _ _ x t => s.forkLines h (s.rdX x).toNat (s.rdX t).toNat
  | .kvtrunc _ _ x t => s.truncLines h (s.rdX x).toNat (s.rdX t).toNat
  | .kvfree _ x t => s.releaseLines h (s.rdX x).toNat ((s.rdX t).toNat % 2 ^ 20)
  | .pfxfind _ _ x t => s.pfxFindLines h (s.rdX x) (s.rdX t).toNat
  | .pfxins _ _ x t => s.pfxInsLines h (s.rdX x) (s.rdX t).toNat
  | .scommit _ _ x _ => strmLines ((s.rdX x).toNat % 4096)
  | .strunc _ _ x _ => strmLines (s.rdX x).toNat
  | .sframe _ _ _ t => strmLines ((s.rdX t).toNat % 4096)
  | _ => []

/-- Table lines that an act comes to use: it waits for its turns at those that are not free, and consumes a poisoned one, which no virtual address names (R247, R380, R381, R436). -/
def onLines (s : State) (lines : List Nat) : Except TErr Unit :=
  match s.heldLines lines with
  | [] => if lines.any s.homePoison then .error (.poison 0) else .ok ()
  | ls => .error (.hold ls)

/-- A failed act's result word (R382). -/
def failWord (n : Nat) : XWord := BitVec.ofNat 64 (2 ^ 63 + n)

/-- An act of the operation being performed: it sees the lines where its turn has come as its own; where it comes to others that are not free it takes its turns there, changes nothing and is tried again; at its end, and while it waits for something else, it has none (R13, R380 to R382). -/
def actTurn (fail : Nat → State → State) (act : State → Except TErr State) (s : State) : State :=
  let o := s.myTurn
  let own := s.turnLines o
  match act (s.asMine o own) with
  | .ok t => giveBack o own s t
  | .error (.code n) => fail n (giveUp o s)
  | .error (.fault code va) => s.holdFault code va
  | .error (.poison va) => (giveUp o s).consume va
  | .error (.hold []) => (giveUp o s).wait
  | .error (.hold ls) => (joinLines o (own ++ ls) s).wait

/-- A failed act's code in xD. -/
def failIn (d : XReg) (n : Nat) (s : State) : State := s.wrX d (failWord n)

/-- A table form at its queue head: once the strand's writes have performed, its act on its lines (R379 to R382). -/
def tableAct (i : Instr) (fail : Nat → State → State) (act : State → Except TErr State) (s : State) : State :=
  if !s.tableReady then s.wait
  else s.actTurn fail (fun s => (s.onLines (s.tableLines i)).bind (fun _ => act s))

/-- A table form whose act gives the word of xD. -/
def tableOp (i : Instr) (d : XReg) (act : State → Except TErr (XWord × State)) : State → State :=
  tableAct i (failIn d) (fun s => (act s).map (fun r => r.2.wrX d r.1))

end State

/-! ### Meanings -/

/-- KVLOOK (R387). -/
def execKvlook (g : Guard) (d x t : XReg) (s : State) : Host.Outcome State Fault Refusal :=
  s.slotOp (.kvlook g d x t) g (State.tableOp (.kvlook g d x t) d (fun s =>
    (s.kvLook s.hcid (s.rdX x).toNat (s.rdX t).toNat).map (fun v => (v, s))))

/-- KVAPP (R388). -/
def execKvapp (g : Guard) (d x t : XReg) (s : State) : Host.Outcome State Fault Refusal :=
  s.slotOp (.kvapp g d x t) g (State.tableOp (.kvapp g d x t) d (fun s => s.kvApp s.hcid (s.rdX x).toNat (s.rdX t).toNat))

/-- KVFORK (R389). -/
def execKvfork (g : Guard) (d x t : XReg) (s : State) : Host.Outcome State Fault Refusal :=
  s.slotOp (.kvfork g d x t) g (State.tableOp (.kvfork g d x t) d (fun s => s.kvFork s.hcid (s.rdX x).toNat (s.rdX t).toNat))

/-- KVTRUNC (R390). -/
def execKvtrunc (g : Guard) (d x t : XReg) (s : State) : Host.Outcome State Fault Refusal :=
  s.slotOp (.kvtrunc g d x t) g (State.tableOp (.kvtrunc g d x t) d (fun s =>
    (s.kvTrunc s.hcid (s.rdX x).toNat (s.rdX t).toNat).map (fun r => (BitVec.ofNat 64 r.1, r.2))))

/-- KVFREE (R391). -/
def execKvfree (g : Guard) (x t : XReg) (s : State) : Host.Outcome State Fault Refusal :=
  s.slotOp (.kvfree g x t) g (State.tableAct (.kvfree g x t) (fun _ s => s) (fun s =>
    .ok (s.removeFrom s.hcid (s.rdX x).toNat ((s.rdX t).toNat % 2 ^ 20)).2))

/-- PFXFIND (R393). -/
def execPfxfind (g : Guard) (d x t : XReg) (s : State) : Host.Outcome State Fault Refusal :=
  s.slotOp (.pfxfind g d x t) g (State.tableOp (.pfxfind g d x t) d (fun s => s.pfxFind s.hcid (s.rdX x) (s.rdX t).toNat))

/-- PFXINS (R394). -/
def execPfxins (g : Guard) (d x t : XReg) (s : State) : Host.Outcome State Fault Refusal :=
  s.slotOp (.pfxins g d x t) g (State.tableOp (.pfxins g d x t) d (fun s => s.pfxIns s.hcid (s.rdX x) (s.rdX t).toNat))

end Sys2Proof.Machine
end

