-- ==== Sys2Proof/Machine/Streams.lean ====
section
/-! DEFINITION. The stream forms, the batch table and Oboe: SCOMMIT, STRUNC, SFRAME, BTSNAP, OBSEL (spec 14 R395 to R408). -/

namespace Sys2Proof.Machine

/-- A stream entry that the host has not written (R395). -/
def StreamE.reset : StreamE :=
  { stva := 0, snva := 0, fva := 0, dva := 0, seq := 0, g := 0, p := 0, iend := 0, sbase := 0, fhead := 0, dtail := 0, pend := 0
    prev := 0, epoch := 0, snb := 0, flog := 0, dlog := 0, prevv := false, held := false, barge := false, holdev := false
    hc := 0, valid := false }

/-- Room for r delivery entries (R397). -/
def StreamE.room (e : StreamE) (dhead : Word32) (r : Nat) : Bool := decide ((e.dtail - dhead).toNat ≤ 2 ^ e.dlog - r)

/-- The lowest retained cut: max(SBASE, G − 64, IEND) (R398). -/
def StreamE.lowest (e : StreamE) : Nat := max e.sbase.toNat (max (e.g.toNat - 64) e.iend.toNat)

/-- Whether a generated token runs at most 64 past playback (R397). -/
def StreamE.near (e : StreamE) : Bool := decide (e.g.toNat - max e.p.toNat e.iend.toNat < 64)

/-- Whether a commit of a generated token is allowed (R397). -/
def StreamE.allows (e : StreamE) (dhead : Word32) : Bool := !e.prevv && e.room dhead 2 && e.near

/-- The reason of a HELD event (R403). -/
def StreamE.reason (e : StreamE) (dhead : Word32) : Nat := if !e.room dhead 2 then 1 else if !e.near then 2 else 3

/-- An offset from an address. -/
def off72 (a : AWord) (n : Nat) : Nat := (a.toNat + n) % 2 ^ 72

/-- The tokens a frame holds; NTOK outside 1 to 14 is none (R396). -/
def frameTokens (f : Nat) : List Nat :=
  let n := bitsAt f 32 8
  if 1 ≤ n ∧ n ≤ 14 then (List.range n).map (fun i => bitsAt f (64 + 32 * i) 32) else []

namespace State

def strm (s : State) (sid : Nat) : StreamE := s.streams.getD sid StreamE.reset
def modStrm (s : State) (sid : Nat) (f : StreamE → StreamE) : State := { s with streams := s.streams.set sid (f (s.strm sid)) }

/-! ### Context memory as an act reaches it (R380, R381) -/

/-- Where an extent of a context's memory lies: place, bytes and class by page, or the fault of its first failing page. -/
def actPlaces (s : State) (h va n : Nat) (u : Use) : Except TErr (List (Nat × Nat × Nat)) :=
  (pagesOf va n).mapM (fun c => match s.walk h c.1 with
    | none => .error (.fault 1 c.1)
    | some e => match leafFault e (leafPa e c.1) u with
      | some code => .error (.fault code c.1)
      | none => .ok (leafPa e c.1, c.2, e.pclass))

/-- The lines of some places that are not free at their homes (R380). -/
def placesHeld (s : State) (ps : List (Nat × Nat × Nat)) : List Nat := s.heldLines (ps.flatMap (fun p => linesOf p.1 p.2.1))

/-- Whether some line of some places is poisoned. -/
def placesBad (s : State) (ps : List (Nat × Nat × Nat)) : Bool :=
  ps.any (fun p => (chunksOf p.1 p.2.1).any (fun c => s.homePoison (c.1 / 64)))

/-- A number an act reads (R380, R381). -/
def actRead (s : State) (h va n : Nat) : Except TErr Nat :=
  (s.actPlaces h va n .read).bind (fun ps => match s.placesHeld ps with
    | [] => if s.placesBad ps then .error (.poison va) else .ok (leNat (ps.flatMap (fun p => s.sysGet p.1 p.2.1)))
    | ls => .error (.hold ls))

/-- n low bytes of a number written by an act (R380, R381). -/
def actWrite (s : State) (h va n v : Nat) : Except TErr State :=
  (s.actPlaces h va n .write).bind (fun ps => match s.placesHeld ps with
    | [] => .ok (ps.foldl (fun (a : State × List Byte) p => (a.1.sysPut p.1 p.2.2 (a.2.take p.2.1), a.2.drop p.2.1)) (s, leBytes n v)).1
    | ls => .error (.hold ls))

/-- A snapshot copied or restored by the home's copy engine, line by line, with poison (R246, R380, R398, R399). -/
def snapCopy (h src dst n : Nat) (s : State) : Except TErr State :=
  (chunksOf dst n).foldlM (fun s c =>
    (s.actPlaces h (src + (c.1 - dst)) c.2 .read).bind (fun ps =>
      (s.actPlaces h c.1 c.2 .write).bind (fun qs => match s.placesHeld (ps ++ qs) with
        | [] =>
            let bs := ps.flatMap (fun p => s.sysGet p.1 p.2.1)
            let bad := s.placesBad ps
            .ok (qs.foldl (fun s q =>
              let s := if coherent (q.1 / 64) q.2.2 then s.invalidateOthers 32 (q.1 / 64) else s
              s.homePut q.1 bs bad) s)
        | ls => .error (.hold ls)))) s

/-! ### Delivery entries (R396, R397) -/

/-- DHEAD of a stream (R396). -/
def dheadOf (s : State) (h sid : Nat) : Except TErr Word32 :=
  (s.actRead h (off72 (s.strm sid).dva 72) 4).map (BitVec.ofNat 32)

/-- A delivery entry written at DTAIL, then the DTAIL copy (R396). -/
def putEntry (h sid pos token epoch kind : Nat) (s : State) : Except TErr State :=
  let e := s.strm sid
  let v := packBits [(pos, 32), (token, 32), (epoch, 16), (0, 40), (kind, 8)]
  (s.actWrite h (off72 e.dva (128 + 16 * (e.dtail.toNat % 2 ^ e.dlog))) 16 v).bind (fun s =>
    let s := s.modStrm sid (fun e => { e with dtail := e.dtail + 1 })
    s.actWrite h (off72 e.dva 0) 4 (e.dtail + 1).toNat)

/-- The two steps every stream act begins with: the acknowledgement, and a revocation that has waited (R397). -/
def streamBegin (h sid : Nat) (s : State) : Except TErr State :=
  let e := s.strm sid
  (s.actRead h (off72 e.dva 64) 8).bind (fun ack =>
    (s.dheadOf h sid).bind (fun dh =>
      let s := if bitsAt ack 32 16 = e.epoch.toNat then
          s.modStrm sid (fun e => { e with p := BitVec.ofNat 32 (max e.p.toNat (min (ack % 2 ^ 32) e.g.toNat)) })
        else s
      if e.prevv && e.room dh 1 then
        (s.putEntry h sid e.prev.toNat 0 e.epoch.toNat 2).map (fun s => s.modStrm sid (fun e => { e with prevv := false }))
      else .ok s))

/-! ### Commits and cuts (R398, R399) -/

/-- A commit of a token (R398). -/
def commit (h sid token : Nat) (input : Bool) (s : State) : Except TErr State :=
  let e := s.strm sid
  let n := 64 * e.snb
  (snapCopy h e.stva.toNat (off72 e.snva (e.g.toNat % 64 * n)) n s).bind (fun s =>
    (if input then .ok (s.modStrm sid (fun e => { e with iend := e.g + 1 }))
     else s.putEntry h sid e.g.toNat token e.epoch.toNat 1).map (fun s =>
      s.modStrm sid (fun e => { e with g := e.g + 1 })))

/-- HELD cleared, with the context's count (R428). -/
def unhold (h sid : Nat) (s : State) : State :=
  let s := if (s.strm sid).held then s.modHctx h (fun c => { c with held := c.held - 1 }) else s
  s.modStrm sid (fun e => { e with held := false })

/-- The Medlar trim of a cut, on the table lines it comes to; the context's record tells whether it has an arena (R380, R399). -/
def trim (h seq c : Nat) (s : State) : Except TErr State :=
  if (s.med h).count = 0 then (s.onLines [medLine h]).map (fun _ => s)
  else (s.onLines (s.truncLines h seq c)).bind (fun _ => (s.kvTrunc h seq c).map (·.2))

/-- A cut to position c: the Medlar trim, the state restored, the held token discarded, and the revocation of what lay above (R399). -/
def cut (h sid c : Nat) (s : State) : Except TErr State :=
  let e := s.strm sid
  (trim h e.seq.toNat c s).bind (fun s =>
    let below := decide (c < e.g.toNat)
    let n := 64 * e.snb
    (if below then snapCopy h (off72 e.snva (c % 64 * n)) e.stva.toNat n s else .ok s).bind (fun s =>
      let s := s.unhold h sid
      let s := s.modStrm sid (fun e => { e with pend := 0 })
      let s := if below then
          s.modStrm sid (fun e => { e with epoch := e.epoch + 1, p := BitVec.ofNat 32 (min e.p.toNat c) })
        else s
      (if below then
        (s.dheadOf h sid).bind (fun dh =>
          if (s.strm sid).room dh 1 then s.putEntry h sid c 0 (s.strm sid).epoch.toNat 2
          else .ok (s.modStrm sid (fun e =>
            { e with prev := if e.prevv then BitVec.ofNat 32 (min e.prev.toNat c) else BitVec.ofNat 32 c, prevv := true })))
       else .ok s).map (fun s => s.modStrm sid (fun e => { e with g := BitVec.ofNat 32 c }))))

/-! ### The acts (R400 to R402) -/

/-- An act on a stream entry: CLOSED when the entry is no longer open for the context (R383). -/
def onStream (h sid : Nat) (act : State → Except TErr (XWord × State)) (s : State) : Except TErr (XWord × State) :=
  if s.streamOpen h sid then act s else .error (.code 12)

/-- SCOMMIT's act (R400). -/
def scommitAct (h w token : Nat) (s : State) : Except TErr (XWord × State) :=
  let sid := w % 4096
  let input := w.testBit 12
  onStream h sid (fun s =>
    (streamBegin h sid s).bind (fun s =>
      let e := s.strm sid
      if e.held then .error (.code 9)
      else (s.dheadOf h sid).bind (fun dh =>
        if !input && !e.allows dh then
          let s := (s.modStrm sid (fun e => { e with pend := BitVec.ofNat 32 token, held := true })).modHctx h
            (fun c => { c with held := c.held + 1 })
          let s := if e.holdev then
              s.postEvent h 3 (BitVec.ofNat 64 (e.g.toNat + e.reason dh * 2 ^ 32)) 0 0 (some sid)
            else s
          .ok (BitVec.ofNat 64 (e.g.toNat + 2 ^ 62), s)
        else (commit h sid token input s).map (fun s => (BitVec.ofNat 64 e.g.toNat, s))))) s

/-- STRUNC's act (R401). -/
def struncAct (h sid c : Nat) (s : State) : Except TErr (XWord × State) :=
  onStream h sid (fun s =>
    (streamBegin h sid s).bind (fun s =>
      let e := s.strm sid
      if e.g.toNat < c then .error (.code 10)
      else if c < e.lowest then .error (.code 11)
      else (cut h sid c s).map (fun s => (BitVec.ofNat 64 c, s)))) s

/-- The cut that the first frame of an SFRAME makes in a stream of policy BARGE (R402). -/
def bargeCut (h sid stamp : Nat) (s : State) : Except TErr State :=
  let e := s.strm sid
  let at_ := max stamp e.iend.toNat
  let s := if at_ < e.lowest then
      s.postEvent h 2 (BitVec.ofNat 64 (stamp + e.lowest * 2 ^ 32)) 0 0 (some sid)
    else s
  let at_ := max at_ e.lowest
  if at_ < e.g.toNat then cut h sid at_ s else .ok s

/-- The frames an SFRAME takes, from frame f up, at most `fuel` of them: the frames taken, the tokens and the state (R402). -/
def takeFrames (h sid maxt : Nat) (first : Word32) : (fuel : Nat) → (f : Word32) → List Nat → State → Except TErr (Word32 × List Nat × State)
  | 0, f, ts, s => .ok (f, ts, s)
  | k + 1, f, ts, s =>
      let e := s.strm sid
      (s.actRead h (off72 e.fva (128 + 64 * (f.toNat % 2 ^ e.flog))) 64).bind (fun fr =>
        let new := frameTokens fr
        if maxt < ts.length + new.length then .ok (f, ts, s)
        else (if f = first ∧ e.barge then bargeCut h sid (fr % 2 ^ 32) s else .ok s).bind (fun s =>
          takeFrames h sid maxt first k (f + 1) (ts ++ new) s))

/-- SFRAME's act: the tokens taken and the state with FHEAD and its copy advanced (R402, log entry 64). -/
def sframeAct (h w : Nat) (s : State) : Except TErr (List Nat × State) :=
  let sid := bitsAt w 0 12
  let fvis := BitVec.ofNat 32 (bitsAt w 16 32)
  let maxt := bitsAt w 48 16
  if !s.streamOpen h sid then .error (.code 12)
  else if maxt < 14 then .error (.code 10)
  else if (s.strm sid).held then .error (.code 9)
  else (streamBegin h sid s).bind (fun s =>
    let e := s.strm sid
    (s.actRead h (off72 e.fva 0) 4).bind (fun ft =>
      let f := e.fhead
      (takeFrames h sid maxt f (min (fvis - f).toNat (BitVec.ofNat 32 ft - f).toNat) f [] s).bind (fun r =>
        (((r.2.2).modStrm sid (fun e => { e with fhead := r.1 })).actWrite h (off72 e.fva 64) 4 r.1.toNat).map (fun s =>
          (r.2.1, s)))))

/-- A result of an act stored to a buffer of the strand; the act has not run when the store must wait or ends another way. -/
def actStore (va : Nat) (bs : List Byte) (done : State → State) (s : State) : Except TErr State :=
  match store none va bs s with
  | .ok _ s => .ok (done s)
  | .stop _ => .error (.hold [])

/-- The pages of a buffer translated before an act runs (R381). -/
def bufferPages (va n : Nat) (s : State) : Acc Unit :=
  match spotOf s.ctx.core va with
  | .trans => (translate holdFault .write va n s).bind (fun _ s => .ok () s)
  | _ => .ok () s

/-- SFRAME at its queue head (R402). -/
def sframeOp (d : XReg) (a : AReg) (t : XReg) (s : State) : State :=
  let w := (s.rdX t).toNat
  let va := s.ea a 0
  if !s.tableReady then s.wait
  else (bufferPages va (4 * bitsAt w 48 16) s).run (fun _ s =>
    tableAct (.sframe Guard.always d a t) (failIn d) (fun s =>
      (sframeAct s.hcid w s).bind (fun r => actStore va (r.1.flatMap (leBytes 4)) (fun s =>
        s.wrX d (BitVec.ofNat 64 (r.1.length + (s.strm (bitsAt w 0 12)).g.toNat * 2 ^ 32))) r.2)) s)

/-! ### BTSNAP (R404 to R406) -/

/-- The published copy of a batch row (R404). -/
def rowCopy (line : Nat) : Nat := if line.testBit 0 then bitsAt line 288 224 else bitsAt line 64 224

/-- One row's act: its record, when its stream goes into the iteration, and its draft length (R406). -/
def rowAct (h r : Nat) (s : State) : Except TErr (Option (Nat × Nat) × State) :=
  (s.actRead h ((s.hctx h).btva.toNat + 64 * r) 64).bind (fun line =>
    let c := rowCopy line
    let sid := bitsAt c 0 12
    if !c.testBit 31 then .ok (none, s)
    else (s.onLines (strmLines sid)).bind (fun _ =>
      if !s.streamOpen h sid then .ok (none, s)
      else (streamBegin h sid s).bind (fun s =>
        (s.dheadOf h sid).bind (fun dh =>
          let e := s.strm sid
          (if e.held && e.allows dh then (commit h sid e.pend.toNat false s).map (unhold h sid) else .ok s).bind (fun s =>
            let e := s.strm sid
            if e.held then .ok (none, s)
            else (s.actRead h (off72 e.fva 0) 4).map (fun ft =>
              (some (packBits [(bitsAt c 32 192, 192), (e.p.toNat, 32), (e.g.toNat, 32), (ft, 32), (0, 1), (bitsAt c 24 7, 7),
                (r, 12), (sid, 12)], bitsAt c 24 7), s)))))))

/-- OCC and DRAFT written and their pending bit cleared (R379, R406). -/
def wrOcc (s : State) (occ draft : Nat) : State :=
  s.modMe (fun t => { t with
    front := { t.front with occ := BitVec.ofNat 13 occ, draft := BitVec.ofNat 7 draft }, pend := { t.pend with occ := false } })

/-- How far a BTSNAP has come: the rows whose acts have run and the records it has written (R380). -/
def snapDone (s : State) : Nat × List Byte :=
  match s.me.ops.find? (fun o => o.num == s.ctx.num) with
  | some o => (o.acts, o.got.getD [])
  | none => (0, [])

/-- The largest DRAFT of some records, and 0 of none (R405, R406). -/
def draftMax : (fuel : Nat) → List Byte → Nat
  | 0, _ => 0
  | n + 1, bs => max (bitsAt (leNat (bs.take 48)) 24 7) (draftMax n (bs.drop 48))

/-- One row of a BTSNAP: its act, and its record written behind those before it, then what goes on with the bytes of the records so far (R406). -/
def snapRow (va r : Nat) (recs : List Byte) (done : List Byte → State → State) : State → State :=
  actTurn (fun _ s => s) (fun s => (rowAct s.hcid r s).bind (fun e => match e.1 with
    | none => .ok (done recs e.2)
    | some (rec_, _) => actStore (va + recs.length) (leBytes 48 rec_) (done (recs ++ leBytes 48 rec_)) e.2))

/-- The end of a BTSNAP: OCC counts its records and DRAFT is their largest draft length (R406). -/
def snapEnd (recs : List Byte) (s : State) : State := s.wrOcc (recs.length / 48) (draftMax (recs.length / 48) recs)

/-- The rows of a BTSNAP that is no queued operation, from row r up, one act each. -/
def snapAll (va nr : Nat) : (fuel r : Nat) → List Byte → State → State
  | 0, _, recs, s => snapEnd recs s
  | n + 1, r, recs, s =>
      if nr ≤ r then snapEnd recs s
      else snapRow va r recs (fun recs s => snapAll va nr n (r + 1) recs s) s

/-- A queued BTSNAP's note of one act more. -/
def noteRow (recs : List Byte) (s : State) : State :=
  (s.modMe (fun t => { t with
    ops := t.ops.map (fun o => if o.num = s.ctx.num then { o with acts := o.acts + 1, got := some recs } else o) })).wait

/-- BTSNAP at its queue head: the act of its next row, or its end; a queued BTSNAP keeps its head between the acts, so that other agents' writes fall between them (R380, R406). -/
def btsnapOp (a : AReg) (t : XReg) (s : State) : State :=
  let nr := (s.rdX t).toNat
  let va := s.ea a 0
  if !s.tableReady then s.wait
  else (bufferPages va (48 * nr) s).run (fun _ s =>
    let (r, recs) := s.snapDone
    if s.ctx.num = 0 then snapAll va nr nr 0 [] s
    else if nr ≤ r then snapEnd recs s
    else snapRow va r recs noteRow s)

/-- OBSEL at its queue head: the entry of the bucket chosen for the OCC and DRAFT read at issue (R408). -/
def obselOp (d : BReg) (s : State) : State :=
  if !s.tableReady then s.wait
  else match s.bucketFor with
    | some b => s.wrB d b.entry
    | none => s.violate

end State

/-! ### Meanings -/

/-- STRUNC (R401). -/
def execStrunc (g : Guard) (d x t : XReg) (s : State) : Host.Outcome State Fault Refusal :=
  s.slotOp (.strunc g d x t) g (State.tableOp (.strunc g d x t) d (fun s => State.struncAct s.hcid (s.rdX x).toNat (s.rdX t).toNat s))

/-- SCOMMIT (R400). -/
def execScommit (g : Guard) (d x t : XReg) (s : State) : Host.Outcome State Fault Refusal :=
  s.slotOp (.scommit g d x t) g (State.tableOp (.scommit g d x t) d (fun s => State.scommitAct s.hcid (s.rdX x).toNat (s.rdX t).toNat s))

/-- SFRAME (R402). -/
def execSframe (g : Guard) (d : XReg) (a : AReg) (t : XReg) (s : State) : Host.Outcome State Fault Refusal :=
  s.slotOp (.sframe g d a t) g (State.sframeOp d a t)

/-- BTSNAP (R406). -/
def execBtsnap (g : Guard) (a : AReg) (t : XReg) (s : State) : Host.Outcome State Fault Refusal :=
  s.slotOp (.btsnap g a t) g (State.btsnapOp a t)

/-- OBSEL (R408). -/
def execObsel (g : Guard) (d : BReg) (s : State) : Host.Outcome State Fault Refusal :=
  s.slotOp (.obsel g d) g (State.obselOp d)

end Sys2Proof.Machine
end

