-- ==== Sys2Proof/Machine/Counter.lean ====
section
/-! DEFINITION. The counter forms of slot Q, which execute at issue: STAGE, TOKCLR, BAR, LNSCFG, LNSRUN, LNSBRK, SEQLEN, CNTRD, CNTCLR (spec 15). -/

namespace Sys2Proof.Machine

namespace State

/-- One level of the strand being acted for changed. -/
def modLevel (s : State) (k : Nat) (f : Level → Level) : State :=
  s.modMe (fun t => { t with levels := Vector.ofFn (fun i : Fin 6 => if i.val = k then f t.levels[i] else t.levels[i]) })

/-- STAGE: SCNT advances, at most to 65,535; the copy schedule's entries test it from the next cycle (R292, R414). -/
def stageOp (x : XReg) (s : State) : State :=
  let n := (s.rdX x).toNat % 65536
  s.modMe (fun t => { t with front := { t.front with scnt := BitVec.ofNat 16 (min (t.front.scnt.toNat + n) 65535) } })

/-- TOKCLR (R413). -/
def tokclrOp (x : XReg) (s : State) : State :=
  let w := s.rdX x
  s.modMe (fun t => { t with tokens := Vector.ofFn (fun i : Fin 8 => if w.getLsbD i.val then Token.reset else t.tokens[i]) })

/-- BAR (R416). -/
def barOp (x : XReg) (s : State) : State := s.arrive ((s.rdX x).toNat % 16)

/-- LNSCFG (R420). -/
def lnscfgOp (x t : XReg) (s : State) : State :=
  let w := (s.rdX x).toNat
  let v := s.rdX t
  let item := w / 8 % 16
  s.modLevel (w % 8) (fun l =>
    if item = 0 then { l with ctl := v }
    else { l with strides := Vector.ofFn (fun i : Fin 8 => if i.val + 1 = item then v else l.strides[i]) })

/-- The trip count of a level's next run (R421). -/
def tripOf (s : State) (l : Level) : Nat :=
  if ctlSrc l.ctl then (s.front.seqlen.toNat + 2 ^ ctlDiv l.ctl - 1) / 2 ^ ctlDiv l.ctl else ctlTrip l.ctl

/-- LNSRUN: the level runs its body, or with no trip the body is skipped (R421). -/
def lnsrunOp (x : XReg) (s : State) : State :=
  let k := (s.rdX x).toNat % 8
  let (st, en) := s.lnsBody k
  let n := s.tripOf (level s.me k)
  if n = 0 then
    let next := seqNext s.stream en
    s.modMe (fun t => { t with pc := next })
  else s.modLevel k (fun l => { l with run := true, brk := false, iter := 0, trip := BitVec.ofNat 20 n, first := st, last := en })

/-- LNSBRK (R423). -/
def lnsbrkOp (s : State) : State :=
  match innermost s.me with
  | some k => s.modLevel k (fun l => { l with brk := true })
  | none => s

/-- SEQLEN (R424). -/
def seqlenOp (x : XReg) (s : State) : State :=
  let w := s.rdX x
  s.modMe (fun t => { t with front := { t.front with seqlen := w.setWidth 20 } })

/-- The strand performance counter of an offset from id 0x40 (R427, R432). -/
def perfAt (p : Perf) (i : Nat) : BitVec 64 :=
  match i with
  | 0 => p.issued
  | 1 => p.swout
  | 2 => p.froze
  | 8 => p.shortl
  | _ => p.late.toList.getD (i - 3) 0

/-- The counter an id names (R432). -/
def counterAt (s : State) (i : Nat) : XWord :=
  let t := s.me
  let c := s.core s.ctx.core
  if i < 0x10 then
    let k := t.tokens.toList.getD i Token.reset
    BitVec.ofNat 64 (k.bytes.toNat * 2 ^ 32 + tokByte k.st)
  else if i < 0x20 then
    let l := level t (i - 0x10)
    BitVec.ofNat 64 ((if l.run then 2 ^ 63 else 0) + (if l.brk then 2 ^ 62 else 0) + l.trip.toNat * 2 ^ 40 + l.iter.toNat)
  else if i < 0x30 then
    let b := ((s.launchOf s.meKey).map (fun l => barOf l (i - 0x20))).getD (0, 0)
    BitVec.ofNat 64 (b.1 % 64 * 65536 + b.2 % 65536)
  else if i = 0x30 then t.segcnt.setWidth 64
  else if i < 0x60 then perfAt t.perf (i - 0x40)
  else if i = 0x60 then c.cycle
  else if i = 0x61 then c.swcyc
  else if i = 0x62 then c.frzcyc
  else if i = 0x63 then c.bubcyc
  else if i = 0x64 then c.idlecyc
  else if i = 0x70 then (s.cluster (clusterOf s.ctx.core)).seccnt
  else if i = 0x80 then BitVec.ofNat 64 (s.hctx s.hcid).held
  else if i = 0x90 then BitVec.ofNat 64 s.plat.thermal.level
  else s.plat.thermal.ttime.toList.getD (i - 0x91) 0

/-- A sum of naturals as a saturating counter holds it (R430, R431). -/
def satAdd {n : Nat} (v : BitVec n) (k : Nat) : BitVec n := if 2 ^ n ≤ v.toNat + k then BitVec.allOnes n else v + BitVec.ofNat n k

/-- TTIMEn as it stands now, for n from 1 to 4: while the level is n or higher the microseconds since it was last brought up to date are a free value (R430, log entry 7). -/
def tickTtime (s : State) (n : Nat) : State :=
  if n = 0 ∨ 4 < n ∨ s.plat.thermal.level < n then s
  else
    let (v, s) := s.freeVal
    let tt := s.plat.thermal.ttime
    { s with plat := { s.plat with thermal := { s.plat.thermal with
      ttime := Vector.ofFn (fun i : Fin 4 => if i.val + 1 = n then satAdd tt[i] v.toNat else tt[i]) } } }

/-- CNTRD (R432). -/
def cntrdOp (d x : XReg) (s : State) : State :=
  let i := (s.rdX x).toNat
  let s := if 0x91 ≤ i then s.tickTtime (i - 0x90) else s
  s.wrX d (s.counterAt i)

/-- A strand performance counter set to 0 (R433). -/
def clearPerf (p : Perf) (i : Nat) : Perf :=
  match i with
  | 0 => { p with issued := 0 }
  | 1 => { p with swout := 0 }
  | 2 => { p with froze := 0 }
  | 8 => { p with shortl := 0 }
  | _ => { p with late := Vector.ofFn (fun j : Fin 5 => if j.val + 3 = i then 0 else p.late[j]) }

/-- CNTCLR (R433). -/
def cntclrOp (x : XReg) (s : State) : State :=
  let i := (s.rdX x).toNat - 0x40
  s.modMe (fun t => { t with perf := clearPerf t.perf i })

end State

/-! ### Meanings -/

/-- STAGE (R414). -/
def execStage (g : Guard) (x : XReg) (s : State) : Host.Outcome State Fault Refusal :=
  s.slotOp (.stage g x) g (State.stageOp x)

/-- TOKCLR (R413). -/
def execTokclr (g : Guard) (x : XReg) (s : State) : Host.Outcome State Fault Refusal :=
  s.slotOp (.tokclr g x) g (State.tokclrOp x)

/-- BAR (R416). -/
def execBar (g : Guard) (x : XReg) (s : State) : Host.Outcome State Fault Refusal :=
  s.slotOp (.bar g x) g (State.barOp x)

/-- LNSCFG (R420). -/
def execLnscfg (g : Guard) (x t : XReg) (s : State) : Host.Outcome State Fault Refusal :=
  s.slotOp (.lnscfg g x t) g (State.lnscfgOp x t)

/-- LNSRUN (R421). -/
def execLnsrun (g : Guard) (x : XReg) (s : State) : Host.Outcome State Fault Refusal :=
  s.slotOp (.lnsrun g x) g (State.lnsrunOp x)

/-- LNSBRK (R423). -/
def execLnsbrk (g : Guard) (s : State) : Host.Outcome State Fault Refusal :=
  s.slotOp (.lnsbrk g) g State.lnsbrkOp

/-- SEQLEN (R424). -/
def execSeqlen (g : Guard) (x : XReg) (s : State) : Host.Outcome State Fault Refusal :=
  s.slotOp (.seqlen g x) g (State.seqlenOp x)

/-- CNTRD (R432). -/
def execCntrd (g : Guard) (d x : XReg) (s : State) : Host.Outcome State Fault Refusal :=
  s.slotOp (.cntrd g d x) g (State.cntrdOp d x)

/-- CNTCLR (R433). -/
def execCntclr (g : Guard) (x : XReg) (s : State) : Host.Outcome State Fault Refusal :=
  s.slotOp (.cntclr g x) g (State.cntclrOp x)

end Sys2Proof.Machine
end

