-- ==== Sys2Proof/Machine/FaultOps.lean ====
section
/-! DEFINITION. RESUME and FQPOP: the return from traps and held faults, shared with the host's RESUMEW, and what a queued operation that performs nothing leaves (spec 04 R119; 16 R440 to R444, R503). -/

namespace Sys2Proof.Machine

/-- The front-end registers whose pending bit a queued form sets at issue (R117, R149, log entry 49). DESIGN CHOICE (log entry 96): a destination x0 or p0, whose write R101 discards, sets none. -/
def pendDests (i : Instr) : List GReg :=
  ((bodyRefs i).filter (fun r => r.wr && r.reg.ruled && !r.reg.engine)).map (·.reg)

/-- Pending bits of some registers set or cleared; the guards that waited for a cleared one take its value as it stands (R119). -/
def setPend (v : Bool) (t : Strand) (r : GReg) : Strand :=
  match r with
  | .x n => { t with pend := { t.pend with x := Vector.ofFn (fun i : Fin 64 => if i.val = n then v else t.pend.x[i]) } }
  | .p n => { t with
      pend := { t.pend with p := Vector.ofFn (fun i : Fin 16 => if i.val = n then v else t.pend.p[i]) }
      ops := if v then t.ops else State.takeGuards n (t.front.p.toList.getD n true) t.ops }
  | .b n => { t with pend := { t.pend with b := Vector.ofFn (fun i : Fin 8 => if i.val = n then v else t.pend.b[i]) } }
  | _ => t

namespace State

/-- A reservation of a push given back when the push performs nothing (R119, R345, log entry 63). -/
def unreserve (s : State) (k : Nat) (o : QOp) : State :=
  match o.instr with
  | .push _ d _ t =>
      let x (r : XReg) : Nat := if r = 0 then 0 else o.latch.x[r.val].toNat
      s.modPush (s.strand k).launch (x t) (fun c => { c with res := c.res - BitVec.ofNat 32 (x d) })
  | _ => s

/-- A queued operation that performs nothing leaves its queue: its pending bits clear, its token and its landing are as before, its tile, locks and reservations are released (R119, R345). -/
def dropOp (s : State) (k : Nat) (o : QOp) : State :=
  let s := s.unreserve k o
  let mine (m : Mma) : Bool := strandKey m.core m.strand == k && m.num == o.num
  let s := (s.mmas.filter mine).foldl unlock s
  let s := { s with mmas := s.mmas.filter (fun m => !mine m) }
  let s := match o.instr.tile? with
    | some (t, true) => s.clearBusy (k / 4) ((s.strand k).tb + t.val)
    | _ => s
  let tok (t : Strand) : Strand := match o.instr.token?, o.tok with
    | some i, some v => { t with tokens := t.tokens.set i.val v }
    | _, _ => t
  s.modStrand k (fun t =>
    let t := (pendDests o.instr).foldl (setPend false) (tok t)
    { t with
      ops := t.ops.filter (fun q => q.num != o.num)
      landings := t.landings.filter (fun l => l.num != o.num)
      pend := if writesOcc o.instr then { t.pend with occ := false } else t.pend })

/-! ### The return (R440, R443, R503) -/

/-- The core and strand of a pending fault's subject. -/
def subjStrand (s : State) (f : FaultSubj) : Nat × Nat :=
  match f with
  | .op c n _ => (c, n)
  | .trap c n => (c, n)
  | .copy id =>
      match s.copies.find? (fun (c : Copy) => c.id == id), s.gemvs.find? (fun (c : Gemv) => c.id == id) with
      | some c, _ => (c.core, c.strand)
      | none, some c => (c.core, c.strand)
      | none, none => (128, 0)

/-- A copy replayed: it performs what has not been performed, from now on, its pages translated afresh, its BYTES counted on (R442, R503). -/
def replayCopy (s : State) (id : Nat) : State :=
  let ctx := s.ctx
  let s := (s.modCopy id (fun c => { c with faulted := false })).modGemv id (fun c => { c with faulted := false })
  let s := match s.copies.find? (fun (c : Copy) => c.id == id) with
    | some c => (s.tlbForgetAll (clusterOf c.core) c.hc (s.copyAct c).exts).stepCopy c
    | none => match s.gemvs.find? (fun (c : Gemv) => c.id == id) with
      | some c => (s.tlbForgetAll (clusterOf c.core) c.hc (s.gemvAct c).exts).stepGemv c
      | none => s
  { s with ctx := ctx }

/-- A copy abandoned: its token becomes DONE, its flags reach FSTAT, and nothing more is written; one kept with a suspended member ends so when its member resumes (R135, R443). -/
def skipCopy (s : State) (id : Nat) : State :=
  let kept (core : Nat) : Bool := decide (128 ≤ core)
  match s.copies.find? (fun (c : Copy) => c.id == id), s.gemvs.find? (fun (c : Gemv) => c.id == id) with
  | some c, _ => if kept c.core then s.modCopy id (fun c => { c with skipped := true }) else s.finishCopy c
  | none, some c =>
      if kept c.core then s.modGemv id (fun c => { c with skipped := true })
      else { (s.setTok (strandKey c.core c.strand) c.tok .done 0) with gemvs := s.gemvs.filter (fun x => x.id != id) }
  | none, none => s

/-- The pages of an operation to be replayed dropped from its cluster's TLB; every page of its context for a form whose addresses memory gives (R375, R503). -/
def forgetOp (s : State) (k num : Nat) : State :=
  let cl := k / 16
  let h := (s.strand k).hc
  match (s.strand k).ops.find? (fun o => o.num == num) with
  | none => s
  | some o => match extents (s.forOp k o) o.instr with
    | [] => s.modCluster cl (fun c => { c with tlb := c.tlb.filter (fun e => e.hc != h) })
    | es => s.tlbForgetAll cl h es

/-- What RESUME does to a pending fault whose entry it has freed (R443, R503). -/
def resumeSubj (s : State) (skip : Bool) (f : FaultSubj) : State :=
  match f with
  | .op c n num =>
      let k := strandKey c n
      let s := if skip then
          (match (s.strand k).ops.find? (fun o => o.num == num) with
           | some o => s.dropOp k o
           | none => s)
        else (s.forgetOp k num).modStrand k (fun t => { t with ops := t.ops.map (fun o => if o.num = num then { o with stage := .queued } else o) })
      s.releaseHold k
  | .trap c n =>
      let k := strandKey c n
      (s.modStrand k (fun t => { t with trap := none, skipNext := skip })).releaseHold k
  | .copy id => if skip then s.skipCopy id else s.replayCopy id

/-- The record of an abort: the code and handle of the aborted fault (R503). -/
def abortRecord (s : State) (p : PendFault) : FaultRec :=
  let (c, n) := s.subjStrand p.subj
  let r := s.recordOf (strandKey c n) 0x14
  let l := s.launch? p.launch
  { r with
    aux := p.code, info := p.handle, launch := some p.launch
    seq := (l.map (·.seq.toNat)).getD 0, stream := (l.map (·.stream)).getD 0, hc := (l.map (·.hc)).getD r.hc }

/-- RESUME of a context's pending fault, by a strand or by the host: a stale handle does nothing (R443, R503). -/
def resumeFault (s : State) (h : Nat) (w : BitVec 64) : State :=
  match (s.hctx h).pend.find? (fun p => p.handle == w.toNat % 2 ^ 32) with
  | none => s
  | some p =>
      let freed := s.modHctx h (fun c => { c with pend := c.pend.filter (fun q => q.entry != p.entry) })
      if w.getLsbD 32 then freed.endLaunch p.launch (s.abortRecord p)
      else freed.resumeSubj (w.getLsbD 33) p.subj

/-- Whether a resume must wait: the core of its fault is halted (R460). -/
def resumeWaits (s : State) (h : Nat) (w : BitVec 64) : Bool :=
  match (s.hctx h).pend.find? (fun p => p.handle == w.toNat % 2 ^ 32) with
  | none => false
  | some p => (s.core (s.subjStrand p.subj).1).halt != 0

/-- RESUME at its queue head (R443, R460). -/
def resumeOp (x : XReg) (s : State) : State :=
  if s.resumeWaits s.hcid (s.rdX x) then s.wait else s.resumeFault s.hcid (s.rdX x)

/-! ### FQPOP (R444) -/

/-- FQPOP at its queue head: the oldest record to the buffer, and HEAD past it, in its turn at the record's lines (R13, R444). -/
def fqpopOp (d : XReg) (a : AReg) (s : State) : State :=
  let va := s.ea a 0
  let h := s.hcid
  (bufferPages va 64 s).run (fun _ s =>
    let g := (s.hctx h).rings[5]
    if g.logd = 0 ∨ g.tail = g.head then s.wrX d 0
    else actTurn (failIn d) (fun s =>
      (s.actRead h ((g.base.toNat + 64 * (g.head.toNat % 2 ^ g.logd)) % 2 ^ 72) 64).bind (fun v =>
        actStore va (leBytes 64 v) (fun s => s.wrX d (BitVec.ofNat 64 (1 + bitsAt v 192 8 * 256)))
          (s.modHctx h (fun c => { c with rings := c.rings.set 5 { g with head := g.head + 1 } })))) s)

end State

/-! ### Meanings -/

/-- RESUME (R443). -/
def execResume (g : Guard) (x : XReg) (s : State) : Host.Outcome State Fault Refusal :=
  s.slotOp (.resume g x) g (State.resumeOp x)

/-- FQPOP (R444). -/
def execFqpop (g : Guard) (d : XReg) (a : AReg) (s : State) : Host.Outcome State Fault Refusal :=
  s.slotOp (.fqpop g d a) g (State.fqpopOp d a)

end Sys2Proof.Machine
end

