-- ==== Sys2Proof/Machine/Perform.lean ====
section
/-! DEFINITION. The meaning of a slot operation as issue and the engines call it: the same meaning that the dispatch gives it; an event is no slot operation. -/

namespace Sys2Proof.Machine

/-- The meaning of a slot operation. -/
def performOut (i : Instr) (s : State) : Host.Outcome State Fault Refusal :=
  match i with
  | .add g d a t => execAdd g d a t s
  | .addImm g d a imm => execAddImm g d a imm s
  | .sub g d a t => execSub g d a t s
  | .subImm g d a imm => execSubImm g d a imm s
  | .mul g d a t => execMul g d a t s
  | .mulImm g d a imm => execMulImm g d a imm s
  | .mulh g d a t => execMulh g d a t s
  | .mulhImm g d a imm => execMulhImm g d a imm s
  | .mulhn g d a t => execMulhn g d a t s
  | .mulhnImm g d a imm => execMulhnImm g d a imm s
  | .div g d a t => execDiv g d a t s
  | .divImm g d a imm => execDivImm g d a imm s
  | .divn g d a t => execDivn g d a t s
  | .divnImm g d a imm => execDivnImm g d a imm s
  | .rem g d a t => execRem g d a t s
  | .remImm g d a imm => execRemImm g d a imm s
  | .remn g d a t => execRemn g d a t s
  | .remnImm g d a imm => execRemnImm g d a imm s
  | .and g d a t => execAnd g d a t s
  | .andImm g d a imm => execAndImm g d a imm s
  | .or g d a t => execOr g d a t s
  | .orImm g d a imm => execOrImm g d a imm s
  | .xor g d a t => execXor g d a t s
  | .xorImm g d a imm => execXorImm g d a imm s
  | .andn g d a t => execAndn g d a t s
  | .andnImm g d a imm => execAndnImm g d a imm s
  | .shl g d a t => execShl g d a t s
  | .shlImm g d a imm => execShlImm g d a imm s
  | .shr g d a t => execShr g d a t s
  | .shrImm g d a imm => execShrImm g d a imm s
  | .shra g d a t => execShra g d a t s
  | .shraImm g d a imm => execShraImm g d a imm s
  | .rol g d a t => execRol g d a t s
  | .rolImm g d a imm => execRolImm g d a imm s
  | .min g d a t => execMin g d a t s
  | .minImm g d a imm => execMinImm g d a imm s
  | .max g d a t => execMax g d a t s
  | .maxImm g d a imm => execMaxImm g d a imm s
  | .minn g d a t => execMinn g d a t s
  | .minnImm g d a imm => execMinnImm g d a imm s
  | .maxn g d a t => execMaxn g d a t s
  | .maxnImm g d a imm => execMaxnImm g d a imm s
  | .clz g d a => execClz g d a s
  | .ctz g d a => execCtz g d a s
  | .popc g d a => execPopc g d a s
  | .abs g d a => execAbs g d a s
  | .sext g d a n => execSext g d a n s
  | .zext g d a n => execZext g d a n s
  | .bfx g d a t => execBfx g d a t s
  | .bfxN g d a t => execBfxN g d a t s
  | .bfi g d a t => execBfi g d a t s
  | .sel g d a t => execSel g d a t s
  | .li g d imm => execLi g d imm s
  | .fadd g d a t => execFadd g d a t s
  | .fsub g d a t => execFsub g d a t s
  | .fmul g d a t => execFmul g d a t s
  | .ffma g d a t => execFfma g d a t s
  | .fmin g d a t => execFmin g d a t s
  | .fmax g d a t => execFmax g d a t s
  | .cvtf g d a => execCvtf g d a s
  | .cvtfN g d a => execCvtfN g d a s
  | .cvti g d a => execCvti g d a s
  | .cvtiN g d a => execCvtiN g d a s
  | .pand g d a t => execPand g d a t s
  | .por g d a t => execPor g d a t s
  | .pxor g d a t => execPxor g d a t s
  | .pandn g d a t => execPandn g d a t s
  | .pget g d => execPget g d s
  | .pset g a => execPset g a s
  | .ptb g d imm => execPtb g d imm s
  | .ptbx g d a => execPtbx g d a s
  | .br g a => execBr g a s
  | .brl g d a => execBrl g d a s
  | .trap g imm => execTrap g imm s
  | .aadd g d a t => execAadd g d a t s
  | .aaddImm g d a imm => execAaddImm g d a imm s
  | .aset g d a => execAset g d a s
  | .aget g d a => execAget g d a s
  | .alea g d a t => execAlea g d a t s
  | .cmp g c d a t => execCmp g c d a t s
  | .cmpImm g c d a imm => execCmpImm g c d a imm s
  | .fcmp g c d a t => execFcmp g c d a t s
  | .gets g d r => execGets g d r s
  | .puts g a r => execPuts g a r s
  | .ld g z d a l => execLd g z d a l s
  | .ldN g z d a l => execLdN g z d a l s
  | .st g z d a o => execSt g z d a o s
  | .ldv g d a l => execLdv g d a l s
  | .ldvFeTake g one d a l => execLdvFeTake g one d a l s
  | .ldvFeKeep g one d a l => execLdvFeKeep g one d a l s
  | .stv g d a o => execStv g d a o s
  | .stvFe g d a o => execStvFe g d a o s
  | .ldvg g d a l => execLdvg g d a l s
  | .stvs g d a t => execStvs g d a t s
  | .setfe g d a => execSetfe g d a s
  | .clrfe g d a => execClrfe g d a s
  | .spill g d => execSpill g d s
  | .fill g d l => execFill g d l s
  | .pref g a o => execPref g a o s
  | .atom g op dbl d a l => execAtom g op dbl d a l s
  | .cas g dbl d a l => execCas g dbl d a l s
  | .red g op dbl d a o => execRed g op dbl d a o s
  | .chkout g d a => execChkout g d a s
  | .chkin g a => execChkin g a s
  | .copy g tk d a n => execCopy g tk d a n s
  | .copys g tk d a t => execCopys g tk d a t s
  | .copyg g tk d a t => execCopyg g tk d a t s
  | .copyfe g tk d a t => execCopyfe g tk d a t s
  | .gemv g tk d a t => execGemv g tk d a t s
  | .bankmode g a => execBankmode g a s
  | .flush g d a => execFlush g d a s
  | .inval g d a => execInval g d a s
  | .mma g d a t xm xn xk f => execMma g d a t xm xn xk f s
  | .mmat g d a t xm xn xk f => execMmat g d a t xm xn xk f s
  | .accz g d => execAccz g d s
  | .accret g d a ty => execAccret g d a ty s
  | .accadd g d a ty port => execAccadd g d a ty port s
  | .accld g d a => execAccld g d a s
  | .accst g d a => execAccst g d a s
  | .accrd g d a xm => execAccrd g d a xm s
  | .accwr g d a xm => execAccwr g d a xm s
  | .vadd g d a t m ty rm => execVadd g d a t m ty rm s
  | .vsub g d a t m ty rm => execVsub g d a t m ty rm s
  | .vmul g d a t m ty rm => execVmul g d a t m ty rm s
  | .vfma g d a t u m ty rm => execVfma g d a t u m ty rm s
  | .vmin g d a t m ty => execVmin g d a t m ty s
  | .vmax g d a t m ty => execVmax g d a t m ty s
  | .vabs g d a m ty => execVabs g d a m ty s
  | .vneg g d a m ty => execVneg g d a m ty s
  | .vclamp g d a t u m ty => execVclamp g d a t u m ty s
  | .vrcp g d a m => execVrcp g d a m s
  | .vrsq g d a m => execVrsq g d a m s
  | .vexp2 g d a m => execVexp2 g d a m s
  | .vlog2 g d a m => execVlog2 g d a m s
  | .vand g d a t m => execVand g d a t m s
  | .vor g d a t m => execVor g d a t m s
  | .vxor g d a t m => execVxor g d a t m s
  | .vshl g d a t m => execVshl g d a t m s
  | .vshr g d a t m => execVshr g d a t m s
  | .vshra g d a t m => execVshra g d a t m s
  | .vcmp g c d a t m ty => execVcmp g c d a t m ty s
  | .vsel g d a t u m => execVsel g d a t u m s
  | .vmov g d a m => execVmov g d a m s
  | .vbcast g d a m => execVbcast g d a m s
  | .vperm g d a t m => execVperm g d a t m s
  | .vslide g d a t m => execVslide g d a t m s
  | .vslideDn g d a t m => execVslideDn g d a t m s
  | .vred g op d a m ty rm => execVred g op d a m ty rm s
  | .vscan g op d a m ty rm => execVscan g op d a m ty rm s
  | .vany g d a m => execVany g d a m s
  | .vall g d a m => execVall g d a m s
  | .vfirst g d a m => execVfirst g d a m s
  | .vpopc g d a m => execVpopc g d a m s
  | .viota g d m => execViota g d m s
  | .vextr g d a t => execVextr g d a t s
  | .vins g d a t => execVins g d a t s
  | .vcvt g d a m src dst rm nsat => execVcvt g d a m src dst rm nsat s
  | .vqmx g d a t ty rm nsat => execVqmx g d a t ty rm nsat s
  | .vdqmx g d a t m ty rm => execVdqmx g d a t m ty rm s
  | .vrand g d a t m ty adv => execVrand g d a t m ty adv s
  | .qand g d a t m => execQand g d a t m s
  | .qor g d a t m => execQor g d a t m s
  | .qxor g d a t m => execQxor g d a t m s
  | .qnot g d a m => execQnot g d a m s
  | .sortb g asc d a t => execSortb g asc d a t s
  | .merge g asc d a => execMerge g asc d a s
  | .cmrg g a t => execCmrg g a t s
  | .cget g idx d k => execCget g idx d k s
  | .cclr g => execCclr g s
  | .ctopp g d a => execCtopp g d a s
  | .cdraw g d a => execCdraw g d a s
  | .fenceAcq g c => execFenceAcq g c s
  | .fenceRel g c => execFenceRel g c s
  | .fenceFull g c => execFenceFull g c s
  | .drain g c => execDrain g c s
  | .push g d a t => execPush g d a t s
  | .pop g d a => execPop g d a s
  | .qstat g d a => execQstat g d a s
  | .notify g a t => execNotify g a t s
  | .launch g d a => execLaunch g d a s
  | .suspend g a => execSuspend g a s
  | .exit g => execExit g s
  | .evpost g a t => execEvpost g a t s
  | .dictld g d a t => execDictld g d a t s
  | .tlbinvPage g a => execTlbinvPage g a s
  | .tlbinvHc g a => execTlbinvHc g a s
  | .tlbinvAll g => execTlbinvAll g s
  | .kvlook g d a t => execKvlook g d a t s
  | .kvapp g d a t => execKvapp g d a t s
  | .kvfork g d a t => execKvfork g d a t s
  | .kvtrunc g d a t => execKvtrunc g d a t s
  | .kvfree g a t => execKvfree g a t s
  | .pfxfind g d a t => execPfxfind g d a t s
  | .pfxins g d a t => execPfxins g d a t s
  | .strunc g d a t => execStrunc g d a t s
  | .scommit g d a t => execScommit g d a t s
  | .sframe g d a t => execSframe g d a t s
  | .btsnap g a t => execBtsnap g a t s
  | .obsel g d => execObsel g d s
  | .stage g a => execStage g a s
  | .tokclr g a => execTokclr g a s
  | .bar g a => execBar g a s
  | .lnscfg g a t => execLnscfg g a t s
  | .lnsrun g a => execLnsrun g a s
  | .lnsbrk g => execLnsbrk g s
  | .seqlen g a => execSeqlen g a s
  | .cntrd g d a => execCntrd g d a s
  | .cntclr g a => execCntclr g a s
  | .resume g a => execResume g a s
  | .fqpop g d a => execFqpop g d a s
  | .coldReset => .next s
  | .wakeTest _ _ _ => .next s
  | .binderRun _ => .next s
  | .partFailure _ _ => .next s
  | .rebind _ _ => .next s
  | .halfPowerGate _ _ => .next s
  | .selectorCycle _ => .next s
  | .landingDataArrival _ _ _ => .next s
  | .engineOpStart _ _ _ _ => .next s
  | .engineOpComplete _ _ _ => .next s
  | .tlbWalkComplete _ => .next s
  | .homeRequestRun _ => .next s
  | .bankModeChange _ _ => .next s
  | .copyComplete _ => .next s
  | .gemvComplete _ => .next s
  | .copyschedEntryStart _ _ => .next s
  | .mmaOperandsConsumed _ => .next s
  | .mmaComplete _ => .next s
  | .pushDelivery _ => .next s
  | .suspendDependenceMet _ => .next s
  | .gangResume _ => .next s
  | .tailWordSignal _ _ => .next s
  | .notifySignal _ _ => .next s
  | .placementPass => .next s
  | .gangStart _ => .next s
  | .launchComplete _ _ => .next s
  | .faultRecordWrite _ => .next s
  | .watchdog _ => .next s
  | .uncorrectableError _ => .next s
  | .sramEccError _ _ _ _ => .next s
  | .poolHeadFailover _ _ => .next s
  | .bisnp _ => .next s
  | .hostSnoop _ _ => .next s
  | .hostMemWrite _ _ => .next s
  | .dcAddEvent _ _ _ => .next s
  | .dcReleaseRequest _ _ _ => .next s
  | .thermalLevelEnter => .next s
  | .thermalLevelLeave => .next s
  | .clockStep _ => .next s
  | .powerLimitExceeded => .next s
  | .criticalShutdown => .next s
  | .lifetimeFlush => .next s
  | .hostRegisterWrite _ _ => .next s
  | .streamModeWrite _ _ _ => .next s
  | .controlPause _ _ => .next s
  | .resumew _ _ => .next s
  | .haltSoft _ => .next s
  | .haltHard _ => .next s
  | .haltRelease _ => .next s
  | .hccreate => .next s
  | .hcdestroy => .next s
  | .hcrestart => .next s
  | .reside => .next s
  | .unload => .next s
  | .ptewrite => .next s
  | .tlbdrop => .next s
  | .medreg => .next s
  | .pfxremove => .next s
  | .streamopen => .next s
  | .streamclose => .next s
  | .keyadd => .next s
  | .clusterreset => .next s
  | .dcaccept => .next s
  | .dcrelease => .next s
  | .liferead => .next s
  | .oldestLaunchWait2Ms _ => .next s
  | .stacksTrained => .next s
  | .nearMemoryEnginesTrained => .next s
  | .thermalCalibrationDone => .next s
  | .hbmEccFailure _ _ => .next s
  | .spdmRequest _ => .next s
  | .orderlyShutdown => .next s

/-- The state a slot operation leaves; no slot operation stops the machine. -/
def perform (i : Instr) (s : State) : State :=
  match performOut i s with
  | .next t => t
  | .fault _ => s
  | .refused _ => s

end Sys2Proof.Machine
end

