-- ==== Sys2Proof/Machine/Issue.lean ====
section
/-! DEFINITION. Issue: fetch, the waits of a strand's next bundle, the tests of R500, landings, the slots, the loop-nest wrap, branches, segments with their check and rollback (spec 02, 03, 04, 06, 15, 16). -/

namespace Sys2Proof.Machine

/-- What the front end finds at a program counter: an index halfword and its bundle, or a dictionary-range trap with its AUX (R77, R78, R435). -/
inductive Fetched where
  | bundle (half : Nat) (b : BitVec 384)
  | range (aux : Nat)
  deriving DecidableEq, Repr

/-- A strand's next bundle: its halfword, its header, whether its TOKWAIT counts, the operations it would perform or, of an illegal bundle, its legal ones, whose waits end before the trap it raises (R73, R500). -/
structure View where
  half : Nat
  header : Header
  waits : Bool
  ops : List SlotOp
  trap : Option TrapHold
  deriving DecidableEq, Repr

/-- How a strand stands in a cycle: not ready, ready but for a late landing, ready with a literal to gather, or able to issue (R57, R80, R342). -/
inductive Ready where
  | out | late | bubble | ok
  deriving DecidableEq, Repr

/-- A literal's bundle from the 24 halfwords behind its escape (R77). -/
def literalOf (hs : List (BitVec 16)) : BitVec 384 := BitVec.ofNat 384 (hs.foldr (fun h acc => h.toNat + 65536 * acc) 0)

/-- One bit of CRC-32C, reflected (R87, log entry 17). -/
def crcBit (c : Word32) : Word32 := if c.getLsbD 0 then (c >>> 1) ^^^ 0x82F63B78 else c >>> 1

/-- One byte of CRC-32C (R87). -/
def crcByte (c : Word32) (b : Byte) : Word32 :=
  let c := c ^^^ b.setWidth 32
  crcBit (crcBit (crcBit (crcBit (crcBit (crcBit (crcBit (crcBit c)))))))

/-- A control word passed through the running CRC: the header and the index halfword (R87, R426). -/
def crcWord (c : Word32) (header : Word32) (half : Nat) : Word32 :=
  (leBytes 4 header.toNat ++ leBytes 2 half).foldl crcByte c

/-- Whether FIRST and LAST let a bundle perform nothing (R73, R422). -/
def suppressed (t : Strand) (h : Header) : Bool :=
  let l := State.level t h.lvl
  let isFirst := !l.run || l.iter == 0
  let isLast := !l.run || l.brk || l.iter + 1 == l.trip
  (h.first && !isFirst) || (h.last && !isLast)

/-- The class code of a register and its number (R502). -/
def GReg.aux : GReg → Nat
  | .x n => n
  | .a n => 256 + n
  | .p n => 512 + n
  | .q n => 768 + n
  | .v n => 1024 + n
  | .b n => 1280 + n
  | .k n => 1536 + n
  | .s n => 1792 + n

/-- The strides of a level added `times` times over to the a registers, of all its enabled entries or of those that rewind (R419, R422). -/
def addStrides (l : Level) (rewind : Bool) (times : Int) (a : Vector AWord 16) : Vector AWord 16 :=
  l.strides.toList.foldl (fun (a : Vector AWord 16) e =>
    if e.getLsbD 7 && (!rewind || e.getLsbD 8) then
      let r := (e.extractLsb' 0 4).toNat
      Vector.ofFn (fun i : Fin 16 => if i.val = r then a[i] + BitVec.ofInt 72 (times * (e.extractLsb' 32 32).toInt) else a[i])
    else a) a

/-- The sequencer after a bundle, over running levels innermost first: the next program counter, when a level goes on (R422). -/
def wrapLevels (pc : Word32) : List Nat → Strand → Option Word32 × Strand
  | [], t => (none, t)
  | k :: ks, t =>
      let l := State.level t k
      if l.run && l.last == pc then
        let put (l : Level) (t : Strand) : Strand :=
          { t with levels := Vector.ofFn (fun i : Fin 6 => if i.val = k then l else t.levels[i]) }
        let a := addStrides l false 1 t.front.a
        if decide (l.iter.toNat + 1 < l.trip.toNat) && !l.brk then
          (some l.first, put { l with iter := l.iter + 1 } { t with front := { t.front with a := a } })
        else
          let a := addStrides l true (-((l.iter.toNat : Int) + 1)) a
          wrapLevels pc ks (put { l with run := false } { t with front := { t.front with a := a } })
      else wrapLevels pc ks t

/-- The forms at whose issue a protected segment loses its protection (R450). -/
def unprotects (i : Instr) : Bool :=
  i.isBarrier || (match i with
    | .flush _ _ _ | .inval _ _ _ | .chkout _ _ _ | .chkin _ _ | .bankmode _ _ => true
    | _ => false)

/-- Whether a form is an LDV.FE (R267). -/
def isFeLoad : Instr → Bool
  | .ldvFeTake _ _ _ _ _ | .ldvFeKeep _ _ _ _ _ => true
  | _ => false

/-- Whether a form is a PUTS, which a bundle performs before its flag reports (R155). -/
def isPuts : Instr → Bool
  | .puts _ _ _ => true
  | _ => false

/-- Whether a form is an EXIT. -/
def isExit : Instr → Bool
  | .exit _ => true
  | _ => false

namespace State

/-- The machine acting for a strand's next bundle. -/
def acting (s : State) (k : Nat) : State :=
  { s with ctx := { Ctx.idle with
      core := k / 4, strand := k % 4, bundle := (s.strand k).pc, num := (s.strand k).opNum + 1 } }

/-- The machine acting for one slot of that bundle. -/
def atSlot (s : State) (o : SlotOp) : State := { s with ctx := { s.ctx with slot := o.slot, word := o.word } }

/-! ### Fetch and decode (R73, R74, R77, R78) -/

/-- The index stream of a strand's gang core. -/
def streamOf (s : State) (k : Nat) : List (BitVec 16) := ((s.coreImg k).map (·.index)).getD []

def fetch (s : State) (k : Nat) : Fetched :=
  let t := s.strand k
  let idx := s.streamOf k
  let pc := t.pc.toNat
  match idx[pc]? with
  | none => .range 65536
  | some h =>
      if h = 0xFFFF then
        (if pc + 25 ≤ idx.length then .bundle 65535 (literalOf ((idx.drop (pc + 1)).take 24)) else .range 65535)
      else if h = 0 then .bundle 0 0
      else if t.wsize ≤ h.toNat then .range h.toNat
      else .bundle h.toNat (((s.windowOf k).map (fun w => w.entries.getD h.toNat 0)).getD 0)

/-- A strand's next bundle (R73, R74, R435, R443, R503). -/
def view (s : State) (k : Nat) : View :=
  let t := s.strand k
  match s.fetch k with
  | .range aux =>
      if t.skipNext then ⟨((s.streamOf k).getD t.pc.toNat 0).toNat, ⟨0⟩, false, [], none⟩
      else ⟨0, ⟨0⟩, false, [], some ⟨7, aux, 0, 15⟩⟩
  | .bundle half b =>
      let h := headerOf b
      if t.skipNext then ⟨half, h, false, [], none⟩
      else
        let sup := suppressed t h
        match decodeBundle b with
        | .badHeader => ⟨half, h, !sup, if sup then [] else legalSlots b, some ⟨3, 0, h.word.toNat, 15⟩⟩
        | .badSlot n => ⟨half, h, !sup, if sup then [] else legalSlots b, some ⟨3, 0, slotWord b n, n⟩⟩
        | .ok h ops => ⟨half, h, !sup, if sup then [] else ops, none⟩

/-! ### Waits (R52, R56, R116, R117, R119, R363) -/

/-- Whether a slot's operation enters an engine queue. -/
def queued (o : SlotOp) : Bool := (engineOf o.slot o.instr).isSome

/-- A slot's guard as issue finds it: none while its predicate is pending (R119). -/
def guardAt (s : State) (i : Instr) : Option Bool :=
  if i.always then some true
  else match i.guard? with
    | none => some true
    | some g => if isPending s.me (.p g.p.val) then none else some (s.holds g)

/-- Whether a slot holds its bundle. -/
def slotHolds (s : State) (o : SlotOp) : Bool :=
  s.pendingWait (queued o) o.instr || (s.guardAt o.instr != some false && s.slotWait o.instr)

/-- Whether a slot's queue has an entry for it, whatever its guard: an operation sent on to its homes has freed its own (R115, R116). -/
def hasRoom (s : State) (o : SlotOp) : Bool :=
  match engineOf o.slot o.instr with
  | none => true
  | some e => decide (s.me.ops.countP (fun q => q.eng == e && q.stage != .sent) < e.depth)

/-- Whether the landing buffer of the core has an entry for every landing of a bundle (R56, log entry 79). -/
def landRoom (s : State) (ops : List SlotOp) : Bool :=
  let used := ((List.range 4).map (fun i => (s.strand (strandKey s.ctx.core i)).landings.length)).sum
  let new := ops.countP (fun o => o.instr.landing?.isSome && s.guardAt o.instr != some false)
  new == 0 || decide (used + new ≤ Config.landingEntries)

/-- Whether an index halfword names an entry that a DICTLD of the strand has yet to write (R363). -/
def dictBusy (s : State) (half : Nat) : Bool :=
  half != 0 && half != 65535 && s.me.ops.any (fun o => match o.instr with
    | .dictld _ _ _ t =>
        let w := (if t = 0 then 0 else o.latch.x[t.val]).toNat
        o.guard != some false && decide (w % 8192 ≤ half ∧ half < w % 8192 + w / 65536 % 512)
    | _ => false)

/-- Whether the bundle of a view must wait, on the machine acting for its strand (log entry 66). -/
def bundleWaits (s : State) (v : View) : Bool :=
  (v.waits && (List.range 8).any (fun i => v.header.waits i && tokBusy s.me i)) ||
  s.dictBusy v.half || v.ops.any s.slotHolds || !v.ops.all s.hasRoom || !s.landRoom v.ops

/-- Whether an EXIT or SUSPEND of a strand has still to act, or to find its guard false: nothing issues behind it (R351, R352). -/
def leaveUnsure (t : Strand) : Bool := t.ops.any (fun o => o.guard != some false && (isExit o.instr || isSuspend o))

/-- The landings of a strand's next bundle whose datum is absent (R57). -/
def absent (t : Strand) : List Landing := t.landings.filter (fun l => l.due == t.count + 1 && !(l.arrived && l.data.isSome))

/-- Whether a freeze that a strand's late landings began goes on: some datum is absent, and no load of an absent one has faulted (R57, R438). -/
def freezeLasts (t : Strand) : Bool :=
  !(absent t).isEmpty && !(absent t).any (fun l => t.ops.any (fun o => o.num == l.num && o.stage == .faulted))

/-- The landings due at a strand's next bundle. -/
def dueLandings (t : Strand) : List Landing := t.landings.filter (fun l => l.due == t.count + 1)

/-- The strand as its next bundle's waits find it: with the x values that land there (R55). -/
def withLanded (s : State) (k : Nat) : State :=
  (dueLandings (s.strand k)).foldl (fun s l => match l.dest, l.data with
    | .x r, some (.x w) => s.putDatum k (.x r) (.x w)
    | _, _ => s) s

/-- How a strand stands (R52, R55, R57, R80, R267, R342). -/
def ready (s : State) (k : Nat) : Ready :=
  let t := s.strand k
  if t.life != .running || t.holds != 0 || t.rolling.isSome || s.barHeld k || leaveUnsure t then .out
  else
    let v := s.view k
    if ((s.withLanded k).acting k).bundleWaits v then .out
    else if v.half == 65535 && !t.literal then .bubble
    else
      let ls := absent t
      if ls.any (fun l => l.fe && l.data.isNone) then .out
      else if ls.isEmpty then .ok else .late

/-! ### Landings (R55, R59, R118, R263, R427) -/

/-- Withheld writes of v landings performed where every earlier operation that reads or writes the register is past it (R118, R263). -/
def settleV (s : State) (k : Nat) : List VLand → State
  | [] => s
  | e :: es =>
      let t := s.strand k
      let uses (o : QOp) : Bool := decide (o.num ≤ e.num) && o.guard != some false &&
        (bodyRefs o.instr).any (fun r => r.reg == .v e.reg.val && (r.wr || (r.rd && o.cap.isNone)))
      if t.ops.any uses || t.vland.any (fun f => f.reg == e.reg && decide (f.num < e.num)) then settleV s k es
      else
        let s := s.putDatum k (.v e.reg) (.v e.val)
        settleV (s.modStrand k (fun t => { t with vland := t.vland.filter (fun f => !(f.reg == e.reg && f.num == e.num)) })) k es

/-- Every v landing of a strand that can be written. -/
def settleVland (s : State) (k : Nat) : State := s.settleV k (s.strand k).vland

/-- A late landing counted (R427, R501, log entry 83). -/
def countLate (s : State) (k : Nat) (l : Landing) : State :=
  if !l.late then s
  else
    let entry := (((s.imageOf k).bind (fun g => g.latency[l.cls]?))).getD 0
    s.modStrand k (fun t => { t with perf := { t.perf with
      late := Vector.ofFn (fun i : Fin 5 => if i.val = l.cls then t.perf.late[i] + 1 else t.perf.late[i])
      shortl := if l.lat < entry then t.perf.shortl + 1 else t.perf.shortl } })

/-- One due landing written: an x register at once, a v register when earlier operations let it (R55, log entry 27). -/
def landOne (s : State) (k : Nat) (l : Landing) : State :=
  let s := s.countLate k l
  match l.dest, l.data with
  | .x r, some (.x w) => s.putDatum k (.x r) (.x w)
  | .v r, some (.v x) => s.modStrand k (fun t => { t with vland := t.vland ++ [⟨t.opNum, r, x⟩] })
  | _, _ => s

/-- The strand as its next bundle finds it: its due landings written, and a fresh segment begun at it (R55, R86). -/
def landDue (s : State) (k : Nat) : State :=
  let s := (dueLandings (s.strand k)).foldl (fun s l => s.landOne k l) s
  s.modStrand k (fun t => { t with
    landings := t.landings.filter (fun l => l.due != t.count + 1)
    segStart := if t.segFresh then t.pc else t.segStart })

/-- The register a landing writes; none for x0 (R59). -/
def landReg (l : Landing) : Option GReg :=
  match l.dest with
  | .x r => if r = 0 then none else some (.x r.val)
  | .v r => some (.v r.val)

/-- Whether an element of a list recurs. -/
def repeats : List GReg → Bool
  | [] => false
  | r :: rs => rs.contains r || repeats rs

/-! ### The group rule (R83, R84, R410, R502) -/

/-- The registers of a slot under the group rule, on the machine acting for it. -/
def slotRefs (s : State) (o : SlotOp) : List Ref :=
  refs o.instr ++ (match o.instr with
    | .lnsrun _ x => if ctlSrc (level s.me (s.rdX x).toNat).ctl then [⟨.s 16, true, false⟩] else []
    | _ => [])

/-- The registers a bundle's slots write, by their encodings. -/
def written (ops : List SlotOp) : List GReg := ops.flatMap (fun o => ((refs o.instr).filter (·.wr)).map (·.reg))

/-- The group-dependence trap of a bundle: AUX and the offending slot (R84, R502, log entry 78). -/
def groupStop (s : State) (ops : List SlotOp) : Option (Nat × SlotOp) :=
  let old := s.me.group
  ops.findSome? (fun o =>
    let others := written (ops.filter (fun q => q.slot != o.slot))
    ((s.slotRefs o).find? (fun r => (r.rd && old.contains r.reg) || (r.wr && (old.contains r.reg || others.contains r.reg)))).map
      (fun r => (r.reg.aux, o)))

/-! ### The slots' issue checks (R105, R500) -/

/-- The first stop among the slots of a bundle, in slot order. -/
def slotStop (s : State) (ops : List SlotOp) : Option (Stop × SlotOp) :=
  ops.findSome? (fun o => if s.guardAt o.instr = some false then none else ((s.atSlot o).issueStop o.instr).map (fun e => (e, o)))

/-! ### The slots (R85, R115, R117, R119, R172) -/

/-- The machine acting for an operation that executes at issue, over the registers latched. -/
def atIssue (s : State) (latch : FrontRegs) (o : SlotOp) : State :=
  { s with ctx := { s.ctx with slot := o.slot, word := o.word, num := 0, latch := some latch, admitted := true, res := .done } }

/-- An S form or counter form performed (R105, R115). -/
def performNow (latch : FrontRegs) (s : State) (o : SlotOp) : State :=
  let s := s.atIssue latch o
  if s.guardAt o.instr = some true then perform o.instr s else s

/-- The record of a matrix operation that enters its queue: its operands' banks locked (R211, R214, R216). -/
def enterMma (s : State) (num : Nat) (i : Instr) : State :=
  let go (trans : Bool) (d : TReg) (a b : AReg) (xm xn xk : XReg) (f : MFmt) : State :=
    let m := (s.rdX xm).toNat
    let n := (s.rdX xn).toNat
    let k := (s.rdX xk).toNat
    if m = 0 ∨ n = 0 ∨ k = 0 then s
    else
      let at_ (va len : Nat) : List (Nat × Nat) := match spotOf s.ctx.core va with
        | .scr addr => banksOf addr len
        | _ => []
      let bs := ((at_ (s.ea a 0) (f.extent k) ++ at_ (s.ea b 0) (s.g * f.extent k)).map (fun e => e.1 * 128 + e.2)).eraseDups
      let (id, s) := s.newId
      let r : Mma :=
        { id := id, core := s.ctx.core, strand := s.ctx.strand, num := num, tile := s.tileOf d, width := s.g, trans := trans
          fmt := f, m := m, n := n, k := k, opA := [], opB := [], banks := bs, consumed := false, chunk := 0, fl := 0 }
      let s := bs.foldl (fun s b => s.modBank (b / 128) (b % 128) (fun k => { k with lock := k.lock + 1 })) s
      { s with mmas := s.mmas ++ [r] }
  match i with
  | .mma _ d a b xm xn xk f => go false d a b xm xn xk f
  | .mmat _ d a b xm xn xk f => go true d a b xm xn xk f
  | _ => s

/-- The slots a push reserves at its issue (R345). -/
def reserve (s : State) (i : Instr) : State :=
  match i with
  | .push _ d _ t =>
      let n := (s.rdX d).toNat
      s.modPush s.me.launch (s.rdX t).toNat (fun c => { c with res := c.res + BitVec.ofNat 32 n })
  | _ => s

/-- A slot's operation entering its engine queue, with the guard found before the bundle wrote anything: pending bits, landing, token, tile, locks and reservations are taken (R56, R115, R117, R119, R209, R211, R282, R345). -/
def enqueue (latch : FrontRegs) (guard : Option Bool) (e : Engine) (s : State) (o : SlotOp) : State :=
  let s := { s with ctx := { s.ctx with slot := o.slot, word := o.word, latch := some latch } }
  let s := if unprotects o.instr && s.me.shadow.isSome then s.loseProtection else s
  let n := s.me.opNum + 1
  let q : QOp :=
    { num := n, cnt := s.me.count, eng := e, slot := o.slot, bundle := s.ctx.bundle, word := o.word, instr := o.instr
      latch := latch, guard := guard, stage := .queued, cap := none
      tok := o.instr.token?.map (fun i => s.me.tokens[i.val]), acts := 0, got := none }
  let s := s.modMe (fun t =>
    let t := (pendDests o.instr).foldl (setPend true) t
    { t with
      opNum := n, ops := t.ops ++ [q]
      pend := if writesOcc o.instr then { t.pend with occ := true } else t.pend
      tokens := match o.instr.token? with
        | some i => t.tokens.set i.val ⟨.armed, 0⟩
        | none => t.tokens
      landings := match o.instr.landing? with
        | some (d, l) => t.landings ++ [⟨n, d, t.count + l, l, none, false, isFeLoad o.instr, 0, false⟩]
        | none => t.landings })
  let s := match o.instr.tile? with
    | some (t, true) => s.modCore s.ctx.core (fun c => { c with busy := c.busy.add (s.tileOf t) })
    | _ => s
  (s.enterMma n o.instr).reserve o.instr

/-- The slots of a bundle that issues: the S forms and counter forms perform, PUTS first, and the others enter their queues unless their guard is false (R85, R115, R155, log entry 58). -/
def runSlots (s : State) (ops : List SlotOp) : State :=
  let latch := s.me.front
  let gs := ops.map (fun o => (o, s.guardAt o.instr))
  let now := ops.filter (fun o => !queued o)
  let s1 := (now.filter (fun o => isPuts o.instr) ++ now.filter (fun o => !isPuts o.instr)).foldl (performNow latch) s
  gs.foldl (fun s e => match engineOf e.1.slot e.1.instr with
    | some eng => if e.2 = some false then s else enqueue latch e.2 eng s e.1
    | none => s) s1

/-! ### Protected segments (R447, R449) -/

/-- The duplicate register set taken at a segment's first bundle, when the segment is protected: `clear` says that no landing of the strand was outstanding as the bundle was selected (R447). -/
def protect (s : State) (k : Nat) (clear : Bool) : State :=
  let t := s.strand k
  let safe := match s.segRec k with
    | some r => r.safe && r.chk
    | none => false
  if t.segFresh && safe && clear then
    let pq := ((s.launchOf k).map (·.pushes)).getD []
    let dup : Shadow :=
      { front := t.front, q := t.eng.q, k := t.eng.k, qcnt := t.eng.qcnt, tokens := t.tokens, levels := t.levels
        redirects := t.redirects, pushes := pq, firstNum := t.opNum + 1, count := t.count }
    s.modStrand k (fun t => { t with shadow := some dup })
  else s

/-- A signature record: observed SEGCNT in AUX, the observed signature and SIGN in INFO (R435). -/
def signRecord (s : State) (k code : Nat) (bundle : Word32) : FaultRec :=
  let t := s.strand k
  let sign := ((s.segRec k).map (·.sign)).getD 0
  { s.recordOf k code with
    bundle := bundle.toNat, aux := t.segcnt.toNat, info := (t.segsig ^^^ 0xFFFFFFFF).toNat * 2 ^ 32 + sign.toNat }

/-- The push counters at the strand's ends put back: reservations at the producer end, HEAD at the consumer end (R447, R449, log entry 26). -/
def restorePushes (s : State) (k : Nat) (h : Shadow) : State :=
  let t := s.strand k
  let descs := ((s.imageOf k).map (·.push)).getD []
  (List.range 64).foldl (fun s q => match (descs[q]?).join with
    | none => s
    | some d =>
        let old := h.pushes.getD q PushQ.reset
        let s := if d.prod = t.member then s.modPush t.launch q (fun c => { c with res := old.res }) else s
        if d.cons = t.member then s.modPush t.launch q (fun c => { c with head := old.head }) else s) s

/-- Whether every operation of a failed protected segment has completed (R449 step 2). -/
def segmentIdle (s : State) (k first : Nat) : Bool :=
  let t := s.strand k
  t.ops.isEmpty && !s.copies.any (fun c => strandKey c.core c.strand == k && decide (first ≤ c.num)) &&
  !s.gemvs.any (fun c => strandKey c.core c.strand == k && decide (first ≤ c.num)) &&
  !s.mmas.any (fun m => strandKey m.core m.strand == k) && !s.home.any (fun r => strandKey r.core r.strand == k && decide (first ≤ r.num))

/-- The rollback of a strand whose protected segment failed its check, once the segment's operations have completed (R449, log entry 26). -/
def tryRollback (s : State) (k : Nat) : State :=
  let t := s.strand k
  match t.rolling, t.shadow with
  | some at_, some h =>
      if !s.segmentIdle k h.firstNum then s
      else
        let r := s.signRecord k 0x18 at_
        let s := s.restorePushes k h
        let s := { s with pushes := s.pushes.filter (fun p => !(strandKey p.core p.strand == k && decide (h.firstNum ≤ p.num))) }
        let s := s.modStrand k (fun t => { t with
          front := { h.front with occ := t.front.occ, draft := t.front.draft }
          eng := { t.eng with q := h.q, k := h.k, qcnt := h.qcnt }
          tokens := h.tokens, levels := h.levels, redirects := h.redirects, count := h.count
          landings := [], vland := [], withheld := t.withheld.filter (released t), group := [], shadow := none, rolling := none, rerun := true
          pc := t.segStart, segFresh := true, segcnt := 0, segsig := 0xFFFFFFFF, literal := false })
        s.raise (s.strand k).hc r
  | _, _ => s

/-- The check at a SEG bundle: its withheld writes are released when it passes; a protected segment that fails is rolled back, and any other failure ends the launch (R86, R426, R448, R449). -/
def endSegment (s : State) (k : Nat) (at_ : Word32) : State :=
  let t := s.strand k
  let bad := match s.segRec k with
    | some r => r.chk && (t.segcnt != r.icount || (t.segsig ^^^ 0xFFFFFFFF) != r.sign)
    | none => false
  if bad && t.shadow.isSome && !t.rerun then s.modStrand k (fun t => { t with rolling := some at_ })
  else if bad then s.endLaunch t.launch (s.signRecord k 0x12 at_)
  else
    (s.modStrand k (fun t => { t with
      shadow := none, rerun := false, segcnt := 0, segsig := 0xFFFFFFFF, segFresh := true })).drainWithheld

/-! ### The next program counter (R77, R172, R422) -/

/-- The program counter after a bundle at index `at_` has issued (log entry 32). -/
def advance (s : State) (k : Nat) (at_ : Word32) : State :=
  let idx := s.streamOf k
  let t := s.strand k
  let (wrapped, t) := wrapLevels at_ ((List.range 6).reverse.filter (fun j => (level t j).run)) t
  let seq := if t.pc = at_ then seqNext idx at_ else t.pc
  let (due, rest) := match t.redirects with
    | r :: rs => if r.due = t.count then (some r.target, rs) else (none, t.redirects)
    | [] => (none, [])
  s.setStrand k { t with pc := wrapped.getD (due.getD seq), redirects := rest }

/-! ### A suspension point reached (R62, R67, R175, R351) -/

/-- Whether some operation of a strand's newest bundle is a SUSPEND that may yet perform, or surely does (log entry 41). -/
def suspends (t : Strand) (sure : Bool) : Bool :=
  t.ops.any (fun o => isSuspend o && o.cnt == t.count && (if sure then o.guard == some true else o.guard != some false))

/-- A strand that has issued its last bundle before leaving: an EXIT or a SUSPEND whose guard holds, or a mark at a suspension point (R67, R351, R352, log entry 33). -/
def leaveAfter (s : State) (k : Nat) (atPoint : Bool) : State :=
  let t := s.strand k
  let exits := t.ops.any (fun o => isExit o.instr && o.guard == some true && o.cnt == t.count)
  if exits then s.modStrand k (fun t => { t with life := .exiting, redirects := [] })
  else if suspends t true || (atPoint && t.marked.isSome && !suspends t false) then
    if t.redirects.isEmpty then
      (s.modStrand k (fun t => { t with life := .rendezvous, marked := none })).tryRendezvous t.launch
    else s.violateNoSlot
  else s

/-! ### One bundle issued (R500) -/

/-- A bundle that has passed every test issues. -/
def issueBundle (s : State) (k : Nat) (v : View) (clear : Bool) : State :=
  let at_ := (s.strand k).pc
  let s := (s.protect k clear).modStrand k (fun t => { t with count := t.count + 1, segFresh := false, literal := false, skipNext := false })
  let s := s.runSlots v.ops
  let s := { s with ctx := { s.ctx with slot := 15, word := 0, latch := none, admitted := false, num := 0, res := .done } }
  let s := s.modStrand k (fun t => { t with
    group := if v.header.stop then [] else t.group ++ written v.ops
    segcnt := t.segcnt + 1, segsig := crcWord t.segsig v.header.word v.half
    perf := { t.perf with issued := t.perf.issued + 1 }, yielded := v.header.yield })
  let atPoint := v.header.seg && (match s.segRec k with
    | some r => r.susp && r.endseg == at_
    | none => false)
  let id := (s.strand k).launch
  let s := s.advance k at_
  let s := if v.header.seg then s.endSegment k at_ else s
  let live := (s.strand k).life == .running && (s.strand k).launch == id && (s.strand k).rolling.isNone
  let s := if live then s.leaveAfter k atPoint else s
  (s.settleVland k).setRes .done

/-- Whether a landing of a strand's next bundle meets another there, or a slot that writes its register: one whose guard is not false (R59, R105, log entry 82). -/
def landClash (s : State) (t : Strand) (ops : List SlotOp) : Bool :=
  let lands := (dueLandings t).filterMap landReg
  let w := written (ops.filter (fun o => s.guardAt o.instr != some false))
  repeats lands || lands.any (fun r => w.contains r)

/-- A strand's next bundle tested and issued, or stopped (R10, R59, R86, R500). -/
def issueNext (s : State) (k : Nat) : State :=
  let v := (s.acting k).view k
  let s := { (s.acting k) with ctx := { (s.acting k).ctx with seg := v.header.seg } }
  match v.trap with
  | some e => { s with ctx := { s.ctx with slot := e.slot } }.takeTrap e.code e.aux e.info
  | none =>
      let s1 := s.landDue k
      match s1.groupStop v.ops with
      | some (aux, o) => (s.atSlot o).takeTrap 4 aux o.word
      | none =>
          match s1.slotStop v.ops with
          | some (e, o) => (s.atSlot o).stopAt e
          | none =>
              if s1.landClash (s.strand k) v.ops || ((s1.strand k).segFresh && (s1.segRec k).isNone) then s.violateNoSlot
              else s1.issueBundle k v ((s.strand k).landings.isEmpty && (s.strand k).vland.isEmpty)

end State

end Sys2Proof.Machine
end

