-- ==== Sys2Proof/Machine/Engine.lean ====
section
/-! DEFINITION. The engines: how a queued operation starts and completes, landing data, walks, home requests, bank-mode changes (spec 04 R115 to R121; 09 R244; 10 R262; 13 R375; 16 R438). -/

namespace Sys2Proof.Machine

namespace State

/-- The machine acting for nobody. -/
def idle (s : State) : State := { s with ctx := Ctx.idle }

/-- The operation at the head of an engine's queue; a load sent on to its homes has left it (R115, R116). -/
def headOf (t : Strand) (e : Engine) : Option QOp := t.ops.find? (fun o => o.eng == e && o.stage != .sent)

/-- An operation in a strand's list changed. -/
def modOp (s : State) (k num : Nat) (f : QOp → QOp) : State :=
  s.modStrand k (fun t => { t with ops := t.ops.map (fun o => if o.num = num then f o else o) })

/-! ### Waits at the queue head (R118, R120, R262, R381) -/

/-- Whether a form uses an engine register in a way. -/
def usesReg (f : Ref → Bool) (r : GReg) (i : Instr) : Bool := (bodyRefs i).any (fun e => e.reg == r && f e)

/-- The engine registers of a form that order it; q0 always reads all-true and keeps nothing (R118, R181). -/
def engineRefs (f : Ref → Bool) (i : Instr) : List Ref := (bodyRefs i).filter (fun e => f e && e.reg.engine && e.reg != GReg.q 0)

/-- Whether an operation may read its engine registers: every operation of an earlier bundle and every earlier landing that writes one has written it (R85, R118). -/
def readsReady (t : Strand) (o : QOp) : Bool :=
  (engineRefs (·.rd) o.instr).all (fun e =>
    !t.ops.any (fun p => decide (p.cnt < o.cnt) && p.guard != some false && usesReg (·.wr) e.reg p.instr) &&
    !t.vland.any (fun l => GReg.v l.reg.val == e.reg && decide (l.num < o.num)))

/-- Whether an operation may write its engine registers: every other operation of its own or an earlier bundle that reads one has read it, and every earlier write has been made (R85, R118). -/
def writesReady (t : Strand) (o : QOp) : Bool :=
  (engineRefs (·.wr) o.instr).all (fun e =>
    !t.ops.any (fun p => p.num != o.num && decide (p.cnt ≤ o.cnt) && p.guard != some false &&
      usesReg (fun r => r.wr || (r.rd && p.cap.isNone)) e.reg p.instr) &&
    !t.vland.any (fun l => GReg.v l.reg.val == e.reg && decide (l.num < o.num)))

/-- Whether a form is a matrix operation. -/
def isMat : Instr → Bool
  | .mma _ _ _ _ _ _ _ _ | .mmat _ _ _ _ _ _ _ _ => true
  | _ => false

/-- Whether a form is BANKMODE. -/
def isBankmode : Instr → Bool
  | .bankmode _ _ => true
  | _ => false

/-- Whether a form is handed to a copy engine (R116, R282). -/
def isCopyForm : Instr → Bool
  | .copy _ _ _ _ _ | .copys _ _ _ _ _ | .copyg _ _ _ _ _ | .copyfe _ _ _ _ _ => true
  | _ => false

/-- Whether an operation of A, C or M stands behind an unfinished queue barrier (R120). -/
def barred (t : Strand) (o : QOp) : Bool :=
  (o.eng == .a || o.eng == .c || o.eng == .m) &&
  t.ops.any (fun p => decide (p.num < o.num) && p.guard != some false && p.instr.isBarrier)

/-- The forms that read their engine registers at the start and write at their completion: those of the vector engines and of X, and the tile moves (R118, R209, log entry 22). -/
def twoPhase (o : QOp) : Bool :=
  match o.eng with
  | .v0 | .v1 | .x => true
  | .m => !isMat o.instr
  | _ => false

/-- Whether an operation waits for the strand's other accesses: a copy waits in its copy engine instead, and what writes only at its completion waits there for its own bundle's reads; nothing leaves its queue before an earlier GEMV has read its descriptor (R262, R311). -/
def accessWaits (s : State) (k : Nat) (o : QOp) : Bool :=
  ordered o && (s.gemvUnread k o.cnt ||
    (!isCopyForm o.instr && s.blocked k (s.actOf k o)) ||
    (!isCopyForm o.instr && !isMat o.instr && !twoPhase o && s.writesHeld k (s.actOf k o)))

/-- Whether an operation waits at its queue head. -/
def headWaits (s : State) (k : Nat) (o : QOp) : Bool :=
  let t := s.strand k
  barred t o || !readsReady t o || s.accessWaits k o

/-! ### A pending guard (R119) -/

/-- An operation whose guard has just resolved false: it performs nothing, and a suspension point that it might have been suspends a marked strand (R67, R119). -/
def dropGuard (s : State) (k : Nat) (o : QOp) : State :=
  let s := s.dropOp k o
  let t := s.strand k
  if isSuspend o && t.marked.isSome then
    (if t.redirects.isEmpty then
      (s.modStrand k (fun t => { t with life := .rendezvous, marked := none })).tryRendezvous t.launch
    else (s.forOp k o).violateNoSlot)
  else s

/-- A queue head's guard: pending, or as it stands now, recorded in the operation (R119). -/
def resolveGuard (s : State) (k : Nat) (o : QOp) : Option (Bool × State) :=
  match o.guard, o.instr.guard? with
  | some b, _ => some (b, s)
  | none, none => some (true, s)
  | none, some g =>
      let t := s.strand k
      if isPending t (.p g.p.val) then none
      else
        let b := (g.p == 0 || t.front.p[g.p.val]) != g.neg
        some (b, s.modOp k o.num (fun q => { q with guard := some b }))

/-! ### Start and completion (R115, R116, R118, R209) -/

/-- An operation that has performed leaves its queue, and withheld landing writes behind it go on (R116, R118). -/
def leaveQueue (s : State) (k : Nat) (o : QOp) : State := (s.popOp k o.num).settleVland k

/-- The forms that, once sent on to homes, have left their queue: the loads (R116, R257). -/
def sendsOn : Instr → Bool
  | .ld _ _ _ _ _ | .ldN _ _ _ _ _ | .ldv _ _ _ _ | .ldvg _ _ _ _ => true
  | _ => false

/-- Whether reads of an operation wait at homes (R257). -/
def readsAway (s : State) (k num : Nat) : Bool :=
  s.home.any (fun r => strandKey r.core r.strand == k && r.num == num && (match r.kind with | .read _ _ => true | _ => false))

/-- A tile operation's image read at its start (R209, R311). -/
def readTileImage (s : State) (k : Nat) (o : QOp) : State :=
  match extents s o.instr with
  | e :: _ => (load e.va e.len s).run (fun bs s => s.modOp k o.num (fun q => { q with stage := .started, got := some bs }))
  | [] => s

/-- What becomes of an operation of one act that has been tried: it leaves its queue when it has performed, and a load whose reads wait at homes is sent on (R116, R257, R298). -/
def settleOp (s : State) (k : Nat) (o : QOp) : State :=
  if s.ctx.res = .waiting && sendsOn o.instr && s.readsAway k o.num then s.modOp k o.num (fun q => { q with stage := .sent })
  else if s.ctx.res = .waiting then
    s.modOp k o.num (fun q => if q.stage = .sent then { q with stage := .queued } else q)
  else if s.ctx.res != .done then s
  else if isBankmode o.instr then s.modOp k o.num (fun q => { q with stage := .started })
  else if isMat o.instr && s.mmas.any (fun m => strandKey m.core m.strand == k && m.num == o.num) then
    s.modOp k o.num (fun q => { q with stage := .started })
  else
    let s := match o.instr.tile? with
      | some (t, _) => if isMat o.instr then s.clearBusy (k / 4) ((s.strand k).tb + t.val) else s
      | none => s
    s.leaveQueue k o

/-- A queue head whose waits have ended begins, with its engine registers as it reads them (R118, R121). -/
def beginOp (defer : Bool) (s : State) (k : Nat) (o : QOp) : State :=
  let o := if (engineRefs (·.rd) o.instr).isEmpty && !twoPhase o || o.cap.isSome then o else { o with cap := some (s.strand k).eng }
  let s := s.modOp k o.num (fun q => { q with cap := o.cap })
  let go (s : State) : State := { (s.forOp k o) with ctx := { (s.forOp k o).ctx with defer := defer } }
  if isSuspend o && !(s.strand k).redirects.isEmpty then (go s).violateNoSlot
  else if twoPhase o then
    (if readsMem o.instr then (go s).readTileImage k o else s.modOp k o.num (fun q => { q with stage := .started }))
  else (perform o.instr ((go s).noteSide o.instr)).settleOp k o

/-- ENGINE_OP_START: the queue head of an engine resolves its guard and begins, once its waits have ended; a halted core's engines take nothing, but an operation that homes have in their lists goes on (R115 to R121, R460). -/
def startOp (s : State) (k : Nat) (e : Engine) (defer : Bool) : State :=
  match headOf (s.strand k) e with
  | none => s
  | some o =>
      if ((s.core (k / 4)).halt != 0 && !s.hasTurn k o.num) || o.stage != .queued then s
      else match s.resolveGuard k o with
        | none => s
        | some (false, s) => (s.dropGuard k o).idle
        | some (true, s) => if s.headWaits k { o with guard := some true } then s else (s.beginOp defer k o).idle

/-- ENGINE_OP_COMPLETE: the operation an engine has begun writes its destinations and leaves its queue; an MMA adds one chunk, its last ones being MMA_COMPLETE's (R118, R135, R149, R209, R223, R311). -/
def completeOp (s : State) (k : Nat) (e : Engine) : State :=
  match headOf (s.strand k) e with
  | none => s
  | some o =>
      if o.stage != .started then s
      else match s.mmas.find? (fun m => strandKey m.core m.strand == k && m.num == o.num) with
        | some m => s.stepMma m
        | none =>
            if !twoPhase o || !writesReady (s.strand k) o || s.writesHeld k (s.actOf k o) then s
            else
              let s := perform o.instr (s.forOp k o)
              if s.ctx.res != .done then s.idle
              else
                let s := match o.instr.tile? with
                  | some (t, true) => s.clearBusy (k / 4) ((s.strand k).tb + t.val)
                  | _ => s
                (s.leaveQueue k o).idle

/-- A load sent on to its homes performs once the last of them has answered (R116, R257, R263). -/
def finishSent (s : State) (k num : Nat) : State :=
  match (s.strand k).ops.find? (fun o => o.num == num && o.stage == .sent) with
  | some o => if s.readsAway k num then s else ((perform o.instr (s.forOp k o)).settleOp k o).idle
  | none => s

/-! ### Landing data and walks (R57, R375, R438, R441) -/

/-- LANDING_DATA_ARRIVAL: the datum of a landing whose access has performed reaches the landing buffer (R55, R57). -/
def dataArrives (s : State) (k n : Nat) : State :=
  s.modStrand k (fun t => { t with
    landings := t.landings.map (fun l => if l.num = n ∧ l.data.isSome then { l with arrived := true } else l) })

/-- The requester of a walk that found no leaf takes its translation fault; a copy that may not go on walks again later (R297, R375, R438, R441, R460). -/
def walkFault (s : State) (w : Walk) : State :=
  let k := strandKey w.core w.strand
  match (s.strand k).ops.find? (fun o => o.num == w.num && o.stage == .walking) with
  | some o => (match o.instr with
      | .gemv _ tk d a t => ((gemvFault tk d a t w.va (s.forOp k o)).leaveQueue k o).idle
      | _ => ((s.forOp k o).holdFault 1 w.va).idle)
  | none =>
      let mine (c n num : Nat) : Bool := strandKey c n == k && num == w.num
      match s.copies.find? (fun (c : Copy) => mine c.core c.strand c.num && !s.copyRests c) with
      | some c =>
          if !byGranule c then (s.tryCopy c).idle
          else if !c.carry.isEmpty then ((s.asCopy c).flushCarry c).idle
          else if (s.sentOf c.core c.strand c.num).isEmpty then (s.stopCopy c 1 w.va).idle else s
      | none => match s.gemvs.find? (fun (c : Gemv) => mine c.core c.strand c.num && !c.faulted) with
        | some c => (s.stopGemv c 1 w.va).idle
        | none => s

/-- The requester of a walk that found a leaf tries again. -/
def walkAgain (s : State) (w : Walk) : State :=
  s.modOp (strandKey w.core w.strand) w.num (fun o => if o.stage = .walking then { o with stage := .queued } else o)

/-- TLB_WALK_COMPLETE: a walk ends, with every miss that joined it; the cluster holds the leaf, or the requesters take a translation fault (R375). -/
def endWalk (s : State) (n : Nat) : State :=
  match s.walks[n]? with
  | none => s
  | some w =>
      let same (v : Walk) : Bool := v.cluster == w.cluster && v.hc == w.hc && v.vpage == w.vpage
      let ws := s.walks.filter same
      let s := { s with walks := s.walks.filter (fun v => !same v) }
      match s.walk w.hc w.va with
      | some e =>
          let s := s.modCluster w.cluster (fun c =>
            if c.tlb.any (fun t => leafCovers t w.hc w.va) then c else { c with tlb := c.tlb ++ [e] })
          ws.foldl walkAgain s
      | none => ws.foldl walkFault s

/-! ### Homes (R13, R257) -/

/-- The waiting requests without a line's first. -/
def dropFirst (line : Nat) : List HReq → List HReq
  | [] => []
  | q :: qs => if q.addr / 64 = line then qs else q :: dropFirst line qs

/-- What follows a request that has run: a load whose reads are all answered performs, a copy's token counts the bytes (R257, R411). -/
def afterHome (s : State) (r : HReq) : State :=
  match r.kind with
  | .read _ _ => s.finishSent (strandKey r.core r.strand) r.num
  | .write _ _ => (match s.copies.find? (fun (c : Copy) => c.core == r.core && c.strand == r.strand && c.num == r.num) with
      | some c => s.noteTok c
      | none => match s.gemvs.find? (fun (c : Gemv) => c.core == r.core && c.strand == r.strand && c.num == r.num) with
        | some c => if c.out.isSome then s.noteGemv c else s
        | none => s)
  | _ => s

/-- HOME_REQUEST_RUN: the first request waiting at a line's home runs while the line is not busy; a check-out waits for a way of its cluster, and a turn for its act (R13, R257, R306, R380). -/
def runNext (s : State) (line : Nat) : State :=
  if s.busyLines.mem line then s
  else match s.home.find? (fun r => r.addr / 64 == line) with
    | none => s
    | some r =>
        if r.kind == .turn || (r.kind == .chkout && s.wayWaits (clusterOf r.core) line) then s
        else ({ s with home := dropFirst line s.home }.runHome r).afterHome r

/-! ### Bank-mode changes (R244, R298) -/

/-- Whether an extent of a core's access lies partly in a bank. -/
def inBank (core cl b : Nat) (e : Extent) : Bool :=
  match spotOf core e.va with
  | .scr addr => (banksOf addr e.len).contains (cl, b)
  | .fifo c n => e.len != 0 && c == cl && n == b
  | _ => false

/-- Whether an access admitted before a change of a bank has still to perform there: one of any strand's queued operations but BANKMODEs, of the changing strand's only those issued before the change; a withheld write, a copy, a GEMV, a matrix operation's read, or a push (R244, R448). -/
def bankInUse (s : State) (cl b : Nat) (c : Change) : Bool :=
  s.strands.any (fun e => e.2.ops.any (fun o =>
    ordered o && !isBankmode o.instr && (c.strand != some e.1 || decide (o.num < c.num)) &&
    (s.actOf e.1 o).exts.any (inBank (e.1 / 4) cl b))) ||
  s.strands.any (fun e => e.2.withheld.any (fun w => decide (bankBase ≤ w.addr) && (banksOf w.addr (max 1 w.bytes.length)).contains (cl, b))) ||
  s.copies.any (fun x => decide (x.core < 128) && (c.strand != some (strandKey x.core x.strand) || decide (x.num < c.num)) &&
    (s.copyAct x).exts.any (inBank x.core cl b)) ||
  s.gemvs.any (fun x => decide (x.core < 128) && (c.strand != some (strandKey x.core x.strand) || decide (x.num < c.num)) &&
    (s.gemvAct x).exts.any (inBank x.core cl b)) ||
  s.mmas.any (fun m => !m.consumed && m.banks.contains (cl * 128 + b) &&
    (c.strand != some (strandKey m.core m.strand) || decide (m.num < c.num))) ||
  s.pushes.any (fun p => match s.launch? p.launch with
    | some l => (match ((s.image? l.image).bind (fun i => (i.push[p.queue]?).join)).bind (fun d => ringSlot l d p.slot) with
      | some a => bankOf a == (cl, b)
      | none => false)
    | none => false)

/-- A way of a cluster cache given up: lines checked out in it are checked in, software-flushed lines send their dirty bytes, every line leaves (R244). -/
def vacateWay (s : State) (cl b : Nat) : State :=
  let s := (List.range 16).foldl (fun s i =>
    let k := cl * 16 + i
    ((s.strand k).held.filter (fun h => h.way == b)).foldl (fun s h => s.checkIn k h) s) s
  ((s.cluster cl).lines.filter (fun e => e.2.way == b)).foldl (fun s e => s.evictLine cl e.1) s

/-- Whether a way given up would leave work at homes: a line of it has a write of the cluster waiting, or bytes to send to a home that is not free (R244, R306). -/
def wayBusy (s : State) (cl b : Nat) : Bool :=
  ((s.cluster cl).lines.filter (fun e => e.2.way == b)).any (fun e =>
    s.pendingWrite cl e.1 || (e.2.dirty != 0 && !s.homeFree e.1)) ||
  (List.range 16).any (fun i => (s.strand (cl * 16 + i)).held.any (fun h => h.way == b && h.twin.isSome && !s.homeFree h.line))

/-- A bank's contents converted and its new mode and owner taken (R244). -/
def convertBank (s : State) (cl b mode : Nat) (owner : Option Nat) : State :=
  let old := (s.bank cl b).mode
  let s := if old = mode then s
    else
      let s := if old = 1 then s.vacateWay cl b else s
      (s.bankClear (bankAddr cl (b * 65536)) 65536).modBank cl b (fun k => { k with fhead := 0, ftail := 0 })
  s.modBank cl b (fun k => { k with mode := mode, owner := if mode = 1 then none else owner, chg := none })

/-- BANK_MODE_CHANGE: a change in progress ends once every admitted access has performed and the homes of a way given up can take its bytes, and its BANKMODE leaves its queue (R244, R298). -/
def changeBank (s : State) (cl b : Nat) : State :=
  match (s.bank cl b).chg with
  | none => s
  | some c =>
      if s.bankInUse cl b c || ((s.bank cl b).mode == 1 && c.mode != 1 && s.wayBusy cl b) then s
      else
        let s := s.convertBank cl b c.mode c.owner
        match c.strand with
        | some k => (s.popOp k c.num).settleVland k
        | none => s

end State

/-! ### Meanings -/

/-- ENGINE_OP_START (R118). -/
def execEngineOpStart (core : Fin 128) (strand : Fin 4) (e : Engine) (defer : Bool) (s : State) : Host.Outcome State Fault Refusal :=
  .next (s.startOp (strandKey core.val strand.val) e defer)

/-- ENGINE_OP_COMPLETE (R135). -/
def execEngineOpComplete (core : Fin 128) (strand : Fin 4) (e : Engine) (s : State) : Host.Outcome State Fault Refusal :=
  .next (s.completeOp (strandKey core.val strand.val) e)

/-- LANDING_DATA_ARRIVAL (R57). -/
def execLandingDataArrival (core : Fin 128) (strand : Fin 4) (n : Nat) (s : State) : Host.Outcome State Fault Refusal :=
  .next (s.dataArrives (strandKey core.val strand.val) n)

/-- TLB_WALK_COMPLETE (R375). -/
def execTlbWalkComplete (n : Nat) (s : State) : Host.Outcome State Fault Refusal := .next (s.endWalk n)

/-- HOME_REQUEST_RUN (R13). -/
def execHomeRequestRun (line : Nat) (s : State) : Host.Outcome State Fault Refusal := .next (s.runNext line)

/-- BANK_MODE_CHANGE (R244). -/
def execBankModeChange (cluster : Fin 32) (bank : Fin 128) (s : State) : Host.Outcome State Fault Refusal :=
  .next (s.changeBank cluster.val bank.val)

end Sys2Proof.Machine
end

