-- ==== Sys2Proof/Machine/Select.lean ====
section
/-! DEFINITION. The switch-on-stall selector: one cycle of one core (spec 02 R57 to R61; 12 R341 to R343; 15 R427; 16 R460). -/

namespace Sys2Proof.Machine

namespace State

/-- Whether a front-end position issues as a core: it is ACTIVE, and its front end is alive (R22, R25, R34). -/
def active (s : State) (core : Nat) : Bool := (s.bindEnt core).role == 0 && (s.deck (core / 32)).health.feok.getLsbD (core % 32)

/-- How strand i of a core stands. -/
def readyOn (s : State) (core i : Nat) : Ready := s.ready (strandKey core i)

/-- The class of a strand's launch; a smaller number is a higher class (R342). -/
def classOn (s : State) (core i : Nat) : Nat := ((s.launchOf (strandKey core i)).map (·.cls)).getD 3

/-- The ready strands of a core but one. -/
def othersReady (s : State) (core cur : Nat) : List Nat :=
  (List.range 4).filter (fun i => i != cur && s.readyOn core i != .out)

/-- Whether the current strand is displaced (R342). -/
def displaced (s : State) (core cur : Nat) (yielded : Bool) : Bool :=
  let c := s.classOn core cur
  (s.othersReady core cur).any (fun i => decide (s.classOn core i < c) || (yielded && decide (s.classOn core i ≤ c)))

/-- The candidates of R343: the ready strands but the current one, of the highest class among them. -/
def candidates (s : State) (core cur : Nat) : List Nat :=
  let rs := s.othersReady core cur
  let best := rs.foldl (fun m i => min m (s.classOn core i)) 4
  rs.filter (fun i => s.classOn core i == best)

/-- The candidate of the oldest launch, the first of equals (R343). -/
def oldestOf (s : State) (core : Nat) : List Nat → Option Nat
  | [] => none
  | i :: is =>
      match oldestOf s core is with
      | none => some i
      | some j =>
          if (s.strand (strandKey core j)).launch < (s.strand (strandKey core i)).launch then some j else some i

/-- Choose: greedy-then-oldest, or round-robin from the strand after the current one (R341, R343). -/
def choose (s : State) (core cur : Nat) (cand : List Nat) : Option Nat :=
  if (s.core core).policy then ([1, 2, 3].map (fun d => (cur + d) % 4)).find? (fun i => cand.contains i)
  else s.oldestOf core cand

/-- A cycle in which the current strand does not issue: a switch, or no strand ready (R61, R343). -/
def switchCycle (s : State) (core : Nat) : State :=
  let cur := (s.core core).cur
  match s.choose core cur (s.candidates core cur) with
  | none => s.modCore core (fun c => { c with cycle := c.cycle + 1, idlecyc := c.idlecyc + 1 })
  | some i =>
      let s := s.modCore core (fun c => { c with cur := i, cycle := c.cycle + 1, swcyc := c.swcyc + 1 })
      let k := strandKey core cur
      if resident (s.strand k) then
        s.modStrand k (fun t => { t with perf := { t.perf with swout := t.perf.swout + 1 } })
      else s

/-- A frozen cycle caused by a strand's late landings: the landings of its next bundle that are absent are late (R57, R60, R427, log entry 28). -/
def frozenCycle (s : State) (core cur : Nat) : State :=
  let s := s.modCore core (fun c => { c with freeze := true, cycle := c.cycle + 1, frzcyc := c.frzcyc + 1 })
  s.modStrand (strandKey core cur) (fun t => { t with
    perf := { t.perf with froze := t.perf.froze + 1 }
    landings := t.landings.map (fun l =>
      if l.due == t.count + 1 && !(l.arrived && l.data.isSome) then { l with late := true } else l) })

/-- What waits on a condition that may have come about: released writes, a rendezvous, a rollback, withheld landing writes, a copy-schedule entry to release and arm (R63, R118, R292, R414, R448, R449). -/
def settleStrand (s : State) (k : Nat) : State :=
  let s := if (s.strand k).withheld.isEmpty then s else { (s.acting k).drainWithheld with ctx := s.ctx }
  let t := s.strand k
  let s := if t.life == .rendezvous then s.tryRendezvous t.launch else s
  let s := if t.rolling.isSome then s.tryRollback k else s
  let s := if t.life == .free || t.life == .placed then s else s.armEntry k
  if t.vland.isEmpty then s else s.settleVland k

/-- One cycle of a core that no halt and no freeze holds, its current strand having yielded in the cycle before or not (R343). -/
def runCycle (s : State) (core : Nat) (yielded : Bool) : State :=
  let cur := (s.core core).cur
  let k := strandKey core cur
  let r := s.ready k
  if r == .out || s.displaced core cur yielded then s.switchCycle core
  else match r with
    | .late => s.frozenCycle core cur
    | .bubble =>
        (s.modStrand k (fun t => { t with literal := true })).modCore core (fun c => { c with
          cycle := c.cycle + 1, bubcyc := c.bubcyc + 1 })
    | _ =>
        let s := s.issueNext k
        if s.ctx.res == .done then s.modCore core (fun c => { c with cycle := c.cycle + 1 })
        else s.switchCycle core

/-- The yield marks of a core's strands, which last one cycle, cleared (R342). -/
def clearYields (s : State) (core : Nat) : State :=
  (List.range 4).foldl (fun s i =>
    if (s.strand (strandKey core i)).yielded then s.modStrand (strandKey core i) (fun t => { t with yielded := false }) else s) s

/-- SELECTOR_CYCLE: one cycle of a core that issues (R343). -/
def cycle (s : State) (core : Nat) : State :=
  if !s.active core then s
  else if (s.core core).halt != 0 then
    (s.clearYields core).modCore core (fun c => { c with cycle := c.cycle + 1, frzcyc := c.frzcyc + 1 })
  else
    let s := (List.range 4).foldl (fun s i => s.settleStrand (strandKey core i)) s
    let cur := (s.core core).cur
    let k := strandKey core cur
    let yielded := (s.strand k).yielded
    let s := s.clearYields core
    if (s.core core).freeze && freezeLasts (s.strand k) then s.frozenCycle core cur
    else ((s.modCore core (fun c => { c with freeze := false })).runCycle core yielded).idle

end State

/-- SELECTOR_CYCLE (R343). -/
def execSelectorCycle (core : Fin 128) (s : State) : Host.Outcome State Fault Refusal := .next (s.cycle core.val)

end Sys2Proof.Machine
end

