-- ==== Sys2Proof/Machine/Bind.lean ====
section
/-! DEFINITION. The binder: bindings of a deck, widths, cluster resets, single-part recovery and its replays (spec 01 R20 to R36; 13 R355 to R357, R368; 16 R453, R454; 17 R474). -/

namespace Sys2Proof.Machine

/-! ### The two passes of the binder (R23) -/

/-- Whether a half of a deck is healthy (R356). -/
def Health.halfOk (h : Health) (i : Nat) : Bool := h.halfok.getLsbD i
/-- Whether a front end of a deck is alive (R356). -/
def Health.feOk (h : Health) (i : Nat) : Bool := h.feok.getLsbD i

/-- The half index at a position of a column's chain (R19, R23). -/
def chainHalf (j p : Nat) : Nat := (p / 2 * 4 + j) * 2 + p % 2

/-- The first two healthy positions of a column's chain from one position on, below a bound. -/
def chainTake (h : Health) (j k bound : Nat) : List Nat :=
  ((List.range 18).filter (fun p => decide (k ≤ p ∧ p < bound) && h.halfOk (chainHalf j p))).take 2

/-- Pass 1 down a column from a row on: `fuel` rows left, the next free position, and the bindings as front end, low half, high half (R23). -/
def passOne (h : Health) (j : Nat) : (fuel i k : Nat) → List (Nat × Nat × Nat)
  | 0, _, _ => []
  | n + 1, i, k =>
      if !h.feOk (4 * i + j) then passOne h j n (i + 1) k
      else
        let k := max k (2 * i)
        match chainTake h j k (2 * (i + 2)) with
        | [p, q] => (4 * i + j, chainHalf j p, chainHalf j q) :: passOne h j n (i + 1) (q + 1)
        | _ => passOne h j n (i + 1) k

/-- The halves front end (i, j) can reach, slab by slab, side A before side B (R20, R23). -/
def reachHalves (i j : Nat) : List Nat :=
  let slab (a b : Nat) : List Nat := [(a * 4 + b) * 2, (a * 4 + b) * 2 + 1]
  slab i j ++ slab (i + 1) j ++ (if j = 0 then [] else slab i (j - 1)) ++ (if j = 3 then [] else slab i (j + 1))

/-- Pass 2: one unfilled front end adopts the first two reachable halves that are healthy and unbound (R23). -/
def passTwo (h : Health) (bs : List (Nat × Nat × Nat)) (f : Nat) : List (Nat × Nat × Nat) :=
  if !h.feOk f || bs.any (fun b => b.1 == f) then bs
  else match ((reachHalves (f / 4) (f % 4)).filter (fun x =>
      h.halfOk x && !bs.any (fun b => b.2.1 == x || b.2.2 == x))).take 2 with
    | [p, q] => bs ++ [(f, p, q)]
    | _ => bs

/-- Every binding of a deck: front end, low half, high half (R23). -/
def bindDeck (h : Health) : List (Nat × Nat × Nat) :=
  (List.range 32).foldl (passTwo h) ((List.range 4).flatMap (fun j => passOne h j 8 0 0))

/-! ### Binding entries (R25, R34, R36) -/

/-- The halves an entry binds (R34). -/
def BindEnt.halves (e : BindEnt) : Option (Nat × Nat) :=
  if e.role = 0 ∨ e.role = 1 then some (e.halflo.toNat, e.halfhi.toNat) else none

/-- The entry of a position in a cluster of a width, but for its generation (R25, R34). -/
def makeEnt (id width : Nat) (alive : Bool) (b : Option (Nat × Nat)) : BindEnt :=
  let j := id % 4
  let w := BitVec.ofNat 2 (State.wcodeOf width)
  match b with
  | none => { bgen := 0, wcode := w, role := if alive then 2 else 3, driver := BitVec.ofNat 7 id
              repaired := false, halfhi := 0, halflo := 0 }
  | some (lo, hi) =>
      let d := id - j % width
      { bgen := 0, wcode := w, role := if d = id then 0 else 1, driver := BitVec.ofNat 7 d
        repaired := lo / 2 != id % 32 || hi / 2 != id % 32, halfhi := BitVec.ofNat 7 hi, halflo := BitVec.ofNat 7 lo }

namespace State

def modLife (s : State) (f : Lifetime → Lifetime) : State := { s with plat := { s.plat with life := f s.plat.life } }

/-- Whether a deck has joined (R473, R474). -/
def joined (s : State) (d : Nat) : Bool := s.plat.bringup.decks.getLsbD d

/-- The halves a position has now. -/
def halvesOf (s : State) (id : Nat) : Option (Nat × Nat) := (s.bindEnt id).halves

/-- Whether the front end of a position is alive (R22). -/
def feAlive (s : State) (id : Nat) : Bool := (s.deck (id / 32)).health.feOk (id % 32)

/-- The halves a position may keep: none once its front end is dead (R22, R26). -/
def aliveHalves (s : State) (id : Nat) : Option (Nat × Nat) := if s.feAlive id then s.halvesOf id else none

/-- Whether a position is UNBOUND or dead, which makes its cluster partial (R26). -/
def unfilled (s : State) (id : Nat) : Bool := (s.aliveHalves id).isNone
/-- Whether a cluster has such a position (R26). -/
def partialCluster (s : State) (cl : Nat) : Bool := (List.range 4).any (fun j => s.unfilled (4 * cl + j))

/-- The entries of a cluster's positions at a width for given halves, but for their generations (R25, R34). -/
def clusterEnts (s : State) (cl width : Nat) (halves : Nat → Option (Nat × Nat)) : List (Nat × BindEnt) :=
  (List.range 4).map (fun j =>
    let id := 4 * cl + j
    (id, makeEnt id width (s.feAlive id) (halves id)))

/-- The entries of some that differ from those written, with the generation that `adv` rewrites give them (R36, log entry 30). -/
def changed (s : State) (adv : Nat) (es : List (Nat × BindEnt)) : List (Nat × BindEnt) :=
  (es.filter (fun e => !decide ({ e.2 with bgen := (s.bindEnt e.1).bgen } = s.bindEnt e.1))).map (fun e =>
    (e.1, { e.2 with bgen := (s.bindEnt e.1).bgen + BitVec.ofNat 8 adv }))

/-- Entries written, with the widths that their WCODE gives their clusters (R25, R34, R36). -/
def putEnts (s : State) (es : List (Nat × BindEnt)) : State :=
  es.foldl (fun s e =>
    { s with binding := s.binding.set e.1 e.2 }.modCluster (clusterOf e.1) (fun c => { c with width := 2 ^ e.2.wcode.toNat })) s

/-- The entry a rebind or repair first writes: UNBOUND, its generation advanced (R36). -/
def midEnt (s : State) (id : Nat) : BindEnt :=
  let old := s.bindEnt id
  { old with bgen := old.bgen + 1, role := 2, driver := BitVec.ofNat 7 id, repaired := false, halfhi := 0, halflo := 0 }

/-- The first step of a rebind or repair: every affected entry is written UNBOUND, and the binder keeps their final values (R36). -/
def beginJob (s : State) (d : Nat) (es : List (Nat × BindEnt)) (rebind : Option Nat) (resets : List Nat) (info : Nat) : State :=
  let es := s.changed 2 es
  let mid := es.map (fun e => (e.1, s.midEnt e.1))
  (s.putEnts mid).modDeck d (fun k => { k with job := some ⟨es, rebind, resets, info⟩ })

/-- The width a cluster takes: 1 with an UNBOUND or dead position (R26, R29). -/
def widthFor (s : State) (cl width : Nat) : Nat := if s.partialCluster cl then 1 else width

/-- The entries that the second step of a rebind or repair writes: those the binder keeps, but a front end that has died since binds no half and leaves its cluster at width 1 (R22, R26, R36). -/
def finalEnts (s : State) (j : BindJob) : List (Nat × BindEnt) :=
  ((j.ents.map (fun e => clusterOf e.1)).eraseDups).flatMap (fun cl =>
    let kept (id : Nat) : Option BindEnt := (j.ents.find? (fun e => e.1 == id)).map (·.2)
    let halves (id : Nat) : Option (Nat × Nat) := if s.feAlive id then (match kept id with | some e => e.halves | none => s.halvesOf id) else none
    let ids := (List.range 4).map (4 * cl + ·)
    let code := (((ids.filterMap kept).head?).map (fun e => e.wcode.toNat)).getD 0
    let new := s.clusterEnts cl (if ids.all (fun id => (halves id).isSome) then 2 ^ code else 1) halves
    (new.filterMap (fun e => (kept e.1).map (fun k => (e.1, { e.2 with bgen := k.bgen })))) ++
    s.changed 2 (new.filter (fun e => (kept e.1).isNone)))

/-- The bindings as the rebinds and repairs that have begun will leave them (R36). -/
def jobsDone (s : State) : State :=
  (List.range 4).foldl (fun s d => match (s.deck d).job with
    | some j => (s.putEnts (s.finalEnts j)).modDeck d (fun k => { k with job := none })
    | none => s) s

/-- A cluster as a rebind to a width would leave it (R26, R29). -/
def rebindTo (s : State) (cl width : Nat) : State :=
  (s.putEnts (s.changed 2 (s.clusterEnts cl (s.widthFor cl width) s.aliveHalves))).modCluster cl (fun c => { c with mark := none })

/-! ### Power gating (R474) -/

/-- The halves that a deck's entries bind. -/
def boundHalves (s : State) (d : Nat) : List Nat :=
  (List.range 32).flatMap (fun i => match s.halvesOf (32 * d + i) with
    | some (a, b) => [a, b]
    | none => [])

/-- The spare and UNBOUND halves of a deck gated (R474). -/
def gateUnbound (s : State) (d : Nat) : State :=
  let hs := s.boundHalves d
  s.modDeck d (fun k => { k with gated := ((List.range 72).filter (fun h => !hs.contains h)).foldl NSet.add k.gated })

/-- Wake tests owed for the gated ones of some halves (R474). -/
def oweTests (s : State) (d : Nat) (hs : List Nat) : State :=
  hs.foldl (fun s h =>
    if hh : h < 72 then
      s.modDeck d (fun k =>
        if k.gated.mem h && !k.tests.contains (.half ⟨h, hh⟩) then { k with tests := k.tests ++ [.half ⟨h, hh⟩] } else k)
    else s) s

/-! ### Cluster reset and replay (R368, R453, R454) -/

/-- Every bank of a cluster returned to its cold-reset state; cached lines are discarded, and strand 0 is current on each core (R343, R368, log entry 43). -/
def resetCluster (s : State) (cl : Nat) : State :=
  let s := s.modCluster cl (fun c => { c with lines := [] })
  let s := (List.range 128).foldl (fun s b => s.bankReset cl b) s
  (List.range 4).foldl (fun s j => s.modCore (4 * cl + j) (fun c => { c with cur := 0, freeze := false })) s

/-- Whether a launch may be replayed: no write region of its record meets a read region, and SIDE is clear (R454). -/
def replayable (l : Launch) : Bool :=
  !l.side && !l.regions.any (fun a => a.present && a.write &&
    l.regions.any (fun b => b.present && !b.write && decide (a.base.toNat < b.base.toNat + b.len ∧ b.base.toNat < a.base.toNat + a.len)))

/-- A record about a launch as a whole (R436). -/
def launchRecord (l : Launch) (code aux info : Nat) : FaultRec :=
  { ctxRecord l.hc code l.stream aux info with seq := l.seq.toNat, launch := some l.id }

/-- A stopped launch as its replay finds it: READY at its age, from its start vector or from its last continuation records (R454, log entry 34). -/
def Launch.again (l : Launch) : Launch :=
  let back (m : Member) : Member := { m with exited := m.record.isEmpty }
  { l with
    st := .ready, waited := false, thermal := false, markAt := none, owed := none, replays := l.replays + 1
    members := if l.everSusp then l.members.map back else [] }

/-- The records of a launch's held and precise faults that still wait dropped: what they hold is gone (R437, R453). -/
def dropRecords (s : State) (h id : Nat) : State :=
  s.modHctx h (fun c => { c with waiting := c.waiting.filter (fun r => !(r.launch == some id && (r.cls == 1 || r.cls == 2))) })

/-- The stopped copies that the last suspension of a launch saved (R454, log entry 34). -/
def savedCopies (l : Launch) : List Copy := if l.everSusp then l.members.flatMap (fun (m : Member) => m.copies) else []
/-- The stopped GEMVs that the last suspension of a launch saved (R454, log entry 34). -/
def savedGemvs (l : Launch) : List Gemv := if l.everSusp then l.members.flatMap (fun (m : Member) => m.gemvs) else []

/-- Whether a copy or GEMV has a pending fault in a context. -/
def faultOpen (s : State) (h id : Nat) : Bool := (s.hctx h).pend.any (fun p => p.subj == .copy id)

/-- The pending faults of a launch freed, but those of the copies it is to have again: they hold no strand (R438, R441, R445 step 3, log entry 34). -/
def freeHeld (s : State) (l : Launch) : State :=
  let ids := (savedCopies l).map (fun (c : Copy) => c.id) ++ (savedGemvs l).map (fun (c : Gemv) => c.id)
  s.modHctx l.hc (fun c => { c with pend := c.pend.filter (fun p => p.launch != l.id || ids.any (fun i => p.subj == .copy i)) })

/-- The stopped copies and GEMVs that a launch's last suspension saved put back; one whose fault has been answered since runs on (R442, R454, log entry 34). -/
def putSaved (s : State) (l : Launch) : State :=
  { s with
    copies := s.copies ++ (savedCopies l).map (fun (c : Copy) => { c with faulted := s.faultOpen l.hc c.id })
    gemvs := s.gemvs ++ (savedGemvs l).map (fun (c : Gemv) => { c with faulted := s.faultOpen l.hc c.id }) }

/-- A launch stopped by a part's failure and judged: replayed, with the stopped copies its last suspension saved, LOST, or FAILED at its ninth stop, each with its record of CODE 0x19; checked-out lines are discarded (R453, R454, log entry 60). -/
def stopForPart (s : State) (info : Nat) (l : Launch) : State :=
  let s := (((s.launchStrands l.id).foldl evictStrand s).dropCopies l.id).dropRecords l.hc l.id
  let ended := s.freeFaults l.hc l.id
  if l.status.isSome then ended
  else if 8 ≤ l.replays then
    ((ended.raise l.hc (launchRecord l 0x19 0 info)).raise l.hc (launchRecord l 0x15 l.replays 0)).setStatus l.id (.failed 0x15)
  else if replayable l then
    (((s.freeHeld l).putSaved l).raise l.hc (launchRecord l 0x19 1 info)).modLaunch l.id Launch.again
  else (ended.raise l.hc (launchRecord l 0x19 0 info)).setStatus l.id .lost

/-- Some clusters reset: every launch with a member placed there, one that has exited since among them, is stopped on every cluster it occupies and judged (R453). -/
def failClusters (s : State) (cls : List Nat) (info : Nat) : State :=
  let here (l : Launch) : Bool := (s.launchStrands l.id).any (fun k => cls.contains (k / 16)) ||
    (placedMembers l).any (fun e => cls.contains (clusterOf e.1.core))
  let s := (s.launches.filter here).foldl (fun s l => s.stopForPart info l) s
  cls.foldl resetCluster s

/-! ### The binder's runs (R24, R357) -/

/-- The entries of a deck from its health (R23). -/
def deckEnts (s : State) (d : Nat) : List (Nat × BindEnt) :=
  let bs := bindDeck (s.deck d).health
  let halves (id : Nat) : Option (Nat × Nat) := (bs.find? (fun b => b.1 == id % 32)).map (·.2)
  (List.range 8).flatMap (fun i =>
    let cl := 8 * d + i
    let whole := (List.range 4).all (fun j => (halves (4 * cl + j)).isSome)
    s.clusterEnts cl (if whole then (s.cluster cl).width else 1) halves)

/-- The index of a unit in its deck (R435). -/
def unitIndex : HealthUnit → Nat
  | .half h => h.val
  | .fe f => f.val

/-- The repair of a deck begun: its bindings are to be written again, and the clusters that hold a changed position to be reset (R24, R36, R453). -/
def repairDeck (s : State) (d : Nat) (u : HealthUnit) : State :=
  let es := s.deckEnts d
  s.beginJob d es none (((es.filter (fun e => e.2.halves != s.halvesOf e.1)).map (fun e => clusterOf e.1)).eraseDups) (unitIndex u)

/-- The second step of a rebind or repair: the final entries, by the health of the front ends at that time; a rebound cluster loses its mark, a repair's clusters are reset, gated halves that a repair has bound owe their wake tests, and halves it has left are gated (R36, R453, R474). -/
def endJob (s : State) (d : Nat) : State :=
  match (s.deck d).job with
  | none => s
  | some j =>
      let s := (s.putEnts (s.finalEnts j)).modDeck d (fun k => { k with job := none })
      match j.rebind with
      | some cl => s.modCluster cl (fun c => { c with mark := none })
      | none => ((s.failClusters j.resets j.info).oweTests d (s.boundHalves d)).gateUnbound d

/-- The repair a binder takes next: it goes ahead of every rebind that waits (R357). -/
def nextRepair (rs : List BindReq) : Option HealthUnit :=
  rs.findSome? (fun r => match r with | .repair u => some u | _ => none)

/-- BINDER_RUN: the binder ends the rebind or repair it has begun, or takes its next request, a repair first; the bring-up binding waits for every wake test, and with it the deck joins, its spare and UNBOUND halves gated (R23, R36, R357, R474). A rebind begins by REBIND. -/
def runBinder (s : State) (d : Nat) : State :=
  let rs := (s.deck d).reqs
  if s.plat.bringup.fail then s
  else if (s.deck d).job.isSome then s.endJob d
  else if rs.contains .bringup then
    if (s.deck d).tests.isEmpty then
      let keep (r : BindReq) : Bool := r != .bringup
      let s := s.modDeck d (fun k => { k with reqs := k.reqs.filter keep })
      let s := (s.putEnts (s.changed 1 (s.deckEnts d))).gateUnbound d
      let b := s.plat.bringup
      { s with plat := { s.plat with bringup := { b with decks := b.decks ||| (1#4 <<< d) } } }
    else s
  else match nextRepair rs with
    | some u => (s.modDeck d (fun k => { k with reqs := k.reqs.erase (.repair u) })).repairDeck d u
    | none => s

/-! ### Health (R22, R30, R356, R453) -/

/-- Whether a unit's health bit is set. -/
def unitOk (s : State) (d : Nat) : HealthUnit → Bool
  | .half h => (s.deck d).health.halfOk h.val
  | .fe f => (s.deck d).health.feOk f.val

/-- One more retired part, at most 255 (R431). -/
def countRetired (u : HealthUnit) (l : Lifetime) : Lifetime :=
  match u with
  | .half _ => { l with halfret := satSucc l.halfret }
  | .fe _ => { l with feret := satSucc l.feret }

/-- A unit found failed: its bit is cleared and it counts as retired; in a deck that has joined, the repair is requested (R24, R30, R356, R431). -/
def retire (s : State) (d : Nat) (u : HealthUnit) : State :=
  if !s.unitOk d u then s
  else
    let h := (s.deck d).health
    let h := match u with
      | .half i => { h with halfok := h.halfok &&& ~~~(1#72 <<< i.val) }
      | .fe i => { h with feok := h.feok &&& ~~~(1#32 <<< i.val) }
    let s := (s.modDeck d (fun k => { k with health := h })).modLife (countRetired u)
    if s.joined d then s.modDeck d (fun k => { k with reqs := k.reqs ++ [.repair u] }) else s

/-- WAKE_TEST: an owed test ends; a half that passes leaves power gating, and a unit that fails is retired (R30, R356, R474). -/
def endTest (s : State) (d : Nat) (u : HealthUnit) (ok : Bool) : State :=
  if !(s.deck d).tests.contains u || s.plat.bringup.fail then s
  else
    let s := s.modDeck d (fun k => { k with
      tests := k.tests.erase u
      gated := match u with
        | .half h => k.gated.del h.val
        | .fe _ => k.gated })
    if ok then s else s.retire d u

/-- PART_FAILURE: a unit is found failed, and the repair follows unless bring-up has still to bind the deck (R24, R453, log entry 44). -/
def partFails (s : State) (d : Nat) (u : HealthUnit) : State :=
  if !s.unitOk d u then s
  else
    let s := s.retire d u
    if s.joined d then s.runBinder d else s

/-! ### Rebinding and power gating (R29, R30, R474) -/

/-- The halves bound to a cluster's positions. -/
def clusterHalves (s : State) (cl : Nat) : List Nat :=
  (List.range 4).flatMap (fun j => match s.halvesOf (4 * cl + j) with
    | some (a, b) => [a, b]
    | none => [])

/-- Whether a rebind is the next request its binder takes (R357). -/
def rebindNext (s : State) (cl : Nat) : Bool :=
  let k := s.deck (cl / 8)
  k.job.isNone && !k.reqs.contains .bringup && (nextRepair k.reqs).isNone && k.reqs.head? == some (.rebind cl)

/-- REBIND: the binder takes the rebind of a marked empty cluster, its gated halves waking, and its first step writes the entries UNBOUND; a half that fails its wake test leaves the cluster at width 1 and is repaired; the next REBIND or BINDER_RUN ends the rebind (R29, R30, R36, R357). -/
def rebindCluster (s : State) (cl : Nat) (bad : Option (Fin 72)) : State :=
  let d := cl / 8
  match (s.cluster cl).mark with
  | none => s
  | some w =>
      if ((s.deck d).job.bind (·.rebind)) = some cl then s.endJob d
      else if s.clusterBusy cl || !s.rebindNext cl then s
      else
        let hs := s.clusterHalves cl
        let begin_ (s : State) (w : Nat) : State :=
          let s := s.modDeck d (fun k => { k with
            reqs := k.reqs.erase (.rebind cl), gated := k.gated.filter (fun h => !hs.contains h) })
          s.beginJob d (s.clusterEnts cl (s.widthFor cl w) s.aliveHalves) (some cl) [] 0
        match bad with
        | none => begin_ s w
        | some h => if hs.contains h.val && (s.deck d).gated.mem h.val then (begin_ s 1).retire d (.half h) else s

/-- Whether a half serves a core with a resident strand. -/
def halfUsed (s : State) (d h : Nat) : Bool :=
  (List.range 32).any (fun i =>
    let id := 32 * d + i
    (match s.halvesOf id with | some (a, b) => a == h || b == h | none => false) &&
    (List.range 4).any (fun n => resident (s.strand (strandKey (s.bindEnt id).driver.toNat n))))

/-- HALF_POWER_GATE: a half of a joined deck that no resident strand uses is gated, but while its binder is at work (R474). -/
def gateHalf (s : State) (d h : Nat) : State :=
  if !s.joined d || s.halfUsed d h || (s.deck d).job.isSome then s else s.modDeck d (fun k => { k with gated := k.gated.add h })

end State

/-! ### Meanings -/

/-- WAKE_TEST (R356). -/
def execWakeTest (deck : Fin 4) (u : HealthUnit) (ok : Bool) (s : State) : Host.Outcome State Fault Refusal :=
  .next (s.endTest deck.val u ok)

/-- BINDER_RUN (R23). -/
def execBinderRun (deck : Fin 4) (s : State) : Host.Outcome State Fault Refusal := .next (s.runBinder deck.val)

/-- PART_FAILURE (R453). -/
def execPartFailure (deck : Fin 4) (u : HealthUnit) (s : State) : Host.Outcome State Fault Refusal :=
  .next (s.partFails deck.val u)

/-- REBIND (R29). -/
def execRebind (cluster : Fin 32) (bad : Option (Fin 72)) (s : State) : Host.Outcome State Fault Refusal :=
  .next (s.rebindCluster cluster.val bad)

/-- HALF_POWER_GATE (R474). -/
def execHalfPowerGate (deck : Fin 4) (half : Fin 72) (s : State) : Host.Outcome State Fault Refusal :=
  .next (s.gateHalf deck.val half.val)

end Sys2Proof.Machine
end

