-- ==== Sys2Proof/Machine/Place.lean ====
section
/-! DEFINITION. The scheduler's placement: where a launch fits, room requests and marks, the placement pass, gang start and resumption (spec 02 R45 to R50, R62 to R67; 09 R248, R250; 12 R337 to R340; 13 R359 to R361, R368, R369; 17 R474). -/

namespace Sys2Proof.Machine

namespace State

/-! ### Where a member fits (R48, R205, R369) -/

/-- The gang core of a launch that a member runs. -/
def coreOf (s : State) (l : Launch) (m : Nat) : Option CoreImg := (s.image? l.image).bind (fun g => g.cores[m]?)

/-- Whether a plan buffer can take its bank: a CACHE bank once the homes of its lines can take their bytes; one that placement would clear neither while a matrix operation locks it nor while its core is halted (R212, R244, R369, R460). -/
def bufferFits (s : State) (h core : Nat) (p : Spad) : Bool :=
  let cl := clusterOf core
  let b := 32 * column core + p.bank
  let k := s.bank cl b
  let here := s.plansIn cl b
  k.mode != 2 && k.chg.isNone && !(k.mode == 1 && s.wayBusy cl b) &&
  ((k.mode == 0 && k.owner == some h) || (k.lock == 0 && (s.core core).halt == 0)) &&
  here.all (fun e => decide (p.off + p.size ≤ e.2.2.2.off ∨ e.2.2.2.off + e.2.2.2.size ≤ p.off)) &&
  (match k.owner with
   | some o => o == h || here.all (fun e => e.2.2.1 != o)
   | none => true)

/-- The lowest free accumulator window of n tiles on a core (R205). -/
def tileRoom (s : State) (core n : Nat) : Option Nat :=
  (List.range (33 - n)).find? (fun b => (List.range 4).all (fun i =>
    let t := s.strand (strandKey core i)
    !resident t || decide (b + n ≤ t.tb ∨ t.tb + t.tn ≤ b)))

/-- The lowest free strand of a core (R48). -/
def freeStrandOf (s : State) (core : Nat) : Option Nat :=
  (List.range 4).find? (fun i => !resident (s.strand (strandKey core i)))

/-- The positions a core drives (R25). -/
def drives (s : State) (core : Nat) : List Nat :=
  (List.range 4).map (4 * clusterOf core + ·) |>.filter (fun id => (s.bindEnt id).driver.toNat == core)

/-- The gated halves of a core (R474). -/
def gatedOf (s : State) (core : Nat) : List Nat :=
  (s.drives core).flatMap (fun id => match s.halvesOf id with
    | some (a, b) => [a, b].filter (fun h => (s.deck (core / 32)).gated.mem h)
    | none => [])

/-- Whether the binder is at work on a cluster (R36). -/
def underJob (s : State) (cl : Nat) : Bool :=
  match (s.deck (cl / 8)).job with
  | some j => j.resets.contains cl || j.ents.any (fun e => clusterOf e.1 == cl)
  | none => false

/-- Whether a core may take members of a launch at all; `wake` overlooks power gating (R28, R29, R36, R474). -/
def open_ (s : State) (wake : Bool) (l : Launch) (core : Nat) : Bool :=
  s.active core && s.width core == l.width && (s.cluster (clusterOf core)).mark.isNone && s.joined (core / 32) &&
  !s.underJob (clusterOf core) &&
  (wake || (s.gatedOf core).isEmpty)

/-- The room for member m of a launch on a core, whether or not it needs it: a free strand and the first tile of a free window, beside its plan (R48, R205). -/
def roomOn (s : State) (wake : Bool) (l : Launch) (core m : Nat) : Option (Nat × Nat) :=
  match s.coreOf l m, s.freeStrandOf core with
  | some g, some i =>
      if s.open_ wake l core && g.spad.all (s.bufferFits l.hc core) then (s.tileRoom core g.tn).map (fun tb => (i, tb)) else none
  | _, _ => none

/-- Where member m of a launch stands on a core: its strand and its first tile, with a dictionary window for it (R48, R205, R360). -/
def fitMember (s : State) (wake : Bool) (l : Launch) (core m : Nat) : Option (Nat × Nat) :=
  match s.coreOf l m with
  | some g => if (s.placeWindow core l.image m g.dict).isSome then s.roomOn wake l core m else none
  | none => none

/-- Whether a member needs a strand: members that have exited need none (R63). -/
def needs (l : Launch) (m : Nat) : Bool :=
  match l.members[m]? with
  | some e => !e.exited
  | none => true

/-- A placement: member, core, strand, first tile. -/
abbrev Placing := List (Nat × Nat × Nat × Nat)

/-- Cluster number k of a cluster gang placed on a cluster; a member that has exited needs its room there too (R47, R48, R65). -/
def fitCluster (s : State) (wake : Bool) (l : Launch) (k cl : Nat) : Option Placing :=
  if s.partialCluster cl then none
  else
    let per := 4 / l.width
    ((List.range per).mapM (fun i =>
      let m := k * per + i
      let core := 4 * cl + i * l.width
      if needs l m then (s.fitMember wake l core m).map (fun e => [(m, core, e)])
      else (s.roomOn wake l core m).map (fun _ => []))).map List.flatten

/-- n more clusters for a cluster gang among clusters in ascending id (R47, R339). -/
def fitGang (s : State) (wake : Bool) (l : Launch) : (cls : List Nat) → (k n : Nat) → Option Placing
  | _, _, 0 => some []
  | [], _, _ + 1 => none
  | cl :: cls, k, n + 1 =>
      match s.fitCluster wake l k cl with
      | some p => (fitGang s wake l cls (k + 1) n).map (p ++ ·)
      | none => fitGang s wake l cls k (n + 1)

/-- The placement of a launch, when there is one: a single-core gang on the lowest core of a partial cluster, else of another; a cluster gang on the lowest clusters (R46, R48, R339). -/
def findPlace (s : State) (wake : Bool) (l : Launch) : Option Placing :=
  if l.single then
    let cores := List.range 128
    let order := cores.filter (fun c => s.partialCluster (clusterOf c)) ++ cores.filter (fun c => !s.partialCluster (clusterOf c))
    if needs l 0 then order.findSome? (fun c => (s.fitMember wake l c 0).map (fun e => [(0, c, e)])) else some []
  else s.fitGang wake l (List.range 32) 0 (l.ncl + 1)

/-! ### Placing (R339, R360, R368) -/

/-- A bank taken for a plan: a CACHE bank becomes SCRATCH, one that passes to a new owner is cleared whole (R248, R368). -/
def claimBank (s : State) (h core : Nat) (p : Spad) : State :=
  let cl := clusterOf core
  let b := 32 * column core + p.bank
  let k := s.bank cl b
  let s := if k.mode = 1 then s.convertBank cl b 0 (some h)
    else if k.owner = some h then s else s.bankClear (bankAddr cl (b * 65536)) 65536
  s.modBank cl b (fun k => { k with owner := some h })

/-- One member placed: its strand reserved, its window loaded, its banks taken (R205, R339, R360, R368). -/
def placeMember (l : Launch) (gang : Word32) (s : State) (e : Nat × Nat × Nat × Nat) : State :=
  let (m, core, i, tb) := e
  match s.coreOf l m with
  | none => s
  | some g =>
      match s.placeWindow core l.image m g.dict with
      | none => s
      | some (wb, ws, s) =>
          let s := g.spad.foldl (fun s p => s.claimBank l.hc core p) s
          s.modStrand (strandKey core i) (fun t => { Strand.reset core with
            opNum := t.opNum, life := .placed, launch := l.id, gang := gang, member := m, hc := l.hc, image := l.image
            tb := tb, tn := g.tn, wbase := wb, wsize := ws })

/-- The members of a launch that has never run. -/
def freshMembers (n : Nat) : List Member :=
  List.replicate n ⟨0, 0, false, none, [], Vector.replicate 6 Level.reset, 0, [], []⟩

/-- A launch placed: it enters PLACING (R41, R339, R446). -/
def placeLaunch (s : State) (l : Launch) (pl : Placing) : State :=
  let gang := BitVec.ofNat 32 s.nextGang
  let s := pl.foldl (placeMember l gang) { s with nextGang := s.nextGang + 1 }
  let wdog := (s.hctx l.hc).wdog
  let at_ (e : Member × Nat) : Member :=
    match pl.find? (fun p => p.1 == e.2) with
    | some p => { e.1 with core := p.2.1, strand := p.2.2.1 }
    | none => e.1
  let n := ((s.image? l.image).map (·.ncores)).getD 0
  s.modLaunch l.id (fun l => { l with
    st := .placing, gang := gang, wdog := wdog, waited := false, owed := none
    members := ((if l.members.isEmpty then freshMembers n else l.members).zipIdx).map at_ })

/-! ### Marks (R29, R66) -/

/-- Every member of a running gang marked for pre-emption; a later mark adds the thermal cause, and a gang in PLACING is marked as it begins to run (R66). -/
def markGang (s : State) (thermal : Bool) (id : Nat) : State :=
  match s.launch? id with
  | none => s
  | some l =>
      if l.status.isSome then s
      else if l.st == .placing then s.modLaunch id (fun l => { l with owed := some (thermal || l.owed == some true) })
      else if l.st != .running then s
      else
        let ks := (liveMembers l).map (fun e => Member.key e.2)
        let now := (s.core (leadCore l)).cycle.toNat
        let s := ks.foldl (fun s k => s.modStrand k (fun t => { t with marked := some (thermal || t.marked == some true) })) s
        s.modLaunch id (fun l => { l with thermal := l.thermal || thermal, markAt := some (l.markAt.getD now) })

/-- The gangs resident on some cores, each once. -/
def gangsOn (s : State) (cores : List Nat) : List Nat :=
  ((s.strands.filter (fun e => resident e.2 && cores.contains (e.1 / 4))).map (fun e => e.2.launch)).eraseDups

/-- The class of a launch by its name. -/
def clsOf (s : State) (id : Nat) : Nat := ((s.launch? id).map (·.cls)).getD 3

/-- The cores of a cluster. -/
def coresIn (cl : Nat) : List Nat := (List.range 4).map (4 * cl + ·)

/-- A cluster marked for rebinding, and every gang on it but the interactive ones for pre-emption (R29, R66). -/
def markCluster (s : State) (w cl : Nat) : State :=
  let s := (s.modCluster cl (fun c => { c with mark := some w })).askRebind cl
  ((s.gangsOn (coresIn cl)).filter (fun id => s.clsOf id != 0)).foldl (fun s id => s.markGang false id) s

/-! ### Room (R338) -/

/-- Every way to take n elements of a list, in its order. -/
def pick {α : Type} : Nat → List α → List (List α)
  | 0, _ => [[]]
  | _ + 1, [] => []
  | n + 1, a :: as => (pick n as).map (a :: ·) ++ pick (n + 1) as

/-- The part as it would stand without some gangs. -/
def without (s : State) (ids : List Nat) : State :=
  { s with
    strands := s.strands.filter (fun e => !(resident e.2 && ids.contains e.2.launch))
    launches := s.launches.filter (fun l => !ids.contains l.id) }

/-- Whether a list of numbers comes before another. -/
def listLt : List Nat → List Nat → Bool
  | [], [] => false
  | [], _ :: _ => true
  | _ :: _, [] => false
  | a :: as, b :: bs => decide (a < b) || (a == b && listLt as bs)

/-- Of some ways to make room, the first whose placement has the lowest cluster ids. -/
def lowestWay : List (List Nat × Placing) → Option (List Nat × Placing)
  | [] => none
  | w :: ws =>
      let ids (p : Placing) : List Nat := p.map (fun e => e.2.1)
      match lowestWay ws with
      | none => some w
      | some v => if listLt (ids v.2) (ids w.2) then some v else some w

/-- The fewest gangs, of those that may be marked, without which a launch has a placement (R338 step 1, log entry 38). -/
def fewest (s : State) (l : Launch) (gangs : List Nat) : Option (List Nat × Placing) :=
  (List.range (gangs.length + 1)).findSome? (fun n =>
    lowestWay ((pick n gangs).filterMap (fun ids => ((s.without ids).findPlace true l).map (fun p => (ids, p)))))

/-- The part as step 2 of R338 counts it: begun rebinds stand done, clusters marked for the width stand empty at it, and clusters at the width stand without gangs of a lower class (log entry 38). -/
def roomView (s : State) (c w : Nat) : State :=
  (List.range 32).foldl (fun s cl =>
    if (s.cluster cl).mark = some w then ((s.without (s.gangsOn (coresIn cl))).rebindTo cl w)
    else if (s.cluster cl).mark.isNone ∧ (s.cluster cl).width = w then
      s.without ((s.gangsOn (coresIn cl)).filter (fun id => decide (c < s.clsOf id)))
    else s) s.jobsDone

/-- The cluster to mark next for a width: no interactive gang before any, then the fewest resident strands, then the lowest id (R338 step 2). -/
def nextCluster (s : State) (w : Nat) : Option Nat :=
  let may := (List.range 32).filter (fun cl => (s.cluster cl).mark.isNone && (s.cluster cl).width != w &&
    s.joined (cl / 8) && (w == 1 || !s.partialCluster cl))
  let rank (cl : Nat) : Nat :=
    (if (s.gangsOn (coresIn cl)).any (fun id => s.clsOf id == 0) then 1024 else 0) +
    ((List.range 16).filter (fun i => resident (s.strand (16 * cl + i)))).length
  (may.foldl (fun (b : Option Nat) cl => match b with
    | none => some cl
    | some a => if rank cl < rank a then some cl else some a) none)

/-- Clusters marked one at a time until a launch could be placed on those that count (R338 step 2). -/
def markUntil (l : Launch) : (fuel : Nat) → State → State
  | 0, s => s
  | n + 1, s =>
      match (s.roomView l.cls l.width).findPlace true l with
      | some p =>
          ((s.gangsOn ((p.map (fun e => e.2.1)).filter (fun c => (s.cluster (clusterOf c)).mark.isNone))).filter
            (fun id => decide (l.cls < s.clsOf id))).foldl (fun s id => s.markGang false id) s
      | none => match s.nextCluster l.width with
        | some cl => markUntil l n (s.markCluster l.width cl)
        | none => s

/-- Room requested for the oldest launch of a class (R338). -/
def requestRoom (s : State) (l : Launch) : State :=
  let gangs := ((s.launches.filter (fun e => decide (l.cls < e.cls) && !(s.launchStrands e.id).isEmpty)).map (·.id))
  if ((s.without gangs).findPlace true l).isSome then
    match s.fewest l gangs with
    | some (ids, _) => ids.foldl (fun s id => s.markGang false id) s
    | none => s
  else markUntil l 33 s

/-! ### The placement pass (R337, R340) -/

/-- Whether a class is shed at the present thermal level (R340). -/
def shed (s : State) (c : Nat) : Bool :=
  (c == 2 && decide (1 ≤ s.plat.thermal.level)) || (c == 1 && decide (3 ≤ s.plat.thermal.level))

/-- The READY launches of a class, oldest first; those of a paused context are held back (R337, R462, log entry 54). -/
def readyOf (s : State) (c : Nat) : List Launch :=
  s.launches.filter (fun l => l.cls == c && l.st == .ready && l.status.isNone && !(s.hctx l.hc).pause)

/-- The wake tests of a placement's gated halves owed (R474, log entry 39). -/
def wakeFor (s : State) (pl : Placing) : State :=
  pl.foldl (fun s e => s.oweTests (e.2.1 / 32) (s.gatedOf e.2.1)) s

/-- One launch of a pass: placed, or its halves woken, or room requested for the oldest (R337, R338, R474). -/
def passLaunch (oldest : Bool) (s : State) (l : Launch) : State :=
  match s.findPlace false l with
  | some pl => s.placeLaunch l pl
  | none =>
      match s.findPlace true l with
      | some pl => s.wakeFor pl
      | none => if oldest && (l.cls == 0 || l.waited) then s.requestRoom l else s

/-- The launches of a class after the oldest (R337). -/
def passRest (s : State) (ls : List Launch) : State := ls.foldl (passLaunch false) s

/-- The classes from c on; backfill stops at a class whose oldest launch has waited 2 ms unplaced (R337). -/
def passFrom : List Nat → State → State
  | [], s => s
  | c :: cs, s =>
      if s.shed c then passFrom cs s
      else match s.readyOf c with
        | [] => passFrom cs s
        | l :: ls =>
            let s := passLaunch true s l
            if l.waited && ((s.launch? l.id).map (·.st)) == some .ready then s else passFrom cs (s.passRest ls)

/-- PLACEMENT_PASS (R337). -/
def placeAll (s : State) : State := passFrom [0, 1, 2] s

/-- OLDEST_LAUNCH_WAIT_2_MS: the oldest READY launch of a class has waited 2 ms; the pass requests room for it and stops backfill (R337, R338). -/
def waited2Ms (s : State) (c : Nat) : State :=
  if s.shed c then s
  else match s.readyOf c with
    | [] => s
    | l :: _ => (s.modLaunch l.id (fun l => { l with waited := true })).placeAll

/-! ### Start and resumption (R49, R50, R65, R250) -/

/-- Parks that lie where the members of a launch now stand, moved to their owners' spill slots (R250). -/
def clearParks (s : State) (l : Launch) : State :=
  (liveMembers l).foldl (fun s e => (s.parksUnder (Member.key e.2)).foldl (fun s p => s.movePark p.1 p.2) s) s

/-- Whether the members of a launch may begin: no park lies under one, their clusters may acquire, and their plan's banks may be cleared: no matrix operation locks one, and no halt holds their core (R212, R250, R306, R460). -/
def gangReady (s : State) (l : Launch) : Bool :=
  (liveMembers l).all (fun e => (s.parksUnder (Member.key e.2)).isEmpty && s.acquireReady (clusterOf e.2.core) &&
    (s.core e.2.core).halt == 0 &&
    (((s.coreOf l e.1).map (·.spad)).getD []).all (fun p => (s.bank (clusterOf e.2.core) (32 * column e.2.core + p.bank)).lock == 0))

/-- A launch begins to run, marked when a cause arose while it was in PLACING (R41, R66). -/
def runGang (s : State) (id : Nat) (f : Launch → Launch) : State :=
  let owed := (s.launch? id).bind (·.owed)
  let s := s.modLaunch id (fun l => { f l with st := .running, owed := none })
  match owed with
  | some thermal => s.markGang thermal id
  | none => s

/-- GANG_START: every member of a placed launch that has not run holds the state of R50, and the launch runs (R41, R49, R50, R415). -/
def startGang (s : State) (id : Nat) : State :=
  match s.launch? id with
  | none => s
  | some l =>
      if l.st != .placing || l.status.isSome || l.everSusp then s
      else
        let s := s.clearParks l
        if !s.gangReady l then s
        else
          let s := (liveMembers l).foldl (fun s e => s.startMember l e.1 e.2) s
          s.runGang id (fun l => { l with bars := Vector.replicate 16 (0, 0), pushes := [] })

/-- A placed launch's members restored from their records: an altered record ends the launch, and a poisoned byte on its way to a register is consumed (R64, R65, R247, R451, log entry 35). -/
def resumeLaunch (l : Launch) (s : State) : State :=
  match (liveMembers l).find? (fun e => !s.recordKept (Member.key e.2) e.2) with
  | some e => s.endLaunch l.id { s.recordOf (Member.key e.2) 0x13 with aux := e.1, bundle := 0 }
  | none =>
      match (liveMembers l).findSome? (fun e => (s.restorePoison l e).map (fun va => (Member.key e.2, va))) with
      | some (k, va) => s.kill l.hc { s.recordOf k 0x21 with va := va }
      | none =>
          let s := s.clearParks l
          if !s.gangReady l then s
          else
            let s := (liveMembers l).foldl (fun s e => s.resumeMember l e.1 e.2) s
            s.runGang l.id (fun l => { l with bars := l.bars.map (fun b => (0, b.2)), pushes := [] })

/-- GANG_RESUME: every member of a placed launch is restored from its records, in the launch's turn at the lines of its save areas (R13, R65). -/
def resumeGang (s : State) (id : Nat) : State :=
  match s.launch? id with
  | none => s
  | some l =>
      if l.st != .placing || l.status.isSome || !l.everSusp then s
      else s.inTurn (ioTurn 4 id) (s.gangLines l) (resumeLaunch l)

/-! ### Dependence (R41, R351) -/

/-- Whether a member's dependence word is met (R351, log entry 31). -/
def depMet (s : State) (l : Launch) (m : Member) : Bool :=
  match m.dep with
  | none => true
  | some w =>
      let kind := w.toNat / 2 ^ 28
      if m.exited then true
      else if kind = 1 then
        !s.launches.any (fun e => e.hc == l.hc && e.stream == w.toNat % 4 && decide (e.id < l.id) && e.st != .complete)
      else if kind = 3 then l.hostVer
      else true

/-- SUSPEND_DEPENDENCE_MET: a suspended launch whose members' conditions are met returns to READY; the event itself says that the time of a KIND 2 word has passed (R41, R67, R351). -/
def depsMet (s : State) (id : Nat) : State :=
  match s.launch? id with
  | none => s
  | some l =>
      if l.st != .suspended || l.status.isSome || !l.members.all (s.depMet l) then s
      else s.modLaunch id (fun l => { l with st := .ready, waited := false })

end State

/-! ### Meanings -/

/-- PLACEMENT_PASS (R337). -/
def execPlacementPass (s : State) : Host.Outcome State Fault Refusal := .next s.placeAll

/-- OLDEST_LAUNCH_WAIT_2_MS (R338). -/
def execOldestLaunchWait2Ms (cls : Fin 3) (s : State) : Host.Outcome State Fault Refusal := .next (s.waited2Ms cls.val)

/-- GANG_START (R49). -/
def execGangStart (launch : Nat) (s : State) : Host.Outcome State Fault Refusal := .next (s.startGang launch)

/-- GANG_RESUME (R65). -/
def execGangResume (launch : Nat) (s : State) : Host.Outcome State Fault Refusal := .next (s.resumeGang launch)

/-- SUSPEND_DEPENDENCE_MET (R351). -/
def execSuspendDependenceMet (launch : Nat) (s : State) : Host.Outcome State Fault Refusal := .next (s.depsMet launch)

end Sys2Proof.Machine
end

