-- ==== Sys2Proof/Machine/Serve.lean ====
section
/-! DEFINITION. The scheduler's service of streams and notify queues, completion records, waiting fault records, the watchdog (spec 02 R42 to R44; 12 R326 to R336; 15 R429; 16 R437, R446). -/

namespace Sys2Proof.Machine

namespace State

/-! ### Streams (R329, R330) -/

/-- A stream descriptor of a context. -/
def streamD (s : State) (h : Nat) (i : Fin 4) : StreamD := (s.hctx h).streams[i]
def modStream (s : State) (h : Nat) (i : Fin 4) (f : StreamD → StreamD) : State :=
  s.modHctx h (fun c => { c with streams := c.streams.set i (f c.streams[i]) })

/-- A stream turned off. -/
def StreamD.off (d : StreamD) : StreamD := { d with mode := 0, stopping := false, signal := false, stalled := false }

/-- A stream fault: MODE becomes 0 and a record is raised (R330, R435). -/
def streamFault (s : State) (h : Nat) (i : Fin 4) (reason tail : Nat) : State :=
  (s.modStream h i StreamD.off).raise h (ctxRecord h 0x31 i.val i.val (reason * 2 ^ 32 + tail))

/-- A stream whose MODE = 0 waited turns off once its records are taken (R329). -/
def settleStop (s : State) (h : Nat) (i : Fin 4) : State :=
  let d := s.streamD h i
  if d.stopping && d.head == d.lastTail then s.modStream h i StreamD.off else s

/-- Records of a HOST-mode ring taken one at a time, `fuel` at most (R330, R332). -/
def takeRing (h : Nat) (i : Fin 4) : (fuel : Nat) → State → State
  | 0, s => s
  | n + 1, s =>
      let d := s.streamD h i
      if d.mode ≠ 1 ∨ d.head = d.lastTail ∨ s.owesAdmin h i.val then s
      else
        let va := (d.ringva.toNat + 128 * (d.head.toNat % 2 ^ d.logd)) % 2 ^ 72
        whenRead [(h, va, 128)] (fun s => match s.sysRead h va 128 with
          | none => s.streamFault h i 1 0
          | some bs => whenRead (s.startReads h (leNat bs)) (fun s => match s.takeRecord h i.val (leNat bs) false with
            | none => s
            | some s => takeRing h i n (s.modStream h i (fun d => { d with head := d.head + 1 }))) s) s

/-- Whether the scheduler serves a context: it is live and every stack is trained (R452, R474). -/
def serves (s : State) (h : Nat) : Bool := (s.hctx h).st == .live && s.plat.bringup.hbm

/-- A tail as the scheduler has read it: one beyond the depth is a stream fault (R330). -/
def takeTail (h : Nat) (i : Fin 4) (go : State → State) (bs : Option (List Byte)) (s : State) : State :=
  let d := s.streamD h i
  match bs with
  | none => s.streamFault h i 1 0
  | some bs =>
      let tail := BitVec.ofNat 32 (leNat bs)
      if 2 ^ d.logd < (tail - d.head).toNat then s.streamFault h i 0 tail.toNat
      else go (s.modStream h i (fun d => { d with lastTail := tail, signal := false, stalled := false }))

/-- TAIL_WORD_SIGNAL: a stream that writes to its tail word have signalled has its tail read and the records below it taken; without a signal, and while it is stopping, only those below the tail last read (R329, R330). -/
def tailSignal (s : State) (h : Nat) (i : Fin 4) : State :=
  let d := s.streamD h i
  if !s.serves h || d.mode != 1 then s
  else
    let go (s : State) : State := (takeRing h i 65536 s).settleStop h i
    if d.stopping || !d.signal then go s
    else whenRead [(h, d.tailva.toNat, 4)] (fun s => takeTail h i go (s.sysRead h d.tailva.toNat 4) s) s

/-- A launch record built from a template and a notify record's VALUE: region 0's BASE moves by it (R336). -/
def buildRecord (template value : Nat) : Nat :=
  let base := bitsAt template 256 72
  template - base * 2 ^ 256 + (base + value) % 2 ^ 72 * 2 ^ 256

/-- Records of a notify queue taken one at a time, `fuel` at most; HEAD is written after each, and a record of another INDEX stops the queue until the next signal, before its template is read (R336). -/
def takeNotify (h : Nat) (i : Fin 4) : (fuel : Nat) → State → State
  | 0, s => s
  | n + 1, s =>
      let d := s.streamD h i
      if d.mode ≠ 3 ∨ d.head = d.lastTail ∨ d.stalled ∨ s.owesAdmin h i.val then s
      else
        let q := d.ringva.toNat
        let va := q + 128 + 64 * (d.head.toNat % 2 ^ d.logd)
        whenRead [(h, va, 64)] (fun s => match s.sysRead h va 64 with
          | none => s.streamFault h i 1 0
          | some rec_ =>
              if bitsAt (leNat rec_) 64 32 ≠ d.head.toNat then s.modStream h i (fun d => { d with stalled := true })
              else whenRead [(h, d.tmplva.toNat, 128)] (fun s => match s.sysRead h d.tmplva.toNat 128 with
                | none => s.streamFault h i 1 0
                | some tm =>
                    let r := buildRecord (leNat tm) (bitsAt (leNat rec_) 0 64)
                    whenRead (s.startReads h r) (fun s => match s.takeRecord h i.val r true with
                      | none => s
                      | some s =>
                          let s := s.modStream h i (fun d => { d with head := d.head + 1 })
                          match s.sysWrite h (q + 64) (leBytes 8 (d.head + 1).toNat) with
                          | some s => takeNotify h i n s
                          | none => s.streamFault h i 1 0) s) s) s

/-- NOTIFY_SIGNAL: a queue whose TAIL line has been invalidated has its TAIL read, and launches are built from the records below it; without a signal, and while it is stopping, only those below the TAIL last read (R329, R336). -/
def notifySignalled (s : State) (h : Nat) (i : Fin 4) : State :=
  let d := s.streamD h i
  if !s.serves h || d.mode != 3 then s
  else
    let go (s : State) : State := (takeNotify h i 4096 s).settleStop h i
    if !d.signal then go s
    else if d.stopping then go (s.modStream h i (fun d => { d with signal := false, stalled := false }))
    else whenRead [(h, d.ringva.toNat, 8)] (fun s => takeTail h i go (s.sysRead h d.ringva.toNat 8) s) s

/-- Whether LOGD suits a mode (R329). -/
def modeOk (d : StreamD) (mode : BitVec 2) : Bool :=
  if mode = 1 then decide (4 ≤ d.logd ∧ d.logd ≤ 16)
  else if mode = 3 then decide (4 ≤ d.logd ∧ d.logd ≤ 12) else d.logd == 0

/-- Whether the addresses of a stream translate for what a mode does with them (R330). -/
def modeReaches (s : State) (h : Nat) (d : StreamD) (mode : BitVec 2) : Bool :=
  let ok (va : AWord) (w : Bool) : Bool := (s.sysPa h va.toNat w).isSome
  if mode = 1 then ok d.ringva false && ok d.tailva false
  else if mode = 3 then ok d.ringva true && ok d.tmplva false else true

/-- STREAM_MODE_WRITE: from 0 the stream starts; 0 takes effect once the records below the last tail read are taken; any other write is ignored (R329, R330, log entry 42). -/
def writeMode (s : State) (h : Nat) (i : Fin 4) (mode : BitVec 2) : State :=
  let d := s.streamD h i
  if mode = 0 then
    if d.mode = 0 then s
    else (s.modStream h i (fun d => { d with stopping := true, lastTail := if d.mode = 2 then d.head else d.lastTail })).settleStop h i
  else if d.mode ≠ 0 ∨ !modeOk d mode then s
  else if s.modeReaches h d mode then s.modStream h i (fun d => { d with mode := mode, lastTail := d.head, stopping := false, signal := false, stalled := false })
  else s.streamFault h i 1 0

/-! ### Completion (R42 to R44, R327, R334) -/

/-- STATUS and FCODE of a completion record (R327). -/
def statusCode : LStatus → Nat × Nat
  | .done => (1, 0)
  | .replayedDone => (2, 0)
  | .failed c => (3, c)
  | .lost => (4, 0)

/-- The 32 bytes of a completion record (R327). -/
def completionBytes (l : Launch) (st : LStatus) : List Byte :=
  leBytes 32 (packBits [(l.image, 32), ((statusCode st).2, 32), (min l.replays 255, 8), (0, 116), ((statusCode st).1, 4),
    (l.seq.toNat, 48), (l.stream, 2), (l.hc, 6), (0, 8)])

/-- The oldest launch of a stream that is not COMPLETE. -/
def nextOfStream (s : State) (h st : Nat) : Option Launch :=
  s.launches.find? (fun l => l.hc == h && l.stream == st && l.st != .complete)

/-- Whether work of a launch still has to perform: a strand of it is resident, or a request of its own waits at a home, or a write whose value one of its reads has returned (R43, R315, R317, R445). -/
def unperformed (s : State) (l : Launch) : Bool :=
  s.home.any (fun r => (decide (r.core < 128) && r.launch == l.id) || r.seen.any (fun e => e.2 == l.id)) ||
  !(s.launchStrands l.id).isEmpty

/-- A status counted in its context's accounting (R429). -/
def countStatus (st : LStatus) (c : Hctx) : Hctx :=
  match st with
  | .done => { c with acct := c.acct.set 1 (c.acct[1] + 1) }
  | .replayedDone => { c with acct := c.acct.set 2 (c.acct[2] + 1) }
  | .failed _ => { c with acct := c.acct.set 3 (c.acct[3] + 1) }
  | .lost => { c with acct := c.acct.set 4 (c.acct[4] + 1) }

/-- The edges out of a completed launch resolve (R41, R44). -/
def resolveEdges (id : Nat) (l : Launch) : Launch :=
  let es := l.edges.erase id
  { l with edges := es, st := if l.st = .waiting ∧ es = [] then .ready else l.st }

/-- LAUNCH_COMPLETE: the completion record of a stream's oldest launch is written once its fault records and its writes are done and its ring has room, in its turn at the lines of its slot; the launch is COMPLETE (R13, R42 to R44, R334, R437, log entry 36). -/
def completeNext (s : State) (h st : Nat) : State :=
  match s.nextOfStream h st with
  | none => s
  | some l => match l.status with
    | none => s
    | some v =>
        let ring : Fin 6 := ⟨l.cring % 4, by omega⟩
        if s.unperformed l || (s.hctx h).waiting.any (fun r => r.launch == some l.id) then s
        else s.ringTurn (ioTurn 3 (4 * h + ring.val)) h ring 32 (fun s => (s.ringPut h ring (completionBytes l v)).map (fun s =>
          let s := s.modLaunch l.id (fun l => { l with st := .complete, edges := [], areas := [] })
          { (s.modHctx h (countStatus v)) with launches := s.launches.map (resolveEdges l.id) })) id

/-! ### Waiting fault records (R437) -/

/-- What follows the writing of a waiting record: the entry it takes is freed at once when its launch has ended (R437). -/
def noteWritten (h : Nat) (r : FaultRec) (rs : List FaultRec) (s : State) : State :=
  let s := s.modHctx h (fun c => { c with waiting := rs })
  match r.launch with
  | some id => (match s.launch? id with
    | some l => if l.status.isSome then s.freeFaults h id else s
    | none => s)
  | none => s

/-- FAULT_RECORD_WRITE: the oldest waiting record of a context is written when it can be, in its turn at the lines of its slot (R13, R437). -/
def writeWaiting (s : State) (h : Nat) : State :=
  match (s.hctx h).waiting with
  | [] => s
  | r :: rs => s.ringTurn (ioTurn 2 h) h 5 64 (fun s => (s.writeFault h r).map (noteWritten h r rs)) id

/-! ### Watchdog and uncorrectable errors (R446, R451) -/

/-- WATCHDOG: a running launch has passed its limit, which no time passes toward while a member's core is halted; the milliseconds it ran are a free value, at least the limit (R435, R446, log entry 7, log entry 45). -/
def watchdogFires (s : State) (id : Nat) : State :=
  match s.launch? id with
  | none => s
  | some l =>
      if l.st != .running || l.status.isSome || (liveMembers l).any (fun e => (s.core e.2.core).halt != 0) then s
      else
        let (v, s) := s.freeVal
        s.endLaunch id (launchRecord l 0x11 (max l.wdog (v.toNat % 2 ^ 32)) 0)

/-- The record of an uncorrectable error: about the strand whose state it struck, any one of the context's resident strands, at its program counter; about the context when it has none (R436, R451, log entry 95). -/
def strikeRecord (s : State) (h : Nat) : FaultRec × State :=
  let ks := (s.strands.filter (fun e => resident e.2 && e.2.hc == h)).map (·.1)
  if ks.isEmpty then (ctxRecord h 0x20 0 0 0, s)
  else
    let (v, s) := s.freeVal
    (s.recordOf (ks.getD (v.toNat % ks.length) 0) 0x20, s)

/-- UNCORRECTABLE_ERROR: a live context is killed (R431, R451, R452). -/
def uncorrectable (s : State) (h : Nat) : State :=
  if (s.hctx h).st != .live then s
  else
    let (r, s) := s.strikeRecord h
    (s.modLife (fun l => { l with unctot := satSucc l.unctot })).kill h r

end State

/-! ### Meanings -/

/-- TAIL_WORD_SIGNAL (R330). -/
def execTailWordSignal (hc : Fin 64) (stream : Fin 4) (s : State) : Host.Outcome State Fault Refusal :=
  .next (s.tailSignal hc.val stream)

/-- NOTIFY_SIGNAL (R336). -/
def execNotifySignal (hc : Fin 64) (stream : Fin 4) (s : State) : Host.Outcome State Fault Refusal :=
  .next (s.notifySignalled hc.val stream)

/-- STREAM_MODE_WRITE (R329). -/
def execStreamModeWrite (hc : Fin 64) (stream : Fin 4) (mode : BitVec 2) (s : State) : Host.Outcome State Fault Refusal :=
  .next (s.writeMode hc.val stream mode)

/-- LAUNCH_COMPLETE (R43). -/
def execLaunchComplete (hc : Fin 64) (stream : Fin 4) (s : State) : Host.Outcome State Fault Refusal :=
  .next (s.completeNext hc.val stream.val)

/-- FAULT_RECORD_WRITE (R437). -/
def execFaultRecordWrite (hc : Fin 64) (s : State) : Host.Outcome State Fault Refusal := .next (s.writeWaiting hc.val)

/-- WATCHDOG (R446). -/
def execWatchdog (launch : Nat) (s : State) : Host.Outcome State Fault Refusal := .next (s.watchdogFires launch)

/-- UNCORRECTABLE_ERROR (R451). -/
def execUncorrectableError (hc : Fin 64) (s : State) : Host.Outcome State Fault Refusal := .next (s.uncorrectable hc.val)

end Sys2Proof.Machine
end

