-- ==== Sys2Proof/Machine/Errors.lean ====
section
/-! DEFINITION. Errors of the memories and the agents outside the part: ECC, pool heads, snoops, writes of the host and of other modules, dynamic capacity (spec 09 R240, R246, R258; 14 R404; 16 R455; 17 R461, R465 to R468). -/

namespace Sys2Proof.Machine

namespace State

/-! ### ECC (R246, R431) -/

/-- One more corrected error (R431). -/
def countCorrected (s : State) : State := s.modLife (fun l => { l with sectot := satSucc l.sectot })
/-- One more uncorrectable error (R431). -/
def countUncorrected (s : State) : State := s.modLife (fun l => { l with unctot := satSucc l.unctot })

/-- SRAM_ECC_ERROR: a single-bit error is corrected and counted; a double-bit error poisons its granule in a SCRATCH or FIFO bank (R245, R246, R428). -/
def sramEcc (s : State) (cl bank granule : Nat) (dbl : Bool) : State :=
  if dbl then
    let s := s.countUncorrected
    if (s.bank cl bank).mode = 1 then s
    else { s with poison := s.poison.add (gran (bankAddr cl (bank * 65536 + granule * 16))) }
  else (s.modCluster cl (fun c => { c with seccnt := satSucc c.seccnt })).countCorrected

/-- HBM_ECC_FAILURE: a device-HBM line's correctable error is counted; an uncorrectable one poisons the line (R246, R431). -/
def hbmEcc (s : State) (line : Nat) (correctable : Bool) : State :=
  if pkind (line * 64) != .hbm then s
  else if correctable then s.countCorrected
  else { s.countUncorrected with linePoison := s.linePoison.add line }

/-! ### Pool heads (R455, R466) -/

/-- POOL_HEAD_FAILOVER: a head fails and the other becomes primary (R455, R466). -/
def headFails (s : State) (d : Nat) (h : Fin 2) : State :=
  let p := s.poolDev d
  { s with pool := s.pool.set d { p with
      failed := p.failed.set h true
      primary := if p.primary = h.val then 1 - h.val else p.primary } }

/-! ### Snoops (R240, R258, R490) -/

/-- A request of an agent outside the part at a line's home (R13). -/
def outsideReq (addr core : Nat) (kind : HKind) : HReq :=
  { addr := addr, pclass := 1, core := core, strand := 0, hc := 64, num := 0, reply := false, kind := kind }

/-- BISNP: a pool device's snoop, which takes its turn at the line's home (R13, R257, R258). -/
def snoopPool (s : State) (line : Nat) : State :=
  if pkind (line * 64) != .pool then s else s.sendHome (outsideReq (line * 64) 130 .bisnp)

/-- HOST_SNOOP: the host's snoop of a host line, which takes its turn there; before bring-up has passed there is none (R13, R240, R490, log entry 73). -/
def snoopHost (s : State) (line : Nat) (inv : Bool) : State :=
  if pkind (line * 64) != .host || s.plat.bringup.fail then s else s.sendHome (outsideReq (line * 64) 131 (.snoop inv))

/-! ### Writes from outside (R404, R461) -/

/-- Whether an address lies in reserved device HBM that holds the part's tables: those of Config and the page tables (R354, R371, log entries 10, 92, 94). -/
def isReserved (s : State) (pa : Nat) : Bool :=
  decide (Config.tableBase ≤ pa ∧ pa < Config.hbmBytes) || s.reserved.mem (pa / 131072)

/-- Whether nothing at a pool line's home holds back the pool device's other modules: no busy bit, and no request to a COH-BI page or snoop in the list; writes to other pages that wait there, a reissued one among them, have still to reach the device (R258, R467). -/
def poolFree (s : State) (line : Nat) : Bool :=
  !s.busyLines.mem line && !s.home.any (fun r => r.addr / 64 == line && r.pclass == 1)

/-- Whether an outside agent may write a line: device HBM but for reserved tables, in its turn; a host line once the part holds no copy of it; a pool line once no COH-BI copy and no check-out of it is held and no COH-BI request waits for it (R240, R257, R258, R461, R467, log entry 67). -/
def outsideMay (s : State) (line : Nat) : Bool :=
  match pkind (line * 64) with
  | .hbm => !s.isReserved (line * 64)
  | .host => s.homeFree line && (s.agent.get? line).isNone && (List.range 32).all (fun c => (s.cline c line).isNone)
  | .pool => s.poolFree line && (s.holders line).isEmpty &&
      (List.range 32).all (fun c => match s.cline c line with | some l => l.pclass != 1 | none => true)
  | .hole => false

/-- HOST_MEM_WRITE: bytes written from outside the part, line by line, where every line they touch may be written; a write of a device-HBM line that is not free joins the line's list, a pool module's write reaches the device at once, and no cluster copy is invalidated (R13, R257, R461, R467, log entry 67). -/
def hostWrite (s : State) (pa : Nat) (bs : List Byte) : State :=
  let cs := chunksOf pa bs.length
  if !s.plat.bringup.fail && cs.all (fun c => s.outsideMay (c.1 / 64)) then
    cs.foldl (fun s c =>
      let b := (bs.drop (c.1 - pa)).take c.2
      if pkind c.1 == .pool then s.outsideWrite c.1 b else s.sendHome (outsideReq c.1 131 (.outside b))) s
  else s

/-! ### Dynamic capacity (R468) -/

/-- Whether extents cover n bytes from an address, `fuel` extents at most. -/
def coverFrom (es : List (Nat × Nat)) : (fuel lo n : Nat) → Bool
  | 0, _, n => n == 0
  | f + 1, lo, n =>
      if n = 0 then true
      else match es.find? (fun e => decide (e.1 ≤ lo ∧ lo < e.1 + e.2)) with
        | none => false
        | some e => coverFrom es f (e.1 + e.2) (n - (e.1 + e.2 - lo))

/-- Whether extents cover n bytes from an address. -/
def covers (es : List (Nat × Nat)) (lo n : Nat) : Bool := coverFrom es (es.length + 1) lo n

/-- Extents without the bytes of one. -/
def subtract (es : List (Nat × Nat)) (lo n : Nat) : List (Nat × Nat) :=
  es.flatMap (fun e =>
    (if e.1 < lo then [(e.1, min (e.1 + e.2) lo - e.1)] else []) ++
    (if lo + n < e.1 + e.2 then [(max e.1 (lo + n), e.1 + e.2 - max e.1 (lo + n))] else []))

/-- Whether an extent is one of whole 64 KiB pages in a device's window (R464, R465). -/
def extentOk (dpa len : Nat) : Bool := dpa % 65536 == 0 && len % 65536 == 0 && len != 0 && decide (dpa + len ≤ 2 ^ 42)

/-- DC_ADD_EVENT: an extent held until the host accepts it (R468). -/
def dcAdd (s : State) (d dpa len : Nat) : State :=
  if !extentOk dpa len then s
  else
    let p := s.poolDev d
    { s with pool := s.pool.set d { p with offered := p.offered ++ [(dpa, len)] } }

/-- Whether a leaf of any context names a byte of an extent of a pool device (R468). -/
def leafNames (s : State) (d dpa len : Nat) : Bool :=
  let lo := Config.poolBase + d * 2 ^ 42 + dpa
  s.ctxs.any (fun e => e.2.st != .free &&
    (s.leaves e.1).any (fun l => decide (l.2.1 < lo + len ∧ lo < l.2.1 + l.2.2)))

/-- An extent given up, when no leaf names a byte of it: the fabric manager is answered (R468). -/
def dcGiveUp (s : State) (d dpa len : Nat) : Option State :=
  if s.leafNames d dpa len then none
  else
    let p := s.poolDev d
    some { s with pool := s.pool.set d { p with
      extents := subtract p.extents dpa len, answered := p.answered ++ [(dpa, len)] } }

/-- DC_RELEASE_REQUEST: refused, without effect, while a leaf names a byte of the extent (R468). -/
def dcRelease (s : State) (d dpa len : Nat) : State :=
  if extentOk dpa len then (s.dcGiveUp d dpa len).getD s else s

end State

/-! ### Meanings -/

/-- SRAM_ECC_ERROR (R246). -/
def execSramEccError (cluster : Fin 32) (bank : Fin 128) (granule : BitVec 12) (dbl : Bool) (s : State) :
    Host.Outcome State Fault Refusal := .next (s.sramEcc cluster.val bank.val granule.toNat dbl)

/-- HBM_ECC_FAILURE (R246). -/
def execHbmEccFailure (line : Nat) (correctable : Bool) (s : State) : Host.Outcome State Fault Refusal :=
  .next (s.hbmEcc line correctable)

/-- POOL_HEAD_FAILOVER (R466). -/
def execPoolHeadFailover (device : Fin 16) (head : Fin 2) (s : State) : Host.Outcome State Fault Refusal :=
  .next (s.headFails device.val head)

/-- BISNP (R258). -/
def execBisnp (line : Nat) (s : State) : Host.Outcome State Fault Refusal := .next (s.snoopPool line)

/-- HOST_SNOOP (R240). -/
def execHostSnoop (line : Nat) (inv : Bool) (s : State) : Host.Outcome State Fault Refusal := .next (s.snoopHost line inv)

/-- HOST_MEM_WRITE (R461). -/
def execHostMemWrite (pa : Nat) (bytes : List Byte) (s : State) : Host.Outcome State Fault Refusal :=
  .next (s.hostWrite pa bytes)

/-- DC_ADD_EVENT (R468). -/
def execDcAddEvent (device : Fin 16) (dpa len : Nat) (s : State) : Host.Outcome State Fault Refusal :=
  .next (s.dcAdd device.val dpa len)

/-- DC_RELEASE_REQUEST (R468). -/
def execDcReleaseRequest (device : Fin 16) (dpa len : Nat) (s : State) : Host.Outcome State Fault Refusal :=
  .next (s.dcRelease device.val dpa len)

end Sys2Proof.Machine
end

