-- ==== Sys2Proof/Machine/Platform.lean ====
section
/-! DEFINITION. The platform: cold reset and boot verification, bring-up, thermal levels, clock and power, the lifetime record, SPDM (spec 00 R4; 12 R340; 15 R430, R431; 17 R469 to R477). -/

namespace Sys2Proof.Machine

namespace State

/-! ### Cold reset (R4, R356, R469, R470) -/

/-- Whether signed bytes verify under the vendor key; bytes that were never written need no signature (R469, log entries 5 and 9). -/
def signedOk (f : Flash) (body sig : List Byte) : Bool :=
  (body.isEmpty && sig.isEmpty) || Config.mldsaVerify f.vendorKey (Config.sha3 body) sig

/-- Whether the vendor key is the one whose digest the ROM holds (R469). -/
def keyOk (f : Flash) : Bool := (f.firmware.isEmpty && f.vendorKey.isEmpty) || Config.sha3 f.vendorKey == f.romKeyDigest

/-- The newer of a block and the newest found so far; of two of one version, the one found first (R470). -/
def newer {α : Type} (best : Option (CfgBlk α)) (b : CfgBlk α) : Option (CfgBlk α) :=
  match best with
  | none => some b
  | some a => if a.version.toNat < b.version.toNat then some b else some a

/-- The block of a kind that the part uses: of those that verify and are not below the highest version recorded, the newest (R470). -/
def blockInUse {α : Type} (f : Flash) (floor : Word32) (bs : List (CfgBlk α)) : Option (CfgBlk α) :=
  (bs.filter (fun b => signedOk f b.body b.sig && decide (floor.toNat ≤ b.version.toNat))).foldl newer none

/-- The blocks in use: identity, repair, limits; none where a kind has no block that may be used (R470, log entry 5). -/
def blocksInUse (f : Flash) : Option (CfgBlk Identity × CfgBlk (Vector Health 4) × CfgBlk Limits) := do
  let i ← blockInUse f f.highest[0] f.identities
  let r ← blockInUse f f.highest[1] f.repairs
  let l ← blockInUse f f.highest[2] f.limits
  some (i, r, l)

/-- Whether the key and the firmware chain verify (R469). -/
def chainOk (f : Flash) : Bool := keyOk f && f.firmware.all (fun b => signedOk f b.body b.sig)

/-- Whether boot verifies: the firmware chain, and a block to use of every configuration kind (R469, R470). -/
def bootOk (f : Flash) : Bool := chainOk f && (blocksInUse f).isSome

/-- Flash after boot, with the deck marks of the repair block: the versions in use recorded, and what the identity and limits blocks say in force; as it was where boot fails (R470). -/
def boot (f : Flash) (marks : Vector Health 4) : Flash × Vector Health 4 :=
  if !chainOk f then (f, marks)
  else match blocksInUse f with
    | none => (f, marks)
    | some (i, r, l) =>
        ({ f with highest := #v[i.version, r.version, l.version], identity := i.val, limit := l.val }, r.val)

/-- The bytes of the configuration blocks in use: identity, repair, limits (R470, R472). -/
def configBodies (f : Flash) : List (List Byte) :=
  match blocksInUse f with
  | none => []
  | some (i, r, l) => [i.body, r.body, l.body]

/-- COLD_RESET: every field at its reset value; flash, the lifetime record and the contents of device HBM, pool and host memory stay, and boot verifies (R4, R431, R469, R470, log entry 4). -/
def coldReset (s : State) : State :=
  let p := s.plat
  let life := if p.poweredOff then p.lifeStored else p.life
  let ok := bootOk p.flash
  let b := boot p.flash (p.decks.map (·.repair))
  let q := Plat.start b.1 b.2 { life with coldrst := satSucc life.coldrst } p.lifeStored
  let t := State.start { q with bringup := { Bringup.reset with fail := !ok } }
  { t with
    mem := s.mem.filter (fun c => c.1 < bankBase), linePoison := s.linePoison
    schedule := s.schedule, nextCore := s.nextCore, fresh := s.fresh, nextId := s.nextId, nextGang := s.nextGang }

/-! ### Bring-up (R473, R474) -/

/-- A bit of BRINGUP set, unless verification has stopped bring-up (R469, R473). -/
def bringUp (s : State) (f : Bringup → Bringup) : State :=
  if s.plat.bringup.fail then s else { s with plat := { s.plat with bringup := f s.plat.bringup } }

/-! ### Thermal levels, clock and power (R340, R430, R476, R477) -/

def modThermal (s : State) (f : Thermal → Thermal) : State := { s with plat := { s.plat with thermal := f s.plat.thermal } }

/-- The resident gangs of background class, those whose start is still going on among them (R66, R340). -/
def backgroundGangs (s : State) : List Nat :=
  (s.launches.filter (fun l => l.cls == 2 && (l.st == .running || l.st == .placing))).map (·.id)

/-- THERMAL_LEVEL_ENTER: the next level is entered and counted; from T2 on, every resident background gang is marked (R66, R340, R430, R476). -/
def levelEnter (s : State) : State :=
  let n := s.plat.thermal.level + 1
  if 4 < n then s
  else
    let s := s.modThermal (fun t => { t with
      level := n, tenter := Vector.ofFn (fun i : Fin 4 => if i.val + 1 = n then satSucc t.tenter[i] else t.tenter[i]) })
    if 2 ≤ n then s.backgroundGangs.foldl (fun s id => s.markGang true id) s else s

/-- THERMAL_LEVEL_LEAVE: the current level is left, and its time is brought up to date (R430, R476, log entry 72). -/
def levelLeave (s : State) : State :=
  let n := s.plat.thermal.level
  if n = 0 then s else (s.tickTtime n).modThermal (fun t => { t with level := n - 1 })

/-- The clock's highest setting, in units of 0.1 GHz (R473, R476). -/
def clockTop (s : State) : Nat := if s.plat.bringup.cal then 18 else 12

/-- The clock one step lower, not below 0.6 GHz (R476). -/
def clockDown (s : State) : State := s.modThermal (fun t => { t with clock := if 6 < t.clock then t.clock - 1 else t.clock })

/-- CLOCK_STEP: down while the temperature is at or above T4, up after it has fallen below (R476). -/
def clockStep (s : State) (down : Bool) : State :=
  if down then (if s.plat.thermal.level = 4 then s.clockDown else s)
  else s.modThermal (fun t => { t with clock := if t.clock < s.clockTop then t.clock + 1 else t.clock })

/-! ### The lifetime record (R431, R475) -/

/-- The minutes of the histograms of temperature and power since they were last brought up to date: free values (R431, log entry 7). -/
def tickMinutes (s : State) : State :=
  let add (base i : Nat) (v : Word32) : Word32 := satAdd v ((Config.freeValue (base + i)).toNat % 61)
  let n := s.fresh
  { s.modLife (fun l => { l with
      temph := Vector.ofFn (fun i : Fin 16 => add n i.val l.temph[i])
      powh := Vector.ofFn (fun i : Fin 16 => add n (16 + i.val) l.powh[i]) }) with fresh := n + 32 }

/-- The working copy, brought up to date, written to flash (R431). -/
def storeLife (s : State) : State :=
  let s := s.tickMinutes
  { s with plat := { s.plat with lifeStored := s.plat.life } }

/-- LIFETIME_FLUSH: another hour powered, and the record is written (R431). -/
def lifeFlush (s : State) : State := (s.modLife (fun l => { l with powerhrs := satSucc l.powerhrs })).storeLife

/-- CRITICAL_SHUTDOWN: every live context is killed, the lifetime record is written, and power is removed (R477, log entry 71). -/
def criticalShutdown (s : State) : State :=
  let live := (List.range 64).filter (fun h => (s.hctx h).st == .live)
  let s := (live.foldl (fun s h => s.kill h (ctxRecord h 0x20 0 0 0)) s).storeLife
  { s with plat := { s.plat with poweredOff := true } }

/-! ### SPDM (R472) -/

/-- What a measurement index digests: firmware images 1 to 3, configuration blocks 4 to 6, the key store 7 (R472). -/
def measured (s : State) (i : Nat) : List Byte :=
  if i ≤ 3 then ((s.plat.flash.firmware[i - 1]?).map (·.body)).getD []
  else if i ≤ 6 then ((configBodies s.plat.flash)[i - 4]?).getD []
  else s.keys.flatMap (fun e => e.2)

/-- SPDM_REQUEST: a measurement's digest with its signature by the device identity key (R472, log entry 11). -/
def spdm (s : State) (i : Nat) : State :=
  if i = 0 ∨ 7 < i then s
  else
    let d := Config.sha3 (s.measured i)
    { s with plat := { s.plat with spdm := d ++ Config.ecdsaSign s.plat.flash.identity.deviceKey d } }

end State

/-! ### Meanings -/

/-- COLD_RESET (R4). -/
def execColdReset (s : State) : Host.Outcome State Fault Refusal := .next s.coldReset

/-- STACKS_TRAINED (R473). -/
def execStacksTrained (s : State) : Host.Outcome State Fault Refusal := .next (s.bringUp (fun b => { b with hbm := true }))

/-- NEAR_MEMORY_ENGINES_TRAINED (R473). -/
def execNearMemoryEnginesTrained (s : State) : Host.Outcome State Fault Refusal :=
  .next (s.bringUp (fun b => { b with nmt := true }))

/-- THERMAL_CALIBRATION_DONE (R473). -/
def execThermalCalibrationDone (s : State) : Host.Outcome State Fault Refusal :=
  .next (s.bringUp (fun b => { b with cal := true }))

/-- THERMAL_LEVEL_ENTER (R476). -/
def execThermalLevelEnter (s : State) : Host.Outcome State Fault Refusal := .next s.levelEnter

/-- THERMAL_LEVEL_LEAVE (R476). -/
def execThermalLevelLeave (s : State) : Host.Outcome State Fault Refusal := .next s.levelLeave

/-- CLOCK_STEP (R476). -/
def execClockStep (down : Bool) (s : State) : Host.Outcome State Fault Refusal := .next (s.clockStep down)

/-- POWER_LIMIT_EXCEEDED: the clock steps down as at T4 (R477). -/
def execPowerLimitExceeded (s : State) : Host.Outcome State Fault Refusal := .next s.clockDown

/-- CRITICAL_SHUTDOWN (R477). -/
def execCriticalShutdown (s : State) : Host.Outcome State Fault Refusal := .next s.criticalShutdown

/-- LIFETIME_FLUSH (R431). -/
def execLifetimeFlush (s : State) : Host.Outcome State Fault Refusal := .next s.lifeFlush

/-- ORDERLY_SHUTDOWN: the lifetime record is written (R431). -/
def execOrderlyShutdown (s : State) : Host.Outcome State Fault Refusal := .next s.storeLife

/-- SPDM_REQUEST (R472). -/
def execSpdmRequest (index : Nat) (s : State) : Host.Outcome State Fault Refusal := .next (s.spdm index)

end Sys2Proof.Machine
end

