-- ==== Sys2Proof/Machine/Loader.lean ====
section
/-! DEFINITION. The loader: the image container, its checks, and what becomes resident (spec 02 R68; 03 R81, R91 to R97; 08 R205; 10 R291, R294; 13 R359, R364, R370; 14 R407). -/

namespace Sys2Proof.Machine

/-- A section directory entry (R92). -/
structure Sect where
  typ : Nat
  core : Nat
  off : Nat
  bytes : Nat
  count : Nat
  deriving DecidableEq, Repr

/-- The header fields the loader uses (R91). -/
structure ImgHead where
  wcode : Nat
  ncores : Nat
  nsect : Nat
  signed : Bool
  clgang : Bool
  depth : Nat
  size : Nat
  deriving DecidableEq, Repr

/-- An image as read: its header and its sections with their bytes. -/
structure RawImg where
  head : ImgHead
  sects : List (Sect × List Byte)
  deriving DecidableEq, Repr

/-- The bytes of one record of a section type (R92 to R95, R291, R407). -/
def recSize (typ : Nat) : Nat :=
  match typ with
  | 1 | 4 => 2
  | 2 | 7 => 48
  | 3 => 4
  | 5 | 8 | 9 => 16
  | 6 => 32
  | 10 => 8
  | 12 => 3309
  | _ => 1

/-- Whether a section type belongs to one gang core (R93). -/
def perCore (typ : Nat) : Bool := typ == 1 || typ == 2 || typ == 5 || typ == 6 || typ == 7

/-- The header of an image, when its magic number, version and reserved fields are right (R91). -/
def headOf (h : Nat) : Option ImgHead :=
  if bitsAt h 0 32 = 0x31584741 ∧ bitsAt h 32 16 = 1 ∧ bitsAt h 82 14 = 0 ∧ bitsAt h 192 64 = 0 then
    some { wcode := bitsAt h 48 8, ncores := bitsAt h 56 8, nsect := bitsAt h 64 16, signed := h.testBit 80
           clgang := h.testBit 81, depth := bitsAt h 96 32, size := bitsAt h 128 64 }
  else none

/-- A directory entry, when its reserved field is zero (R92). -/
def sectOf (e : Nat) : Option Sect :=
  if bitsAt e 24 8 = 0 then some ⟨bitsAt e 0 16, bitsAt e 16 8, bitsAt e 32 32, bitsAt e 64 32, bitsAt e 96 32⟩ else none

/-- Bytes cut into records of n, `k` of them, each a number. -/
def records (n : Nat) : (k : Nat) → List Byte → List Nat
  | 0, _ => []
  | k + 1, bs => leNat (bs.take n) :: records n k (bs.drop n)

/-- Whether no two of some extents overlap (R93). -/
def apart : List (Nat × Nat) → Bool
  | [] => true
  | e :: es => es.all (fun f => e.2 == 0 || f.2 == 0 || decide (e.1 + e.2 ≤ f.1 ∨ f.1 + f.2 ≤ e.1)) && apart es

/-- The rules of R91 to R93 and R97 on a header and its directory. DESIGN CHOICE (log entry 97): an image-wide section that stands twice is refused as a repeated per-core one is, and a section holds at least COUNT records, with spare bytes after them allowed. -/
def layoutOk (h : ImgHead) (ss : List Sect) : Bool :=
  let g := (widthOf h.wcode).getD 0
  let has (t c : Nat) : Bool := ss.any (fun e => e.typ == t && e.core == c)
  g != 0 && decide (1 ≤ h.ncores ∧ h.ncores ≤ 32) &&
  (if h.clgang then h.ncores * g % 4 == 0 && decide (h.ncores * g ≤ 32) else h.ncores == 1) &&
  ss.all (fun e => decide (1 ≤ e.typ ∧ e.typ ≤ 12) && e.off % 16 == 0 && decide (e.off + e.bytes ≤ h.size) &&
    (if perCore e.typ then decide (e.core < h.ncores) else e.core == 0xFF) &&
    decide (e.count * recSize e.typ ≤ e.bytes) &&
    ss.countP (fun f => f.typ == e.typ && f.core == e.core) == 1) &&
  apart ((0, 32 + 16 * h.nsect) :: ss.map (fun e => (e.off, e.bytes))) &&
  [3, 4, 9].all (fun t => has t 0xFF) && (List.range h.ncores).all (fun c => [1, 2, 7].all (fun t => has t c)) &&
  h.signed == has 12 0xFF &&
  (!h.signed || ss.all (fun e => e.typ == 12 || ss.all (fun f => f.typ != 12 || decide (e.off + e.bytes ≤ f.off))))

namespace RawImg

/-- The section of a type and core. -/
def sect? (r : RawImg) (t c : Nat) : Option (Sect × List Byte) := r.sects.find? (fun e => e.1.typ == t && e.1.core == c)

/-- The records of a section; none where it is absent. -/
def recs (r : RawImg) (t c : Nat) : List Nat :=
  match r.sect? t c with
  | some e => records (recSize t) e.1.count e.2
  | none => []

end RawImg

/-! ### Records (R94, R95, R291, R370, R407) -/

/-- A segment record, when its reserved fields are zero; bit 0 of LIVEX, LIVEP and LIVEQ is kept as it stands and names no storage (R94, log entry 70). -/
def segOf (v : Nat) : Option SegRec :=
  if bitsAt v 131 29 = 0 ∧ bitsAt v 304 16 = 0 then
    some { start := BitVec.ofNat 32 v, endseg := BitVec.ofNat 32 (v / 2 ^ 32), icount := BitVec.ofNat 32 (v / 2 ^ 64)
           sign := BitVec.ofNat 32 (v / 2 ^ 96), chk := v.testBit 128, safe := v.testBit 129, susp := v.testBit 130
           livex := BitVec.ofNat 64 (v / 2 ^ 160), livea := BitVec.ofNat 16 (v / 2 ^ 224), livep := BitVec.ofNat 16 (v / 2 ^ 240)
           liveq := BitVec.ofNat 8 (v / 2 ^ 256), liveb := BitVec.ofNat 8 (v / 2 ^ 264), livev := BitVec.ofNat 32 (v / 2 ^ 272)
           livek := BitVec.ofNat 64 (v / 2 ^ 320) }
  else none

/-- Whether the segment records of a core may be loaded, as many as the segment table has room for (R364, `segRoom`). -/
def segsOk (ss : List SegRec) : Bool :=
  ss.all (fun r => !(r.susp && r.endseg == 0xFFFFFFFF)) &&
  (ss.zip (ss.drop 1)).all (fun e => decide (e.1.start.toNat < e.2.start.toNat))

/-- A scratchpad plan record within its limits; one outside them refuses the image (R95, log entry 97). -/
def spadOf (g v : Nat) : Option Spad :=
  let r : Spad := ⟨bitsAt v 64 32, bitsAt v 96 32, bitsAt v 16 8, bitsAt v 0 16, bitsAt v 32 32⟩
  if bitsAt v 24 8 = 0 ∧ r.bank < 32 * g ∧ 16 ≤ r.size ∧ r.size % 16 = 0 ∧ r.off % 16 = 0 ∧ r.off + r.size ≤ 65536 then some r else none

/-- Whether two plan records overlap where their live ranges meet (R96). DESIGN CHOICE (log entry 97): TO is inside the range, so ranges that touch at one bundle index meet. -/
def spadClash (a b : Spad) : Bool :=
  a.bank == b.bank && decide (a.off < b.off + b.size ∧ b.off < a.off + a.size ∧ a.from_ ≤ b.to_ ∧ b.from_ ≤ a.to_)

/-- Whether no two plan records of a core clash (R96). -/
def spadsOk : List Spad → Bool
  | [] => true
  | a :: as => as.all (fun b => !spadClash a b) && spadsOk as

/-- A copy-schedule record that the loader takes at a width and a footprint (R291, R294). -/
def schedOf (g : Nat) (fp : List (Bool × Nat)) (v : Nat) : Option SchedEnt :=
  let e : SchedEnt :=
    { soff := bitsAt v 0 64, doff := bitsAt v 64 64, sbase := bitsAt v 136 4, dbase := bitsAt v 140 4, len := bitsAt v 144 32
      stage := bitsAt v 176 16, tok := if v.testBit 195 then some (Fin.ofNat 8 (bitsAt v 192 3)) else none
      oc := v.testBit 196, port := BitVec.ofNat 2 (bitsAt v 197 2), addw := v.testBit 199 }
  let own (code off : Nat) : Bool := code != 6 || decide (off + e.len ≤ 32 * g * 65536)
  if bitsAt v 128 8 = 0 ∧ bitsAt v 200 56 = 0 ∧ e.sbase ≤ 7 ∧ e.dbase ≤ 6 ∧
      (e.dbase = 6 ∨ ((fp[e.dbase]?).map (·.1)) = some true) ∧ own e.sbase e.soff = true ∧ own e.dbase e.doff = true then some e else none

/-- A bucket record (R407). -/
def bucketOf (v : Nat) : Option Bucket :=
  if bitsAt v 1 43 = 0 ∧ bitsAt v 64 32 = 0 then
    some ⟨v.testBit 0, bitsAt v 51 13, bitsAt v 44 7, BitVec.ofNat 32 (v / 2 ^ 96)⟩
  else none

/-- Whether a bucket record may be loaded with an image's segments (R407). -/
def bucketOk (cores : List CoreImg) (b : Bucket) : Bool :=
  !b.valid || (decide (1 ≤ b.occl ∧ b.occl ≤ 4096 ∧ b.draftl ≤ 64) &&
    cores.all (fun k => k.segs.any (fun r => r.start == b.entry)))

/-- A footprint template entry (R95). -/
def footOf (v : Nat) : Option (Bool × Nat) := if bitsAt v 65 63 = 0 then some (v.testBit 64, bitsAt v 0 64) else none

/-- A push-queue descriptor: the outer Option is none where the loader refuses it (R370). DEDUCED (log entry 97): of a descriptor with VALID 0 only the reserved fields are tested. -/
def pushOf (g : Nat) (cores : List CoreImg) (v : Nat) : Option (Option PushDesc) :=
  if bitsAt v 0 28 ≠ 0 ∨ bitsAt v 47 2 ≠ 0 then none
  else if !v.testBit 63 then some none
  else
    let d : PushDesc := ⟨bitsAt v 58 5, bitsAt v 53 5, bitsAt v 49 4, bitsAt v 40 7, bitsAt v 28 12⟩
    let n := 2 ^ d.logd
    let inside (r : Spad) : Bool := r.bank == d.bank && decide (r.off ≤ 16 * d.goff ∧ 16 * (d.goff + n) ≤ r.off + r.size)
    if 4 ≤ d.logd ∧ d.logd ≤ 12 ∧ d.prod < cores.length ∧ d.cons < cores.length ∧ d.goff + n ≤ 4096 ∧ d.bank < 32 * g ∧
        ((cores[d.cons]?).map (fun k => k.spad.any inside)) = some true then some (some d)
    else none

/-! ### The accumulator window (R205) -/

/-- The literal bundles of an index stream, `fuel` halfwords at most (R77). -/
def literals : (fuel : Nat) → List Nat → List Nat
  | 0, _ => []
  | n + 1, hs =>
      match hs with
      | [] => []
      | h :: hs =>
          if h = 0xFFFF then
            leNat ((hs.take 24).flatMap (fun x => leBytes 2 x)) :: literals n (hs.drop 24)
          else literals n hs

/-- One more than the tile field of a bundle's M-slot operation; 0 where there is none (R205). -/
def tileTop (b : BitVec 384) : Nat :=
  if (headerOf b).lends 4 then 0
  else
    let w := slotWord b 4
    let f := Fields.unpack .m w
    if 1 ≤ f.op ∧ f.op ≤ 9 then (if f.op = 8 then f.s else f.d) % 32 + 1 else 0

/-- TN of a gang core (R205). -/
def tnOf (index : List Nat) (dict : List (BitVec 384)) : Nat :=
  ((dict ++ (literals index.length index).map (BitVec.ofNat 384)).map tileTop).foldl max 0

/-- A gang core of an image (R93). -/
def coreOfImg (r : RawImg) (g : Nat) (fp : List (Bool × Nat)) (c : Nat) : Option CoreImg := do
  let index := r.recs 1 c
  let dict := (r.recs 2 c).map (BitVec.ofNat 384)
  let segs ← (r.recs 7 c).mapM segOf
  let spad ← (r.recs 5 c).mapM (spadOf g)
  let sched ← (r.recs 6 c).mapM (schedOf g fp)
  if segsOk segs && spadsOk spad then
    some { index := index.map (BitVec.ofNat 16), dict := dict, spad := spad, sched := sched, segs := segs, tn := tnOf index dict }
  else none

/-! ### Relocation (R96) -/

/-- The bytes of a relocated field, or none for another KIND (R95). -/
def relocBytes (kind : Nat) : Option Nat :=
  match kind with
  | 1 => some 4
  | 2 => some 6
  | 3 => some 8
  | _ => none

/-- One relocation applied to an image, by the address of its DATA section; one outside R95's limits refuses the image (R95, R96, log entry 97). -/
def relocate (dva : Nat) (r : RawImg) (v : Nat) : Option RawImg := do
  let n ← relocBytes (bitsAt v 0 16)
  let i := bitsAt v 16 16
  let o := bitsAt v 32 32
  let e ← r.sects[i]?
  let sum := leNat ((e.2.drop o).take n) + dva
  if o + n ≤ e.1.bytes ∧ sum < 2 ^ (8 * n) then
    some { r with sects := r.sects.set i (e.1, State.overlay e.2 o (leBytes n sum)) }
  else none

/-- Every relocation of an image, first to last, in the order of its records (R96). -/
def relocateAll (dva : Nat) : List Nat → RawImg → Option RawImg
  | [], r => some r
  | v :: vs, r => (relocate dva r v).bind (relocateAll dva vs)

namespace State

/-! ### Reading an image (R91, R92) -/

/-- The header, directory and section bytes of an image at an address, when its layout is right (R91 to R93). -/
def readImage (s : State) (h va : Nat) : Option RawImg := do
  let hd ← (s.sysRead h va 32).bind (fun bs => Machine.headOf (leNat bs))
  let dir ← s.sysRead h (va + 32) (16 * hd.nsect)
  let ss ← (records 16 hd.nsect dir).mapM sectOf
  if layoutOk hd ss then
    let bodies ← ss.mapM (fun e => (s.sysRead h (va + e.off) e.bytes).map (fun bs => (e, bs)))
    some ⟨hd, bodies⟩
  else none

/-- The key slot whose trusted key verifies an image's signature (R97). -/
def signer (s : State) (h va : Nat) (r : RawImg) : Option Nat :=
  match r.sect? 12 0xFF with
  | none => none
  | some e => match s.sysRead h va e.1.off with
    | none => none
    | some body => (List.range 32).find? (fun k =>
        (s.hctx h).trust.getLsbD k && (match s.keys.get? k with
          | some key => Config.mldsaVerify key (Config.sha3 body) e.2
          | none => false))

/-- The segment records an image adds to the segment table (R354, R364). -/
def segRecords (i : Image) : Nat := (i.cores.map (·.segs.length)).sum

/-- Whether the segment table has room for an image beside the resident ones, and each core has at most 65,536 records (R364, R464, log entry 92). -/
def segRoom (s : State) (i : Image) : Bool :=
  i.cores.all (fun k => decide (k.segs.length ≤ 65536)) &&
  decide ((s.images.map segRecords).sum + segRecords i ≤ Config.segTableEntries)

/-- The sections that relocation changed, each with the address it stands at (R96). -/
def changedSects (va : Nat) (r0 r : RawImg) : List (Nat × List Byte) :=
  (r0.sects.zip r.sects).filterMap (fun e => if e.1.2 == e.2.2 then none else some (va + e.2.1.off, e.2.2))

/-- An image as it becomes resident but for its handle, with the sections that relocation changes in memory, or the STATUS of its refusal (R68, R91 to R97, R205, R294, R359, R364, R370, R407, R464). DESIGN CHOICE (log entry 97): an image with relocation records and no DATA section is refused. -/
def buildImage (s : State) (h va pva : Nat) : Except Nat (Image × List (Nat × List Byte)) :=
  match s.readImage h va with
  | none => .error 2
  | some r0 =>
      let data := (r0.sect? 11 0xFF).map (fun e => va + e.1.off)
      let g := (widthOf r0.head.wcode).getD 1
      let built : Option (RawImg × Image) := do
        let rel := r0.recs 10 0xFF
        let r ← if rel.isEmpty then some r0 else data.bind (fun d => relocateAll d rel r0)
        let fp ← (r.recs 9 0xFF).mapM footOf
        let cores ← (List.range r.head.ncores).mapM (coreOfImg r g fp)
        let starts := (r.recs 3 0xFF).map (BitVec.ofNat 32)
        let lat := r.recs 4 0xFF
        let bk ← (r.recs 8 0xFF).mapM bucketOf
        let words ← if pva = 0 then some [] else (s.sysRead h pva 512).map (fun bs => records 8 64 bs)
        let push ← words.mapM (pushOf g cores)
        if starts.length = r.head.ncores ∧ lat.length = 5 ∧ lat.all (fun l => decide (1 ≤ l ∧ l ≤ 4095)) = true ∧ fp.length = 6 ∧
            bk.length ≤ 32 ∧ bk.all (bucketOk cores) = true then
          some (r, { handle := 0, hc := h, va := BitVec.ofNat 72 va, width := g, clgang := r.head.clgang, depth := r.head.depth
                     starts := starts, latency := lat, cores := cores, footprint := fp
                     buckets := if (r.sect? 8 0xFF).isSome then some bk else none, push := push, data := data
                     keySlot := none })
        else none
      match built with
      | none => .error 2
      | some (r, i) =>
          let save := if g = 4 then 11700 else if g = 2 then 6300 else 3600
          if (s.hctx h).preempt * 1800 < i.depth + save then .error 1
          else if i.cores.any (fun k => decide (Config.dictEntries < windowSize k.dict.length)) || !s.segRoom i then .error 3
          else
            let slot := if r.head.signed then s.signer h va r0 else none
            if (s.hctx h).trust ≠ 0 ∧ slot = none then .error 1
            else .ok ({ i with keySlot := slot }, changedSects va r0 r)

/-! ### Page-table entries by level (R371, R372, R373) -/

/-- The address of a page's entry, some pointer steps below a table of a level; none at an entry that is not a pointer (R371, R464). -/
def descend (m : Mem) (va : Nat) : (steps level base : Nat) → Option Nat
  | 0, level, base => some (base + va / 65536 / 16384 ^ level % 16384 * 8)
  | n + 1, level, base =>
      let e := leNat (m.readN (base + va / 65536 / 16384 ^ level % 16384 * 8) 8)
      if !e.testBit 63 || e.testBit 62 then none else descend m va n (level - 1) (e / 2 ^ 17 % 2 ^ 35 * 2 ^ 17)

/-- The address of an address's entry at a level of a context's tables (R371). -/
def entryAt (s : State) (h level va : Nat) : Option Nat :=
  descend s.mem va (3 - level) 3 ((s.hctx h).rootpa.toNat / 2 ^ 17 % 2 ^ 35 * 2 ^ 17)

/-- The address of the entry whose leaf maps an address. -/
def leafAt (s : State) (h va : Nat) : Option Nat :=
  match s.entryAt h 1 va with
  | none => none
  | some a => if (leNat (s.mem.readN a 8)).testBit 62 then some a else s.entryAt h 0 va

/-- The pages of an extent made read-only: W cleared in their leaves, and their translations dropped (R81, log entry 70). -/
def protectPages (s : State) (h va n : Nat) : State :=
  (pagesOf va n).foldl (fun (s : State) (c : Nat × Nat) => match s.leafAt h c.1 with
    | none => s
    | some a =>
        let s := { s with mem := s.mem.write (a + 7) [s.mem.read (a + 7) &&& 0xF7] }
        { s with clusters := s.clusters.map (fun (e : Nat × Cluster) => (e.1, { e.2 with tlb := e.2.tlb.filter (fun t => !leafCovers t h c.1) })) }) s

/-- The chunks, each within a page, of some relocated sections: what the loader writes back (R96). -/
def backChunks (data : List (Nat × List Byte)) : List (Nat × List Byte) :=
  data.flatMap (fun d => (pagesOf d.1 d.2.length).map (fun c => (c.1, (d.2.drop (c.1 - d.1)).take c.2)))

/-- Bytes of an image written back at their homes, through its leaves whatever their W (R96, log entry 70). -/
def writeBack (s : State) (h : Nat) (data : List (Nat × List Byte)) : State :=
  (backChunks data).foldl (fun s c => match s.sysPa h c.1 false with
    | none => s
    | some p => s.sysPut p.1 p.2 c.2) s

/-- The lines that bytes of an image go back to (R13, R96). -/
def backLines (s : State) (h : Nat) (data : List (Nat × List Byte)) : List Nat :=
  (backChunks data).flatMap (fun c => match s.sysPa h c.1 false with
    | none => []
    | some p => linesOf p.1 c.2.length)

/-- An image made resident: its relocated sections in place, its pages read-only, its tables kept (R81, R96, R364, R463). -/
def residentImage (s : State) (h va size : Nat) (i : Image) (data : List (Nat × List Byte)) : Nat × State :=
  let (id, s) := (s.writeBack h data).newId
  (id % 2 ^ 32, { s.protectPages h va size with images := s.images ++ [{ i with handle := id % 2 ^ 32 }] })

end State

end Sys2Proof.Machine
end

