-- ==== Sys2Proof/Machine/Mailbox.lean ====
section
/-! DEFINITION. The host's side of the part: BAR0 and context blocks, pause, resume and debug halt, and the mailbox commands (spec 12 R325, R329, R341; 13 R364 to R377; 14 R384, R385, R392, R395; 16 R457 to R460; 17 R461 to R468, R475). -/

namespace Sys2Proof.Machine

namespace State

/-! ### Pause, resume, halt (R443, R457, R460, R462) -/

/-- CONTROL.PAUSE written; setting it marks every resident gang of the context for pre-emption, those whose start is still going on among them (R66, R457, R462). -/
def writePause (s : State) (h : Nat) (p : Bool) : State :=
  let s := s.modHctx h (fun c => { c with pause := p })
  if p then ((s.launches.filter (fun l => l.hc == h && (l.st == .running || l.st == .placing))).map (·.id)).foldl (fun s id => s.markGang false id) s else s

/-- RESUMEW: a resume by the host, which waits while the fault's core is halted (R443, R460). -/
def hostResume (s : State) (h : Nat) (w : BitVec 64) : State :=
  if s.resumeWaits h w then s.modHctx h (fun c => { c with resumes := c.resumes ++ [w] }) else (s.resumeFault h w).idle

/-- The resumes of a context that wait for a halted core, tried again in their order (R460, log entry 34). -/
def retryResumes (s : State) (h : Nat) : State :=
  let ws := (s.hctx h).resumes
  if ws.isEmpty then s
  else ws.foldl (fun s w => s.hostResume h w) (s.modHctx h (fun c => { c with resumes := [] }))

/-- HALTCTL written; level 0 lets the resumes that waited take effect (R458, R460). -/
def writeHalt (s : State) (core : Nat) (v : BitVec 2) : State :=
  let s := s.modCore core (fun c => { c with halt := v })
  if v = 0 then (List.range 64).foldl retryResumes s else s

/-! ### Context blocks (R325, R329, R462) -/

/-- A ring header's word written: BASE low, BASE high, LOGD, HEAD; fields outside their range keep their value (R325, R462). -/
def writeRing (size word : Nat) (v : BitVec 64) (r : Ring) : Ring :=
  match word with
  | 0 => if v.toNat % size = 0 then { r with base := BitVec.ofNat 72 (r.base.toNat / 2 ^ 64 * 2 ^ 64 + v.toNat) } else r
  | 1 => { r with base := BitVec.ofNat 72 (r.base.toNat % 2 ^ 64 + v.toNat % 256 * 2 ^ 64) }
  | 2 =>
      let d := bitsAt v.toNat 48 5
      if d = 0 ∨ (4 ≤ d ∧ d ≤ 16) then { r with logd := d } else r
  | _ => { r with head := BitVec.ofNat 32 (v.toNat / 2 ^ 32) }

/-- A stream descriptor's word written while MODE is 0 (R329, R462). -/
def writeDesc (word : Nat) (v : BitVec 64) (d : StreamD) : StreamD :=
  let n := v.toNat
  let hi (old : AWord) (lo : Nat) (x : Nat) : AWord := BitVec.ofNat 72 (old.toNat % 2 ^ lo + x * 2 ^ lo)
  let low (old : AWord) (bits : Nat) (x : Nat) : AWord := BitVec.ofNat 72 (old.toNat / 2 ^ bits * 2 ^ bits + x)
  match word with
  | 7 => { d with ringva := hi d.ringva 8 n }
  | 6 => { d with
      ringva := if bitsAt n 56 8 % 128 = 0 then low d.ringva 8 (bitsAt n 56 8) else d.ringva
      tailva := hi d.tailva 16 (bitsAt n 0 56) }
  | 5 => { d with
      tailva := if bitsAt n 48 16 % 8 = 0 then low d.tailva 16 (bitsAt n 48 16) else d.tailva
      tmplva := hi d.tmplva 24 (bitsAt n 0 48) }
  | 4 => { d with tmplva := low d.tmplva 24 (bitsAt n 40 24) }
  | 3 =>
      let l := bitsAt n 19 5
      if l = 0 ∨ (4 ≤ l ∧ l ≤ 16) then { d with logd := l } else d
  | _ => d

/-- A word of a stream descriptor written: its fields while MODE is 0, then MODE itself (R329). -/
def writeStream (s : State) (h : Nat) (i : Fin 4) (word : Nat) (v : BitVec 64) : State :=
  let s := if (s.streamD h i).mode = 0 then s.modStream h i (writeDesc word v) else s
  if word = 3 then s.writeMode h i (BitVec.ofNat 2 (bitsAt v.toNat 14 2)) else s

/-- The tables reachable from a table of a level, as blocks of 128 KiB (R371). -/
def tableBlocks (m : Mem) : (level base : Nat) → List Nat
  | 0, base => [base / 131072]
  | n + 1, base => (base / 131072) :: (tableEntries m base).flatMap (fun e =>
      if e.2.testBit 63 && !e.2.testBit 62 then tableBlocks m n (e.2 / 2 ^ 17 % 2 ^ 35 * 2 ^ 17) else [])

/-- A word of a context block written (R462). -/
def writeBlock (s : State) (h off : Nat) (v : BitVec 64) : State :=
  let n := v.toNat
  if off < 0xC0 then
    let i := off / 32
    let size := if i = 5 then 64 else 32
    s.modHctx h (fun c => { c with rings := Vector.ofFn (fun k : Fin 6 =>
      if k.val = i then writeRing size (off / 8 % 4) v c.rings[k] else c.rings[k]) })
  else if off < 0x1C0 then s.writeStream h (Fin.ofNat 4 ((off - 0xC0) / 64)) (off / 8 % 8) v
  else if off = 0x1C0 then
    if (s.hctx h).st = .live then s
    else
      let root := bitsAt n 17 35 * 2 ^ 17
      { s.modHctx h (fun c => { c with rootpa := BitVec.ofNat 64 root }) with
        reserved := (tableBlocks s.mem 3 root).foldl NSet.add s.reserved }
  else if off = 0x1C8 then (if n % 64 = 0 then s.modHctx h (fun c => { c with btva := v }) else s)
  else if off = 0x1D0 then (if n % 65536 = 0 then s.modHctx h (fun c => { c with saveva := v }) else s)
  else if off = 0x1D8 then s.modHctx h (fun c => { c with saven := n % 2 ^ 32, trust := BitVec.ofNat 32 (n / 2 ^ 32) })
  else if off = 0x1E0 then
    let p := n % 2 ^ 32
    let w := n / 2 ^ 32
    s.modHctx h (fun c => { c with
      preempt := if 5 ≤ p ∧ p ≤ 10000 then p else c.preempt
      wdog := if 1 ≤ w ∧ w ≤ 1000000 then w else c.wdog })
  else if off = 0x1E8 then (s.modHctx h (fun c => { c with tlbgrant := v.getLsbD 1 })).writePause h (v.getLsbD 0)
  else if off = 0x1F0 then s.hostResume h v
  else s

/-! ### BAR0 (R3, R461, R463) -/

/-- The command codes of R463. -/
def opCodes : List Nat :=
  [0x01, 0x02, 0x03, 0x10, 0x11, 0x20, 0x21, 0x30, 0x31, 0x32, 0x33, 0x40, 0x50, 0x51, 0x52, 0x60]

/-- A command's result written: STATUS and a value; the mailbox is free again, its turns are given up, and the answers its reads were given are used up (R463). -/
def answer (s : State) (status value : Nat) : State :=
  { (giveUp (ioTurn 1 0) s).takeReplies 128 0 0 with mbox := { s.mbox with busy := false, result := BitVec.ofNat 64 (status + value * 256) } }

/-- The doorbell: ignored while a command runs; an unknown OP is answered INVALID at once (R463, R464). -/
def doorbell (s : State) : State :=
  if s.mbox.busy then s
  else if opCodes.contains (s.mbox.cmd[0].toNat) then { s with mbox := { s.mbox with busy := true } }
  else s.answer 2 0

/-- HOST_REGISTER_WRITE: eight bytes of BAR0 (R3, R461). -/
def writeBar (s : State) (off : Nat) (v : BitVec 64) : State :=
  if off % 8 ≠ 0 then s
  else if off < 64 then
    if s.mbox.busy then s
    else { s with mbox := { s.mbox with cmd := Vector.ofFn (fun i : Fin 64 =>
        if off ≤ i.val ∧ i.val < off + 8 then v.extractLsb' (8 * (i.val - off)) 8 else s.mbox.cmd[i]) } }
  else if off = 0xFF8 then (if v = 1 then s.doorbell else s)
  else if 0x4000 ≤ off ∧ off < 0x5000 then
    let core := (off - 0x4000) / 32
    if off % 32 = 0 then s.modCore core (fun c => { c with policy := v.getLsbD 0 })
    else if off % 32 = 8 then s.writeHalt core (v.extractLsb' 0 2)
    else s
  else if 0x20000 ≤ off ∧ off < 0x60000 then s.writeBlock ((off - 0x20000) / 4096) (off % 4096) v
  else s

/-! ### Commands (R463, R464) -/

/-- The fields of a mailbox command (R464). -/
structure Cmd where
  hc : Nat
  sub : Nat
  va1 : Nat
  va2 : Nat
  w1 : Nat
  w2 : Nat
  w3 : Nat
  rest : Bool
  deriving DecidableEq, Repr

/-- The mailbox's command read by its fields; `rest` says that the bytes marked zero are zero (R464). -/
def cmdOf (m : Mailbox) : Cmd :=
  let b := m.cmd.toList
  let f (lo n : Nat) : Nat := leNat ((b.drop lo).take n)
  { hc := f 1 1, sub := f 2 1, va1 := f 8 9, va2 := f 24 9, w1 := f 40 8, w2 := f 48 8, w3 := f 56 8
    rest := f 3 5 == 0 && f 17 7 == 0 && f 33 7 == 0 }

/-- The fields a command uses (R464). -/
structure Uses where
  hc : Bool := false
  sub : Bool := false
  va1 : Bool := false
  va2 : Bool := false
  w1 : Bool := false
  w2 : Bool := false
  w3 : Bool := false
  deriving DecidableEq, Repr

/-- Whether every field a command does not use is zero and HC names a context (R464, log entry 69). -/
def fieldsOk (u : Uses) (c : Cmd) : Bool :=
  c.rest && decide (c.hc < 64) && (u.hc || c.hc == 0) && (u.sub || c.sub == 0) && (u.va1 || c.va1 == 0) &&
  (u.va2 || c.va2 == 0) && (u.w1 || c.w1 == 0) && (u.w2 || c.w2 == 0) && (u.w3 || c.w3 == 0)

/-- How a command ends: done with a value, refused by a STATUS, or tried again from a state in which its reads or its turns wait at their homes. -/
inductive Answer where
  | ok (value : Nat) (s : State)
  | refused
  | invalid
  | noSpace
  | later (s : State)

/-- The command in the mailbox run when its code is op and it has been rung: INVALID for its fields, else its effect with the result word; a refusal changes nothing (R463, R464). -/
def command (op : Nat) (u : Uses) (ok : Cmd → Bool) (run : Cmd → State → Answer) (s : State) : State :=
  if !s.mbox.busy || s.mbox.cmd[0].toNat != op then s
  else
    let c := cmdOf s.mbox
    if !fieldsOk u c || !ok c then s.answer 2 0
    else match run c s with
      | .ok v s => s.answer 0 v
      | .refused => s.answer 1 0
      | .invalid => s.answer 2 0
      | .noSpace => s.answer 3 0
      | .later s => s

/-- A command that reads bytes of a context: its reads wait at homes that are not free, and the command is tried again; otherwise it runs (R13, R257). -/
def reading (h va n : Nat) (run : State → Answer) (s : State) : Answer :=
  if s.sysHeld h va n then .later (s.sysAsk h va n) else run s

/-- A command's effect on some lines in its turn at each, or the command tried again (R13, R257). -/
def turned (lines : List Nat) (run : State → Answer) (s : State) : Answer :=
  let o := ioTurn 1 0
  if !s.linesMine o lines then .later (joinLines o lines s)
  else match run (s.asMine o lines) with
    | .ok v t => .ok v (giveBack o lines s t)
    | .later t => .later (keepBack o lines s t)
    | r => r

/-- The block of 128 KiB that holds a context's root table (R371, R462). -/
def rootBlock (c : Hctx) : Nat := c.rootpa.toNat / 2 ^ 17 % 2 ^ 35

/-- The blocks withheld for one context's page tables: all that its root reaches, of a free context too while its ROOTPA names one (R354, R371, R462, log entry 10). -/
def ctxBlocks (m : Mem) (c : Hctx) : List Nat :=
  if c.st == .free && c.rootpa == 0 then [] else tableBlocks m 3 (rootBlock c * 131072)

/-- The tables that a context's root reaches withheld beside the others (R354). -/
def reserveTables (s : State) (c : Hctx) : State := { s with reserved := (tableBlocks s.mem 3 (rootBlock c * 131072)).foldl NSet.add s.reserved }

/-- HCCREATE: the tables that the root it keeps reaches are reserved (R354, R462, R463). -/
def hcCreate (c : Cmd) (s : State) : Answer :=
  if (s.hctx c.hc).st ≠ .free then .refused
  else .ok 0 ((s.setHctx c.hc (Hctx.fresh .live (s.hctx c.hc).rootpa)).reserveTables (s.hctx c.hc))

/-- The blocks withheld for every context's page tables (R354). -/
def tablesOf (s : State) : NSet :=
  s.ctxs.foldl (fun (r : NSet) e => (ctxBlocks s.mem e.2).foldl NSet.add r) []

/-- The keys of a context's mappings. -/
def ctxKeys (s : State) (h : Nat) : List MKey :=
  let mine (k : MKey) : Bool := k.hc == h
  (s.slots.filterMap (fun e => e.2.key.map (·.1)) ++ s.cells.map (fun e => e.2.key)).filter mine

/-- The table lines of a context's arena: its record, its blocks, its mappings and its prefix entries. -/
def arenaLines (s : State) (h : Nat) : List Nat :=
  medLine h :: (List.range (s.med h).count).map (fun i => blkLine ((s.med h).base + i)) ++ (s.ctxKeys h).flatMap s.findLines ++
  (s.pfx.filter (fun e => e.2.hc == h)).flatMap (fun e => pfxLines e.1)

/-- A context's arena unregistered: its blocks, mappings and prefix entries are gone (R384, R463). -/
def unregister (s : State) (h : Nat) : State :=
  let s := (s.ctxKeys h).foldl removeMap s
  let s := { s with
    pfx := s.pfx.filter (fun e => e.2.hc != h)
    blks := s.blks.filter (fun e => !(decide ((s.med h).base ≤ e.1 ∧ e.1 < (s.med h).base + (s.med h).count))) }
  s.modMed h (fun _ => MedRec.reset)

/-- The banks a context owns zeroed with every bit clear and given up; their modes stay (R368). -/
def releaseBanks (s : State) (h : Nat) : State :=
  s.clusters.foldl (fun s e =>
    (e.2.banks.filter (fun b => b.2.owner == some h)).foldl (fun s b =>
      (s.bankClear (bankAddr e.1 (b.1 * 65536)) 65536).modBank e.1 b.1 (fun k => { k with owner := none, fhead := 0, ftail := 0 })) s) s

/-- HCDESTROY (R368, R463). -/
def hcDestroy (c : Cmd) (s : State) : Answer :=
  let h := c.hc
  if (s.hctx h).st = .free ∨ s.journal.any (fun l => l.hc == h) then .refused
  else turned (if (s.med h).count = 0 then [] else s.arenaLines h) (fun s =>
    let s := [ioTurn 2 h, ioTurn 3 (4 * h), ioTurn 3 (4 * h + 1), ioTurn 3 (4 * h + 2), ioTurn 3 (4 * h + 3)].foldl (fun s o => giveUp o s) s
    let s := { s with images := s.images.filter (fun g => g.hc != h) }
    let s := (s.unregister h).releaseBanks h
    let s := s.modHctx h (fun k => { k with st := .free })
    .ok 0 { s with reserved := s.tablesOf }) s

/-- HCRESTART (R452, R463). -/
def hcRestart (c : Cmd) (s : State) : Answer :=
  if (s.hctx c.hc).st ≠ .killed then .refused else .ok 0 (s.modHctx c.hc (fun k => { k with st := .live }))

/-- The length of the image at an address, its header's; 32 where the header does not read (R91). -/
def imageSize (s : State) (h va : Nat) : Nat :=
  (((s.sysRead h va 32).bind (fun bs => Machine.headOf (leNat bs))).map (·.size)).getD 32

/-- The image at an address checked and made resident, once its bytes read (R68, R93, R463, R464). -/
def settleImage (c : Cmd) (s : State) : Answer :=
  match s.buildImage c.hc c.va1 c.va2 with
  | .error e => if e = 1 then .refused else if e = 3 then .noSpace else .invalid
  | .ok (i, data) => turned (s.backLines c.hc data) (fun s =>
      let r := s.residentImage c.hc c.va1 (s.imageSize c.hc c.va1) i data
      .ok r.1 r.2) s

/-- RESIDE (R463, log entry 69). -/
def residency (c : Cmd) (s : State) : Answer :=
  if (s.hctx c.hc).st ≠ .live then .refused
  else reading c.hc c.va1 32 (fun s => reading c.hc c.va1 (s.imageSize c.hc c.va1)
    (if c.va2 = 0 then settleImage c else reading c.hc c.va2 512 (settleImage c)) s) s

/-- UNLOAD (R364). -/
def unloadImage (c : Cmd) (s : State) : Answer :=
  if (s.hctx c.hc).st = .free then .refused
  else if !s.images.any (fun g => g.hc == c.hc && g.handle == c.w1) then .invalid
  else if s.journal.any (fun l => l.hc == c.hc && l.image == c.w1) then .refused
  else .ok 0 { s with images := s.images.filter (fun g => !(g.hc == c.hc && g.handle == c.w1)) }

/-- Whether a leaf's bytes may be mapped with a class (R239, R373, R452, R468). -/
def leafOk (s : State) (pa n pclass : Nat) : Bool :=
  pkind pa != .hole && pkind (pa + n - 1) == pkind pa &&
  !(s.reserved.any (fun b => decide (b * 131072 < pa + n ∧ pa < (b + 1) * 131072))) &&
  !decide (Config.tableBase < pa + n ∧ pa < Config.hbmBytes) &&
  !(s.retired.any (fun f => decide (f * 65536 < pa + n ∧ pa < (f + 1) * 65536))) &&
  (if pkind pa == .pool then
    decide (pclass ≠ 0) && poolDevOf pa == poolDevOf (pa + n - 1) &&
      covers (s.poolDev (poolDevOf pa)).extents ((pa - Config.poolBase) % 2 ^ 42) n
   else pclass == 0)

/-- Whether the translation port takes an entry at a level (R372, R373). -/
def entryOk (s : State) (level e : Nat) : Bool :=
  if !e.testBit 63 then true
  else if bitsAt e 52 7 ≠ 0 ∨ bitsAt e 0 16 ≠ 0 then false
  else if e.testBit 62 then
    (if level = 0 then s.leafOk (bitsAt e 16 36 * 65536) 65536 (bitsAt e 60 2)
     else level == 1 && bitsAt e 16 14 == 0 && s.leafOk (bitsAt e 30 22 * 2 ^ 30) (2 ^ 30) (bitsAt e 60 2))
  else
    level != 0 && bitsAt e 59 3 == 0 && !e.testBit 16 && decide (bitsAt e 17 35 * 2 ^ 17 + 131072 ≤ Config.hbmBytes)

/-- PTEWRITE: an entry written at its place, with the table a pointer names reserved (R373, R464). -/
def pteWrite (c : Cmd) (s : State) : Answer :=
  if (s.hctx c.hc).st = .free then .refused
  else match s.entryAt c.hc c.sub c.va1 with
    | none => .refused
    | some a =>
        if !s.entryOk c.sub c.w1 then .invalid
        else turned [a / 64] (fun s =>
          let s := s.homePut a (leBytes 8 c.w1) false
          .ok 0 (if c.w1.testBit 63 && !c.w1.testBit 62 then { s with reserved := s.reserved.add (bitsAt c.w1 17 35) } else s)) s

/-- TLBDROP, which completes as a TLBINV does (R377). -/
def tlbDrop (c : Cmd) (s : State) : Answer :=
  if (s.hctx c.hc).st = .free then .refused
  else match s.dropLeaves (if c.sub = 0 then .page c.hc c.va1 else .hc c.hc) with
    | some t => .ok 0 t
    | none => .later s

/-- The block entries of an arena: index, frame, whether in the pool; none where a page does not suit (R385). -/
def arenaPages (s : State) (h arena base count : Nat) : Option (List (Nat × Nat × Bool)) :=
  (List.range count).mapM (fun i =>
    match s.walk h (((BitVec.ofNat 64 arena).signExtend 72).toNat + 65536 * i) with
    | none => none
    | some e =>
        let pa := leafPa e (((BitVec.ofNat 64 arena).signExtend 72).toNat + 65536 * i)
        if e.w && (if e.pclass == 0 then pkind pa == .hbm else e.pclass == 1 || e.pclass == 3) then some (base + i, pa, e.pclass != 0)
        else none)

/-- Whether no number stands twice in a list. -/
def distinct : List Nat → Bool
  | [] => true
  | a :: as => !as.contains a && distinct as

/-- MEDREG: a context's arena registered (R385). -/
def register (c : Cmd) (s : State) : Answer :=
  let h := c.hc
  let base := bitsAt c.w2 0 22
  let count := bitsAt c.w2 32 22
  let logtpb := c.w3
  if count = 0 ∨ 2 ^ 22 < base + count ∨ 8 < logtpb then .invalid
  else if (s.hctx h).st ≠ .live ∨ (s.med h).count ≠ 0 then .refused
  else if s.ctxs.any (fun e => e.1 != h && decide (e.2.med.count ≠ 0 ∧ base < e.2.med.base + e.2.med.count ∧ e.2.med.base < base + count)) then .refused
  else match s.arenaPages h c.w1 base count with
    | none => .refused
    | some ps =>
        if !distinct (ps.map (fun p => p.2.1) ++ s.blks.map (fun e => e.2.frame)) then .refused
        else
          let put (m : Map Blk) (p : Nat × Nat × Bool) : Map Blk :=
            m.set p.1 ⟨0, 0, h, .free, 0, 0, p.2.2, p.2.1, (p.1 + 1) % 2 ^ 22⟩
          turned (medLine h :: ps.map (fun p => blkLine p.1)) (fun s =>
            let s := { s with blks := ps.foldl put s.blks }
            .ok 0 (s.modMed h (fun _ => ⟨BitVec.ofNat 64 c.w1, base, count, base, count, logtpb⟩))) s

/-- PFXREMOVE (R392). -/
def prefixRemove (c : Cmd) (s : State) : Answer :=
  match s.findPfx c.hc (BitVec.ofNat 64 c.w1) with
  | none => .refused
  | some (n, e) =>
      let back := if e.blks.any (fun b => (s.blk b).ref == 1 && (s.blk b).st != .retired) then [medLine c.hc] else []
      turned (s.hashLines c.hc (BitVec.ofNat 64 c.w1) ++ e.blks.map blkLine ++ back) (fun s => .ok 0 (s.pfxRemove n e)) s

/-- A stream entry as STREAMOPEN takes it: cursors at G, counters and flags 0 (R395). -/
def openEntry (v : Nat) : StreamE :=
  let g := BitVec.ofNat 32 (v / 2 ^ 672)
  { stva := BitVec.ofNat 72 (v / 2 ^ 952), snva := BitVec.ofNat 72 (v / 2 ^ 880), fva := BitVec.ofNat 72 (v / 2 ^ 808)
    dva := BitVec.ofNat 72 (v / 2 ^ 736), seq := BitVec.ofNat 32 (v / 2 ^ 704), g := g, p := g, iend := g, sbase := g
    fhead := 0, dtail := 0, pend := 0, prev := 0, epoch := 0, snb := bitsAt v 416 16, flog := bitsAt v 412 4
    dlog := bitsAt v 408 4, prevv := false, held := false, barge := v.testBit 405, holdev := v.testBit 404
    hc := bitsAt v 398 6, valid := true }

/-- STREAMOPEN (R395). -/
def openStream (c : Cmd) (s : State) : Answer :=
  if (s.hctx c.hc).st ≠ .live then .refused
  else reading c.hc c.va1 128 (fun s => match s.sysRead c.hc c.va1 128 with
    | none => .invalid
    | some bs =>
        let v := leNat bs
        let e := openEntry v
        if ((s.streams.get? c.w1).map (·.valid)) = some true then .refused
        else if v.testBit 397 && e.hc == c.hc && bitsAt v 0 397 == 0 && decide (e.snb ≤ 16384) &&
            decide (4 ≤ e.flog ∧ e.flog ≤ 12 ∧ 4 ≤ e.dlog ∧ e.dlog ≤ 12) &&
            e.stva.toNat % 64 == 0 && e.fva.toNat % 128 == 0 && e.dva.toNat % 128 == 0 then
          turned (strmLines c.w1) (fun s => .ok 0 { s with streams := s.streams.set c.w1 e }) s
        else .invalid) s

/-- STREAMCLOSE: VALID and HELD become 0, and HELDCNT falls with a held stream (R428, R463). -/
def closeStream (c : Cmd) (s : State) : Answer :=
  match s.streams.get? c.w1 with
  | none => .refused
  | some e =>
      if !e.valid || e.hc != c.hc then .refused
      else turned (strmLines c.w1) (fun s =>
        let s := { s with streams := s.streams.set c.w1 { e with valid := false, held := false } }
        .ok 0 (if e.held then s.modHctx c.hc (fun k => { k with held := k.held - 1 }) else s)) s

/-- KEYADD (R463). -/
def keyAdd (c : Cmd) (s : State) : Answer :=
  if s.images.any (fun g => g.keySlot == some c.sub) then .refused
  else reading 0 c.va1 1952 (fun s => match s.sysRead 0 c.va1 1952 with
    | none => .invalid
    | some bs => .ok 0 { s with keys := s.keys.set c.sub bs }) s

/-- CLUSTERRESET (R453). -/
def clusterResetCmd (c : Cmd) (s : State) : Answer := .ok 0 (s.failClusters [c.w1] c.w1)

/-- DCACCEPT (R468). -/
def dcAccept (c : Cmd) (s : State) : Answer :=
  let p := s.poolDev c.sub
  if !p.offered.contains (c.w1, c.w2) then .refused
  else .ok 0 { s with pool := s.pool.set c.sub { p with
    offered := p.offered.erase (c.w1, c.w2), extents := p.extents ++ [(c.w1, c.w2)] } }

/-- DCRELEASE (R468). -/
def dcReleaseCmd (c : Cmd) (s : State) : Answer :=
  if !covers (s.poolDev c.sub).extents c.w1 c.w2 then .refused
  else match s.dcGiveUp c.sub c.w1 c.w2 with
    | none => .refused
    | some s => .ok 0 s

/-- The 160 bytes of the lifetime record (R475). -/
def lifeBytes (l : Lifetime) : List Byte :=
  leBytes 4 l.powerhrs.toNat ++ leBytes 4 l.coldrst.toNat ++ leBytes 1 l.halfret.toNat ++ leBytes 1 l.feret.toNat ++
  List.replicate 6 0 ++ leBytes 8 l.sectot.toNat ++ leBytes 4 l.unctot.toNat ++ leBytes 4 l.ctxkill.toNat ++
  l.temph.toList.flatMap (fun v => leBytes 4 v.toNat) ++ l.powh.toList.flatMap (fun v => leBytes 4 v.toNat)

/-- LIFEREAD: the working copy, brought up to date, written to a buffer (R475). -/
def lifeRead (c : Cmd) (s : State) : Answer :=
  turned ((s.sysChunks 0 c.va1 160).map (fun x => x.1.1 / 64)) (fun s =>
    let s := s.tickMinutes
    match s.sysWrite 0 c.va1 (lifeBytes s.plat.life) with
    | none => .invalid
    | some s => .ok 160 s) s

end State

/-! ### Meanings -/

/-- HOST_REGISTER_WRITE (R3). -/
def execHostRegisterWrite (off : Nat) (v : BitVec 64) (s : State) : Host.Outcome State Fault Refusal := .next (s.writeBar off v)

/-- CONTROL_PAUSE (R462). -/
def execControlPause (hc : Fin 64) (pause : Bool) (s : State) : Host.Outcome State Fault Refusal := .next (s.writePause hc.val pause)

/-- RESUMEW (R443). -/
def execResumew (hc : Fin 64) (w : BitVec 64) (s : State) : Host.Outcome State Fault Refusal := .next (s.hostResume hc.val w)

/-- HALT_SOFT (R460). -/
def execHaltSoft (core : Fin 128) (s : State) : Host.Outcome State Fault Refusal := .next (s.writeHalt core.val 1)

/-- HALT_HARD (R460). -/
def execHaltHard (core : Fin 128) (s : State) : Host.Outcome State Fault Refusal := .next (s.writeHalt core.val 2)

/-- HALT_RELEASE (R460). -/
def execHaltRelease (core : Fin 128) (s : State) : Host.Outcome State Fault Refusal := .next (s.writeHalt core.val 0)

/-- HCCREATE (R463). -/
def execHccreate (s : State) : Host.Outcome State Fault Refusal :=
  .next (s.command 0x01 { hc := true } (fun _ => true) State.hcCreate)

/-- HCDESTROY (R463). -/
def execHcdestroy (s : State) : Host.Outcome State Fault Refusal :=
  .next (s.command 0x02 { hc := true } (fun _ => true) State.hcDestroy)

/-- HCRESTART (R463). -/
def execHcrestart (s : State) : Host.Outcome State Fault Refusal :=
  .next (s.command 0x03 { hc := true } (fun _ => true) State.hcRestart)

/-- RESIDE (R463). -/
def execReside (s : State) : Host.Outcome State Fault Refusal :=
  .next (s.command 0x10 { hc := true, va1 := true, va2 := true } (fun c => c.va1 % 16 == 0 && c.va2 % 8 == 0) State.residency)

/-- UNLOAD (R364). -/
def execUnload (s : State) : Host.Outcome State Fault Refusal :=
  .next (s.command 0x11 { hc := true, w1 := true } (fun c => decide (c.w1 < 2 ^ 32)) State.unloadImage)

/-- PTEWRITE (R373). -/
def execPtewrite (s : State) : Host.Outcome State Fault Refusal :=
  .next (s.command 0x20 { hc := true, sub := true, va1 := true, w1 := true } (fun c => decide (c.sub < 4)) State.pteWrite)

/-- TLBDROP (R377). -/
def execTlbdrop (s : State) : Host.Outcome State Fault Refusal :=
  .next (s.command 0x21 { hc := true, sub := true, va1 := true } (fun c => c.sub == 0 || (c.sub == 1 && c.va1 == 0)) State.tlbDrop)

/-- MEDREG (R385). -/
def execMedreg (s : State) : Host.Outcome State Fault Refusal :=
  .next (s.command 0x30 { hc := true, w1 := true, w2 := true, w3 := true }
    (fun c => c.w1 % 65536 == 0 && decide (c.w1 < 2 ^ 63) && bitsAt c.w2 22 10 == 0 && bitsAt c.w2 54 10 == 0 && decide (c.w3 < 16))
    State.register)

/-- PFXREMOVE (R392). -/
def execPfxremove (s : State) : Host.Outcome State Fault Refusal :=
  .next (s.command 0x31 { hc := true, w1 := true } (fun _ => true) State.prefixRemove)

/-- STREAMOPEN (R395). -/
def execStreamopen (s : State) : Host.Outcome State Fault Refusal :=
  .next (s.command 0x32 { hc := true, va1 := true, w1 := true } (fun c => c.va1 % 128 == 0 && decide (c.w1 < 4096)) State.openStream)

/-- STREAMCLOSE (R463). -/
def execStreamclose (s : State) : Host.Outcome State Fault Refusal :=
  .next (s.command 0x33 { hc := true, w1 := true } (fun c => decide (c.w1 < 4096)) State.closeStream)

/-- KEYADD (R463). -/
def execKeyadd (s : State) : Host.Outcome State Fault Refusal :=
  .next (s.command 0x40 { sub := true, va1 := true } (fun c => decide (c.sub < 32)) State.keyAdd)

/-- CLUSTERRESET (R453). -/
def execClusterreset (s : State) : Host.Outcome State Fault Refusal :=
  .next (s.command 0x50 { w1 := true } (fun c => decide (c.w1 < 32)) State.clusterResetCmd)

/-- DCACCEPT (R468). -/
def execDcaccept (s : State) : Host.Outcome State Fault Refusal :=
  .next (s.command 0x51 { sub := true, w1 := true, w2 := true } (fun c => decide (c.sub < 16) && State.extentOk c.w1 c.w2) State.dcAccept)

/-- DCRELEASE (R468). -/
def execDcrelease (s : State) : Host.Outcome State Fault Refusal :=
  .next (s.command 0x52 { sub := true, w1 := true, w2 := true } (fun c => decide (c.sub < 16) && State.extentOk c.w1 c.w2) State.dcReleaseCmd)

/-- LIFEREAD (R475). -/
def execLiferead (s : State) : Host.Outcome State Fault Refusal :=
  .next (s.command 0x60 { va1 := true } (fun c => c.va1 % 8 == 0) State.lifeRead)

end Sys2Proof.Machine
end

