-- ==== Sys2Proof/Machine/Dispatch.lean ====
section
/-! DEFINITION. One arm per instruction and event: its meaning. -/

namespace Sys2Proof.Machine

def exec (i : Instr) (s : State) : Host.Outcome State Fault Refusal :=
  match i with
  | .add g d a t => Sys2Proof.Machine.execAdd g d a t s
  | .addImm g d a imm => Sys2Proof.Machine.execAddImm g d a imm s
  | .sub g d a t => Sys2Proof.Machine.execSub g d a t s
  | .subImm g d a imm => Sys2Proof.Machine.execSubImm g d a imm s
  | .mul g d a t => Sys2Proof.Machine.execMul g d a t s
  | .mulImm g d a imm => Sys2Proof.Machine.execMulImm g d a imm s
  | .mulh g d a t => Sys2Proof.Machine.execMulh g d a t s
  | .mulhImm g d a imm => Sys2Proof.Machine.execMulhImm g d a imm s
  | .mulhn g d a t => Sys2Proof.Machine.execMulhn g d a t s
  | .mulhnImm g d a imm => Sys2Proof.Machine.execMulhnImm g d a imm s
  | .div g d a t => Sys2Proof.Machine.execDiv g d a t s
  | .divImm g d a imm => Sys2Proof.Machine.execDivImm g d a imm s
  | .divn g d a t => Sys2Proof.Machine.execDivn g d a t s
  | .divnImm g d a imm => Sys2Proof.Machine.execDivnImm g d a imm s
  | .rem g d a t => Sys2Proof.Machine.execRem g d a t s
  | .remImm g d a imm => Sys2Proof.Machine.execRemImm g d a imm s
  | .remn g d a t => Sys2Proof.Machine.execRemn g d a t s
  | .remnImm g d a imm => Sys2Proof.Machine.execRemnImm g d a imm s
  | .and g d a t => Sys2Proof.Machine.execAnd g d a t s
  | .andImm g d a imm => Sys2Proof.Machine.execAndImm g d a imm s
  | .or g d a t => Sys2Proof.Machine.execOr g d a t s
  | .orImm g d a imm => Sys2Proof.Machine.execOrImm g d a imm s
  | .xor g d a t => Sys2Proof.Machine.execXor g d a t s
  | .xorImm g d a imm => Sys2Proof.Machine.execXorImm g d a imm s
  | .andn g d a t => Sys2Proof.Machine.execAndn g d a t s
  | .andnImm g d a imm => Sys2Proof.Machine.execAndnImm g d a imm s
  | .shl g d a t => Sys2Proof.Machine.execShl g d a t s
  | .shlImm g d a imm => Sys2Proof.Machine.execShlImm g d a imm s
  | .shr g d a t => Sys2Proof.Machine.execShr g d a t s
  | .shrImm g d a imm => Sys2Proof.Machine.execShrImm g d a imm s
  | .shra g d a t => Sys2Proof.Machine.execShra g d a t s
  | .shraImm g d a imm => Sys2Proof.Machine.execShraImm g d a imm s
  | .rol g d a t => Sys2Proof.Machine.execRol g d a t s
  | .rolImm g d a imm => Sys2Proof.Machine.execRolImm g d a imm s
  | .min g d a t => Sys2Proof.Machine.execMin g d a t s
  | .minImm g d a imm => Sys2Proof.Machine.execMinImm g d a imm s
  | .max g d a t => Sys2Proof.Machine.execMax g d a t s
  | .maxImm g d a imm => Sys2Proof.Machine.execMaxImm g d a imm s
  | .minn g d a t => Sys2Proof.Machine.execMinn g d a t s
  | .minnImm g d a imm => Sys2Proof.Machine.execMinnImm g d a imm s
  | .maxn g d a t => Sys2Proof.Machine.execMaxn g d a t s
  | .maxnImm g d a imm => Sys2Proof.Machine.execMaxnImm g d a imm s
  | .clz g d a => Sys2Proof.Machine.execClz g d a s
  | .ctz g d a => Sys2Proof.Machine.execCtz g d a s
  | .popc g d a => Sys2Proof.Machine.execPopc g d a s
  | .abs g d a => Sys2Proof.Machine.execAbs g d a s
  | .sext g d a n => Sys2Proof.Machine.execSext g d a n s
  | .zext g d a n => Sys2Proof.Machine.execZext g d a n s
  | .bfx g d a t => Sys2Proof.Machine.execBfx g d a t s
  | .bfxN g d a t => Sys2Proof.Machine.execBfxN g d a t s
  | .bfi g d a t => Sys2Proof.Machine.execBfi g d a t s
  | .sel g d a t => Sys2Proof.Machine.execSel g d a t s
  | .li g d imm => Sys2Proof.Machine.execLi g d imm s
  | .fadd g d a t => Sys2Proof.Machine.execFadd g d a t s
  | .fsub g d a t => Sys2Proof.Machine.execFsub g d a t s
  | .fmul g d a t => Sys2Proof.Machine.execFmul g d a t s
  | .ffma g d a t => Sys2Proof.Machine.execFfma g d a t s
  | .fmin g d a t => Sys2Proof.Machine.execFmin g d a t s
  | .fmax g d a t => Sys2Proof.Machine.execFmax g d a t s
  | .cvtf g d a => Sys2Proof.Machine.execCvtf g d a s
  | .cvtfN g d a => Sys2Proof.Machine.execCvtfN g d a s
  | .cvti g d a => Sys2Proof.Machine.execCvti g d a s
  | .cvtiN g d a => Sys2Proof.Machine.execCvtiN g d a s
  | .pand g d a t => Sys2Proof.Machine.execPand g d a t s
  | .por g d a t => Sys2Proof.Machine.execPor g d a t s
  | .pxor g d a t => Sys2Proof.Machine.execPxor g d a t s
  | .pandn g d a t => Sys2Proof.Machine.execPandn g d a t s
  | .pget g d => Sys2Proof.Machine.execPget g d s
  | .pset g a => Sys2Proof.Machine.execPset g a s
  | .ptb g d imm => Sys2Proof.Machine.execPtb g d imm s
  | .ptbx g d a => Sys2Proof.Machine.execPtbx g d a s
  | .br g a => Sys2Proof.Machine.execBr g a s
  | .brl g d a => Sys2Proof.Machine.execBrl g d a s
  | .trap g imm => Sys2Proof.Machine.execTrap g imm s
  | .aadd g d a t => Sys2Proof.Machine.execAadd g d a t s
  | .aaddImm g d a imm => Sys2Proof.Machine.execAaddImm g d a imm s
  | .aset g d a => Sys2Proof.Machine.execAset g d a s
  | .aget g d a => Sys2Proof.Machine.execAget g d a s
  | .alea g d a t => Sys2Proof.Machine.execAlea g d a t s
  | .cmp g c d a t => Sys2Proof.Machine.execCmp g c d a t s
  | .cmpImm g c d a imm => Sys2Proof.Machine.execCmpImm g c d a imm s
  | .fcmp g c d a t => Sys2Proof.Machine.execFcmp g c d a t s
  | .gets g d r => Sys2Proof.Machine.execGets g d r s
  | .puts g a r => Sys2Proof.Machine.execPuts g a r s
  | .ld g z d a l => Sys2Proof.Machine.execLd g z d a l s
  | .ldN g z d a l => Sys2Proof.Machine.execLdN g z d a l s
  | .st g z d a o => Sys2Proof.Machine.execSt g z d a o s
  | .ldv g d a l => Sys2Proof.Machine.execLdv g d a l s
  | .ldvFeTake g one d a l => Sys2Proof.Machine.execLdvFeTake g one d a l s
  | .ldvFeKeep g one d a l => Sys2Proof.Machine.execLdvFeKeep g one d a l s
  | .stv g d a o => Sys2Proof.Machine.execStv g d a o s
  | .stvFe g d a o => Sys2Proof.Machine.execStvFe g d a o s
  | .ldvg g d a l => Sys2Proof.Machine.execLdvg g d a l s
  | .stvs g d a t => Sys2Proof.Machine.execStvs g d a t s
  | .setfe g d a => Sys2Proof.Machine.execSetfe g d a s
  | .clrfe g d a => Sys2Proof.Machine.execClrfe g d a s
  | .spill g d => Sys2Proof.Machine.execSpill g d s
  | .fill g d l => Sys2Proof.Machine.execFill g d l s
  | .pref g a o => Sys2Proof.Machine.execPref g a o s
  | .atom g op dbl d a l => Sys2Proof.Machine.execAtom g op dbl d a l s
  | .cas g dbl d a l => Sys2Proof.Machine.execCas g dbl d a l s
  | .red g op dbl d a o => Sys2Proof.Machine.execRed g op dbl d a o s
  | .chkout g d a => Sys2Proof.Machine.execChkout g d a s
  | .chkin g a => Sys2Proof.Machine.execChkin g a s
  | .copy g tk d a n => Sys2Proof.Machine.execCopy g tk d a n s
  | .copys g tk d a t => Sys2Proof.Machine.execCopys g tk d a t s
  | .copyg g tk d a t => Sys2Proof.Machine.execCopyg g tk d a t s
  | .copyfe g tk d a t => Sys2Proof.Machine.execCopyfe g tk d a t s
  | .gemv g tk d a t => Sys2Proof.Machine.execGemv g tk d a t s
  | .bankmode g a => Sys2Proof.Machine.execBankmode g a s
  | .flush g d a => Sys2Proof.Machine.execFlush g d a s
  | .inval g d a => Sys2Proof.Machine.execInval g d a s
  | .mma g d a t xm xn xk f => Sys2Proof.Machine.execMma g d a t xm xn xk f s
  | .mmat g d a t xm xn xk f => Sys2Proof.Machine.execMmat g d a t xm xn xk f s
  | .accz g d => Sys2Proof.Machine.execAccz g d s
  | .accret g d a ty => Sys2Proof.Machine.execAccret g d a ty s
  | .accadd g d a ty port => Sys2Proof.Machine.execAccadd g d a ty port s
  | .accld g d a => Sys2Proof.Machine.execAccld g d a s
  | .accst g d a => Sys2Proof.Machine.execAccst g d a s
  | .accrd g d a xm => Sys2Proof.Machine.execAccrd g d a xm s
  | .accwr g d a xm => Sys2Proof.Machine.execAccwr g d a xm s
  | .vadd g d a t m ty rm => Sys2Proof.Machine.execVadd g d a t m ty rm s
  | .vsub g d a t m ty rm => Sys2Proof.Machine.execVsub g d a t m ty rm s
  | .vmul g d a t m ty rm => Sys2Proof.Machine.execVmul g d a t m ty rm s
  | .vfma g d a t u m ty rm => Sys2Proof.Machine.execVfma g d a t u m ty rm s
  | .vmin g d a t m ty => Sys2Proof.Machine.execVmin g d a t m ty s
  | .vmax g d a t m ty => Sys2Proof.Machine.execVmax g d a t m ty s
  | .vabs g d a m ty => Sys2Proof.Machine.execVabs g d a m ty s
  | .vneg g d a m ty => Sys2Proof.Machine.execVneg g d a m ty s
  | .vclamp g d a t u m ty => Sys2Proof.Machine.execVclamp g d a t u m ty s
  | .vrcp g d a m => Sys2Proof.Machine.execVrcp g d a m s
  | .vrsq g d a m => Sys2Proof.Machine.execVrsq g d a m s
  | .vexp2 g d a m => Sys2Proof.Machine.execVexp2 g d a m s
  | .vlog2 g d a m => Sys2Proof.Machine.execVlog2 g d a m s
  | .vand g d a t m => Sys2Proof.Machine.execVand g d a t m s
  | .vor g d a t m => Sys2Proof.Machine.execVor g d a t m s
  | .vxor g d a t m => Sys2Proof.Machine.execVxor g d a t m s
  | .vshl g d a t m => Sys2Proof.Machine.execVshl g d a t m s
  | .vshr g d a t m => Sys2Proof.Machine.execVshr g d a t m s
  | .vshra g d a t m => Sys2Proof.Machine.execVshra g d a t m s
  | .vcmp g c d a t m ty => Sys2Proof.Machine.execVcmp g c d a t m ty s
  | .vsel g d a t u m => Sys2Proof.Machine.execVsel g d a t u m s
  | .vmov g d a m => Sys2Proof.Machine.execVmov g d a m s
  | .vbcast g d a m => Sys2Proof.Machine.execVbcast g d a m s
  | .vperm g d a t m => Sys2Proof.Machine.execVperm g d a t m s
  | .vslide g d a t m => Sys2Proof.Machine.execVslide g d a t m s
  | .vslideDn g d a t m => Sys2Proof.Machine.execVslideDn g d a t m s
  | .vred g op d a m ty rm => Sys2Proof.Machine.execVred g op d a m ty rm s
  | .vscan g op d a m ty rm => Sys2Proof.Machine.execVscan g op d a m ty rm s
  | .vany g d a m => Sys2Proof.Machine.execVany g d a m s
  | .vall g d a m => Sys2Proof.Machine.execVall g d a m s
  | .vfirst g d a m => Sys2Proof.Machine.execVfirst g d a m s
  | .vpopc g d a m => Sys2Proof.Machine.execVpopc g d a m s
  | .viota g d m => Sys2Proof.Machine.execViota g d m s
  | .vextr g d a t => Sys2Proof.Machine.execVextr g d a t s
  | .vins g d a t => Sys2Proof.Machine.execVins g d a t s
  | .vcvt g d a m src dst rm nsat => Sys2Proof.Machine.execVcvt g d a m src dst rm nsat s
  | .vqmx g d a t ty rm nsat => Sys2Proof.Machine.execVqmx g d a t ty rm nsat s
  | .vdqmx g d a t m ty rm => Sys2Proof.Machine.execVdqmx g d a t m ty rm s
  | .vrand g d a t m ty adv => Sys2Proof.Machine.execVrand g d a t m ty adv s
  | .qand g d a t m => Sys2Proof.Machine.execQand g d a t m s
  | .qor g d a t m => Sys2Proof.Machine.execQor g d a t m s
  | .qxor g d a t m => Sys2Proof.Machine.execQxor g d a t m s
  | .qnot g d a m => Sys2Proof.Machine.execQnot g d a m s
  | .sortb g asc d a t => Sys2Proof.Machine.execSortb g asc d a t s
  | .merge g asc d a => Sys2Proof.Machine.execMerge g asc d a s
  | .cmrg g a t => Sys2Proof.Machine.execCmrg g a t s
  | .cget g idx d k => Sys2Proof.Machine.execCget g idx d k s
  | .cclr g => Sys2Proof.Machine.execCclr g s
  | .ctopp g d a => Sys2Proof.Machine.execCtopp g d a s
  | .cdraw g d a => Sys2Proof.Machine.execCdraw g d a s
  | .fenceAcq g c => Sys2Proof.Machine.execFenceAcq g c s
  | .fenceRel g c => Sys2Proof.Machine.execFenceRel g c s
  | .fenceFull g c => Sys2Proof.Machine.execFenceFull g c s
  | .drain g c => Sys2Proof.Machine.execDrain g c s
  | .push g d a t => Sys2Proof.Machine.execPush g d a t s
  | .pop g d a => Sys2Proof.Machine.execPop g d a s
  | .qstat g d a => Sys2Proof.Machine.execQstat g d a s
  | .notify g a t => Sys2Proof.Machine.execNotify g a t s
  | .launch g d a => Sys2Proof.Machine.execLaunch g d a s
  | .suspend g a => Sys2Proof.Machine.execSuspend g a s
  | .exit g => Sys2Proof.Machine.execExit g s
  | .evpost g a t => Sys2Proof.Machine.execEvpost g a t s
  | .dictld g d a t => Sys2Proof.Machine.execDictld g d a t s
  | .tlbinvPage g a => Sys2Proof.Machine.execTlbinvPage g a s
  | .tlbinvHc g a => Sys2Proof.Machine.execTlbinvHc g a s
  | .tlbinvAll g => Sys2Proof.Machine.execTlbinvAll g s
  | .kvlook g d a t => Sys2Proof.Machine.execKvlook g d a t s
  | .kvapp g d a t => Sys2Proof.Machine.execKvapp g d a t s
  | .kvfork g d a t => Sys2Proof.Machine.execKvfork g d a t s
  | .kvtrunc g d a t => Sys2Proof.Machine.execKvtrunc g d a t s
  | .kvfree g a t => Sys2Proof.Machine.execKvfree g a t s
  | .pfxfind g d a t => Sys2Proof.Machine.execPfxfind g d a t s
  | .pfxins g d a t => Sys2Proof.Machine.execPfxins g d a t s
  | .strunc g d a t => Sys2Proof.Machine.execStrunc g d a t s
  | .scommit g d a t => Sys2Proof.Machine.execScommit g d a t s
  | .sframe g d a t => Sys2Proof.Machine.execSframe g d a t s
  | .btsnap g a t => Sys2Proof.Machine.execBtsnap g a t s
  | .obsel g d => Sys2Proof.Machine.execObsel g d s
  | .stage g a => Sys2Proof.Machine.execStage g a s
  | .tokclr g a => Sys2Proof.Machine.execTokclr g a s
  | .bar g a => Sys2Proof.Machine.execBar g a s
  | .lnscfg g a t => Sys2Proof.Machine.execLnscfg g a t s
  | .lnsrun g a => Sys2Proof.Machine.execLnsrun g a s
  | .lnsbrk g => Sys2Proof.Machine.execLnsbrk g s
  | .seqlen g a => Sys2Proof.Machine.execSeqlen g a s
  | .cntrd g d a => Sys2Proof.Machine.execCntrd g d a s
  | .cntclr g a => Sys2Proof.Machine.execCntclr g a s
  | .resume g a => Sys2Proof.Machine.execResume g a s
  | .fqpop g d a => Sys2Proof.Machine.execFqpop g d a s
  | .coldReset => Sys2Proof.Machine.execColdReset s
  | .wakeTest deck u ok => Sys2Proof.Machine.execWakeTest deck u ok s
  | .binderRun deck => Sys2Proof.Machine.execBinderRun deck s
  | .partFailure deck u => Sys2Proof.Machine.execPartFailure deck u s
  | .rebind cluster bad => Sys2Proof.Machine.execRebind cluster bad s
  | .halfPowerGate deck half => Sys2Proof.Machine.execHalfPowerGate deck half s
  | .selectorCycle core => Sys2Proof.Machine.execSelectorCycle core s
  | .landingDataArrival core strand n => Sys2Proof.Machine.execLandingDataArrival core strand n s
  | .engineOpStart core strand e defer => Sys2Proof.Machine.execEngineOpStart core strand e defer s
  | .engineOpComplete core strand e => Sys2Proof.Machine.execEngineOpComplete core strand e s
  | .tlbWalkComplete n => Sys2Proof.Machine.execTlbWalkComplete n s
  | .homeRequestRun line => Sys2Proof.Machine.execHomeRequestRun line s
  | .bankModeChange cluster bank => Sys2Proof.Machine.execBankModeChange cluster bank s
  | .copyComplete n => Sys2Proof.Machine.execCopyComplete n s
  | .gemvComplete n => Sys2Proof.Machine.execGemvComplete n s
  | .copyschedEntryStart core strand => Sys2Proof.Machine.execCopyschedEntryStart core strand s
  | .mmaOperandsConsumed n => Sys2Proof.Machine.execMmaOperandsConsumed n s
  | .mmaComplete n => Sys2Proof.Machine.execMmaComplete n s
  | .pushDelivery n => Sys2Proof.Machine.execPushDelivery n s
  | .suspendDependenceMet launch => Sys2Proof.Machine.execSuspendDependenceMet launch s
  | .gangResume launch => Sys2Proof.Machine.execGangResume launch s
  | .tailWordSignal hc stream => Sys2Proof.Machine.execTailWordSignal hc stream s
  | .notifySignal hc stream => Sys2Proof.Machine.execNotifySignal hc stream s
  | .placementPass => Sys2Proof.Machine.execPlacementPass s
  | .gangStart launch => Sys2Proof.Machine.execGangStart launch s
  | .launchComplete hc stream => Sys2Proof.Machine.execLaunchComplete hc stream s
  | .faultRecordWrite hc => Sys2Proof.Machine.execFaultRecordWrite hc s
  | .watchdog launch => Sys2Proof.Machine.execWatchdog launch s
  | .uncorrectableError hc => Sys2Proof.Machine.execUncorrectableError hc s
  | .sramEccError cluster bank granule dbl => Sys2Proof.Machine.execSramEccError cluster bank granule dbl s
  | .poolHeadFailover device head => Sys2Proof.Machine.execPoolHeadFailover device head s
  | .bisnp line => Sys2Proof.Machine.execBisnp line s
  | .hostSnoop line inv => Sys2Proof.Machine.execHostSnoop line inv s
  | .hostMemWrite pa bytes => Sys2Proof.Machine.execHostMemWrite pa bytes s
  | .dcAddEvent device dpa len => Sys2Proof.Machine.execDcAddEvent device dpa len s
  | .dcReleaseRequest device dpa len => Sys2Proof.Machine.execDcReleaseRequest device dpa len s
  | .thermalLevelEnter => Sys2Proof.Machine.execThermalLevelEnter s
  | .thermalLevelLeave => Sys2Proof.Machine.execThermalLevelLeave s
  | .clockStep down => Sys2Proof.Machine.execClockStep down s
  | .powerLimitExceeded => Sys2Proof.Machine.execPowerLimitExceeded s
  | .criticalShutdown => Sys2Proof.Machine.execCriticalShutdown s
  | .lifetimeFlush => Sys2Proof.Machine.execLifetimeFlush s
  | .hostRegisterWrite off v => Sys2Proof.Machine.execHostRegisterWrite off v s
  | .streamModeWrite hc stream mode => Sys2Proof.Machine.execStreamModeWrite hc stream mode s
  | .controlPause hc pause => Sys2Proof.Machine.execControlPause hc pause s
  | .resumew hc w => Sys2Proof.Machine.execResumew hc w s
  | .haltSoft core => Sys2Proof.Machine.execHaltSoft core s
  | .haltHard core => Sys2Proof.Machine.execHaltHard core s
  | .haltRelease core => Sys2Proof.Machine.execHaltRelease core s
  | .hccreate => Sys2Proof.Machine.execHccreate s
  | .hcdestroy => Sys2Proof.Machine.execHcdestroy s
  | .hcrestart => Sys2Proof.Machine.execHcrestart s
  | .reside => Sys2Proof.Machine.execReside s
  | .unload => Sys2Proof.Machine.execUnload s
  | .ptewrite => Sys2Proof.Machine.execPtewrite s
  | .tlbdrop => Sys2Proof.Machine.execTlbdrop s
  | .medreg => Sys2Proof.Machine.execMedreg s
  | .pfxremove => Sys2Proof.Machine.execPfxremove s
  | .streamopen => Sys2Proof.Machine.execStreamopen s
  | .streamclose => Sys2Proof.Machine.execStreamclose s
  | .keyadd => Sys2Proof.Machine.execKeyadd s
  | .clusterreset => Sys2Proof.Machine.execClusterreset s
  | .dcaccept => Sys2Proof.Machine.execDcaccept s
  | .dcrelease => Sys2Proof.Machine.execDcrelease s
  | .liferead => Sys2Proof.Machine.execLiferead s
  | .oldestLaunchWait2Ms cls => Sys2Proof.Machine.execOldestLaunchWait2Ms cls s
  | .stacksTrained => Sys2Proof.Machine.execStacksTrained s
  | .nearMemoryEnginesTrained => Sys2Proof.Machine.execNearMemoryEnginesTrained s
  | .thermalCalibrationDone => Sys2Proof.Machine.execThermalCalibrationDone s
  | .hbmEccFailure line correctable => Sys2Proof.Machine.execHbmEccFailure line correctable s
  | .spdmRequest index => Sys2Proof.Machine.execSpdmRequest index s
  | .orderlyShutdown => Sys2Proof.Machine.execOrderlyShutdown s

end Sys2Proof.Machine
end

