-- ==== Sys2Proof/Machine/Read.lean ====
section
/-! DEFINITION. What a host read returns: HALTSTAT, the words of BAR0 and of a context block, and device HBM through CXL.mem (spec 00 R3, R4; 12 R325, R329, R341; 13 R356, R367; 16 R458, R459, R460; 17 R461, R462, R463, R473). -/

namespace Sys2Proof.Machine

/-- A 64-bit word of a number laid out from bit 0. -/
def wordAt (v i : Nat) : BitVec 64 := BitVec.ofNat 64 (bitsAt v (64 * i) 64)

namespace State

/-! ### HALTSTAT (R459, R460) -/

/-- Whether a copy holds its core up at a halt: one that runs; HALT.HARD pauses it once no sector it has begun is on its way to a home (R460). -/
def copyMoves (s : State) (c : Copy) : Bool :=
  if c.faulted then false
  else if 2 ≤ (s.core c.core).halt.toNat then
    !s.copyRests c || s.home.any (fun r => r.core == c.core && r.strand == c.strand && r.num == c.num && r.launch == c.launch)
  else true

/-- Whether every copy of a core's strands is paused at a sector boundary, as HALT.HARD pauses it (R459, R460, log entry 98). -/
def paused (s : State) (core : Nat) : Bool :=
  decide (2 ≤ (s.core core).halt.toNat) && s.copies.all (fun c => c.core != core || !s.copyMoves c)

/-- Whether a strand has something of its own in progress: an operation that an engine has taken, or a landing whose load has left its queue and whose data has not arrived (R459, R460). -/
def strandMoves (t : Strand) : Bool :=
  let rests (o : QOp) : Bool := o.stage == .queued || o.stage == .faulted
  t.ops.any (fun o => !rests o) || t.landings.any (fun l => !l.arrived && !t.ops.any (fun o => o.num == l.num && rests o))

/-- Whether a halted core has nothing in progress and its banks are stable (R459, R460, log entry 98). -/
def quiet (s : State) (core : Nat) : Bool :=
  (s.core core).halt != 0 &&
  (List.range 4).all (fun i => !strandMoves (s.strand (strandKey core i))) &&
  s.copies.all (fun c => c.core != core || !s.copyMoves c) &&
  s.gemvs.all (fun g => g.core != core || g.faulted) &&
  s.mmas.all (fun m => m.core != core) && s.pushes.all (fun p => p.core != core) &&
  s.walks.all (fun w => w.core != core) && s.home.all (fun r => r.core != core) &&
  (s.cluster (clusterOf core)).banks.all (fun b => b.2.chg.isNone || decide (s.bankCore (clusterOf core) b.1 ≠ core))

/-- HALTSTAT of a core; level 3 is in force as level 2 (R458, R459). -/
def haltStat (s : State) (core : Nat) : BitVec 64 :=
  BitVec.ofNat 64 (packBits [((s.quiet core).toNat, 1), ((s.paused core).toNat, 1), (min 2 (s.core core).halt.toNat, 2)])

/-! ### Context blocks (R325, R329, R462) -/

/-- A ring header as a number (R325). -/
def ringBits (r : Ring) : Nat :=
  packBits [(r.head.toNat, 32), (r.tail.toNat, 32), (0, 11), (r.logd, 5), (0, 104), (r.base.toNat, 72)]

/-- A stream descriptor as a number (R329). -/
def streamBits (d : StreamD) : Nat :=
  packBits [(d.ringva.toNat, 72), (d.tailva.toNat, 72), (d.tmplva.toNat, 72), (d.nextseq.toNat, 48), (d.head.toNat, 32),
    (d.logd, 5), (0, 3), (d.mode.toNat, 2), (0, 206)]

/-- STATE's code in CONTROL (R462). -/
def stateCode (c : HcState) : Nat :=
  match c with
  | .free => 0
  | .live => 1
  | .killed => 2

/-- A word of a context block as the host reads it (R462); of the nine accounting counters ACCT's 64 bytes show the first eight (log entry 37). -/
def readBlock (c : Hctx) (off : Nat) : BitVec 64 :=
  if off < 0xC0 then wordAt (ringBits c.rings[Fin.ofNat 6 (off / 32)]) (off / 8 % 4)
  else if off < 0x1C0 then wordAt (streamBits c.streams[Fin.ofNat 4 ((off - 0xC0) / 64)]) ((off - 0xC0) / 8 % 8)
  else if off = 0x1C0 then c.rootpa
  else if off = 0x1C8 then c.btva
  else if off = 0x1D0 then c.saveva
  else if off = 0x1D8 then BitVec.ofNat 64 (c.saven + c.trust.toNat * 2 ^ 32)
  else if off = 0x1E0 then BitVec.ofNat 64 (c.preempt + c.wdog * 2 ^ 32)
  else if off = 0x1E8 then BitVec.ofNat 64 (packBits [(stateCode c.st, 2), (0, 14), (c.tlbgrant.toNat, 1), (c.pause.toNat, 1)])
  else if off = 0x1F8 then BitVec.ofNat 64 c.held
  else if 0x200 ≤ off ∧ off < 0x240 then c.acct[Fin.ofNat 9 ((off - 0x200) / 8)]
  else 0

/-! ### BAR0 (R3, R461) -/

/-- BRINGUP (R473). -/
def bringupWord (b : Bringup) : BitVec 64 :=
  BitVec.ofNat 64 (packBits [(b.fail.toNat, 1), (b.cal.toNat, 1), (b.nmt.toNat, 1), (b.hbm.toNat, 1), (0, 1), (b.decks.toNat, 4)])

/-- A deck's health record as a number (R356). -/
def healthBits (h : Health) : Nat := packBits [(h.halfok.toNat, 72), (h.feok.toNat, 32)]

/-- A bank-mode entry as a number (R367). -/
def bankBits (b : Bank) : Nat :=
  packBits [(b.chg.isSome.toNat, 1), (0, 2), (b.mode, 3), (b.owner.isSome.toNat, 1), (0, 3), (b.owner.getD 0, 6)]

/-- The words of a core's part of BAR0: SELPOL, HALTCTL, HALTSTAT, zero (R461). -/
def readCore (s : State) (core word : Nat) : BitVec 64 :=
  match word with
  | 0 => (BitVec.ofBool (s.core core).policy).setWidth 64
  | 1 => (s.core core).halt.setWidth 64
  | 2 => s.haltStat core
  | _ => 0

/-- The eight bytes the host reads at an offset of BAR0: the current value of RO and RW fields, zero for WO and RSV ones and where nothing stands; the mailbox shows its command bytes, its result word and whether it is busy (R3, R461, R463, log entry 69). -/
def readBar (s : State) (off : Nat) : BitVec 64 :=
  if off % 8 ≠ 0 then 0
  else if off < 64 then BitVec.ofNat 64 (leNat ((s.mbox.cmd.toList.drop off).take 8))
  else if off = 0xFC0 then s.mbox.result
  else if off = 0xFF8 then (BitVec.ofBool s.mbox.busy).setWidth 64
  else if off = 0x1000 then bringupWord s.plat.bringup
  else if 0x2000 ≤ off ∧ off < 0x2040 then
    wordAt (healthBits s.plat.decks[Fin.ofNat 4 ((off - 0x2000) / 16)].health) (off / 8 % 2)
  else if 0x4000 ≤ off ∧ off < 0x5000 then s.readCore ((off - 0x4000) / 32) (off / 8 % 4)
  else if 0x10000 ≤ off ∧ off < 0x12000 then
    BitVec.ofNat 64 (packBits ([3, 2, 1, 0].map (fun i =>
      let b := (off - 0x10000) / 2 + i
      (bankBits (s.bank (b / 128) (b % 128)), 16))))
  else if 0x20000 ≤ off ∧ off < 0x60000 then readBlock (s.hctx ((off - 0x20000) / 4096)) (off % 4096)
  else 0

/-! ### CXL.mem (R461) -/

/-- What a host read of device HBM returns: the home's contents, without SW-FL dirty bytes and pinned copies; none outside device HBM, after a failed bring-up, while a line is not free, when the read waits in its list, and where a line is poisoned, when the poison comes in place of its bytes (R13, R246, R257, R461, R469). -/
def readHost (s : State) (pa n : Nat) : Option (List Byte) :=
  if s.plat.bringup.fail || decide (Config.hbmBytes < pa + n) || !s.linesFree pa n || (linesOf pa n).any s.homePoison then none else some (s.mem.readN pa n)

end State

end Sys2Proof.Machine
end

