-- ==== Sys2Proof/Machine/Policy.lean ====
section
/-! DEFINITION. What may happen next: the part's own events that a state calls for, in the order in which a step with an empty schedule takes them (log entry 1), and the placing of one bundle for the next step (log entry 13). -/

namespace Sys2Proof.Machine

namespace State

/-- The engines of a strand, in the order of R115. -/
def engines : List Engine := [.a, .c, .m, .v0, .v1, .x, .q]

/-- The events of one strand: its engines, its landings, its copy schedule. -/
def strandEvents (e : Nat × Strand) : List Instr :=
  let core := Fin.ofNat 128 (e.1 / 4)
  let n := Fin.ofNat 4 (e.1 % 4)
  let op (g : Engine) : List Instr := match headOf e.2 g with
    | none => []
    | some o => if o.stage = .queued then [.engineOpStart core n g false]
        else if o.stage = .started ∧ twoPhase o = true then [.engineOpComplete core n g] else []
  engines.flatMap op ++ (e.2.landings.filter (fun l => !l.arrived)).map (fun l => .landingDataArrival core n l.num) ++
  (if resident e.2 && e.2.life != .placed then [.copyschedEntryStart core n] else [])

/-- The events of work in flight: walks, homes, copies, matrix operations, pushes, bank modes. -/
def flightEvents (s : State) : List Instr :=
  (if s.walks.isEmpty then [] else [.tlbWalkComplete 0]) ++
  ((s.home.map (fun r => r.addr / 64)).eraseDups).map .homeRequestRun ++
  s.copies.map (fun c => .copyComplete c.id) ++ s.gemvs.map (fun c => .gemvComplete c.id) ++
  s.mmas.map (fun m => if m.consumed then .mmaComplete m.id else .mmaOperandsConsumed m.id) ++
  s.pushes.map (fun p => .pushDelivery p.id) ++
  s.clusters.flatMap (fun e => (e.2.banks.filter (fun b => b.2.chg.isSome)).map (fun b =>
    .bankModeChange (Fin.ofNat 32 e.1) (Fin.ofNat 128 b.1)))

/-- Whether some member of a suspended launch waits for time to pass (R351). -/
def waitsTime (l : Launch) : Bool :=
  l.members.any (fun m => match m.dep with | some w => w.toNat / 2 ^ 28 == 2 | none => false)

/-- Whether a stream calls for the scheduler: a signal it has not served, records below the tail it last read, a MODE = 0 to take effect (R329, R330, R336). -/
def callsStream (d : StreamD) : Bool := d.signal || d.head != d.lastTail || d.stopping

/-- The events of the scheduler. -/
def serviceEvents (s : State) : List Instr :=
  s.launches.flatMap (fun l =>
    if l.st = .suspended then (if waitsTime l then [] else [.suspendDependenceMet l.id])
    else if l.st = .placing then [.gangStart l.id, .gangResume l.id] else []) ++
  (if s.launches.any (fun l => l.st == .ready) then [.placementPass] else []) ++
  s.ctxs.flatMap (fun e =>
    let h := Fin.ofNat 64 e.1
    (List.finRange 4).flatMap (fun i =>
      (if callsStream e.2.streams[i] then (if e.2.streams[i].mode = 1 then [.tailWordSignal h i]
        else if e.2.streams[i].mode = 3 then [.notifySignal h i] else []) else []) ++
      (if s.launches.any (fun l => l.hc == e.1 && l.stream == i.val && l.status.isSome && l.st != .complete)
        then [.launchComplete h i] else [])) ++
    (if e.2.waiting.isEmpty then [] else [.faultRecordWrite h]))

/-- The command event of a mailbox code (R463). -/
def commandOf (op : Nat) : List Instr :=
  match op with
  | 0x01 => [.hccreate]
  | 0x02 => [.hcdestroy]
  | 0x03 => [.hcrestart]
  | 0x10 => [.reside]
  | 0x11 => [.unload]
  | 0x20 => [.ptewrite]
  | 0x21 => [.tlbdrop]
  | 0x30 => [.medreg]
  | 0x31 => [.pfxremove]
  | 0x32 => [.streamopen]
  | 0x33 => [.streamclose]
  | 0x40 => [.keyadd]
  | 0x50 => [.clusterreset]
  | 0x51 => [.dcaccept]
  | 0x52 => [.dcrelease]
  | 0x60 => [.liferead]
  | _ => []

/-- The events of the binder, of marked clusters and of the mailbox. -/
def hostEvents (s : State) : List Instr :=
  (List.finRange 4).flatMap (fun d =>
    if (s.deck d.val).reqs.isEmpty && (s.deck d.val).job.isNone then [] else [.binderRun d]) ++
  (s.clusters.filter (fun e => e.2.mark.isSome)).map (fun e => .rebind (Fin.ofNat 32 e.1) none) ++
  (if s.mbox.busy then commandOf s.mbox.cmd[0].toNat else [])

/-- Every event of the part's own that a state calls for (log entry 1). -/
def ownEvents (s : State) : List Instr :=
  s.strands.flatMap strandEvents ++ s.flightEvents ++ s.serviceEvents ++ s.hostEvents

/-- The event a step with an empty schedule takes: a cycle of each core in turn, then the part's own events in their order (log entry 1). -/
def nextEvent (s : State) : Option Instr :=
  if h : s.nextCore < 128 then some (.selectorCycle ⟨s.nextCore, h⟩) else s.ownEvents[s.nextCore - 128]?

/-! ### One bundle placed for the next step (log entry 13) -/

/-- An image of one bundle: dictionary entry 1 at bundle index 0. -/
def oneBundle (b : BitVec 384) : Image :=
  { handle := 0, hc := 0, va := 0, width := 1, clgang := false, depth := 1, starts := [0], latency := [3, 8, 640, 1800, 3000]
    cores := [{ index := [1], dict := [b], spad := [], sched := []
                segs := [{ SegRec.none with start := 0, endseg := 0xFFFFFFFF, susp := false }], tn := 32 }]
    footprint := List.replicate 6 (false, 0), buckets := none, push := [], data := none, keySlot := none }

/-- The running launch of that image: one member, on strand 0 of core 0. -/
def oneLaunch : Launch :=
  { id := 0, hc := 0, stream := 0, seq := 0, cring := 0, cls := 0, width := 1, ncl := 0, single := true, image := 0
    csched := false, regions := [], starts := [0], st := .running, edges := [], gang := 0
    members := [⟨0, 0, false, none, [], Vector.replicate 6 Level.reset, 0, [], []⟩], bars := Vector.replicate 16 (0, 0), pushes := []
    areas := [0], everSusp := false, replays := 0, side := false, status := none, waited := false, notify := false
    thermal := false, markAt := none, hostVer := false, wdog := 1000, owed := none, jslot := 0 }

/-- A state in which strand 0 of core 0 runs a launch whose next bundle is b. -/
def withBundle (s : State) (b : BitVec 384) : State :=
  let s := s.modHctx 0 (fun c => { c with st := .live })
  let s := s.modCore 0 (fun c => { c with
    cur := 0, halt := 0, freeze := false
    windows := [⟨0, 256, 0, 0, false, 1, 0 :: [b]⟩] })
  let s := s.modStrand 0 (fun t => { Strand.reset 0 with
    front := t.front, eng := t.eng, opNum := t.opNum, life := .running, wsize := 256, tn := 32 })
  { s with
    images := [oneBundle b], launches := [oneLaunch]
    binding := s.binding.set 0 { BindEnt.reset 0 with role := 0, halflo := 0, halfhi := 1 }
    plat := { s.plat with poweredOff := false }
    ctx := Ctx.idle, schedule := [], nextCore := 0 }

end State

end Sys2Proof.Machine
end

