-- ==== Sys2Proof/Machine/Step.lean ====
section
/-! DEFINITION. One step of the part: the next event of its schedule, or of its own policy where the schedule is empty (log entry 1). -/

namespace Sys2Proof.Machine

/-- The event run, acting for nobody before and after. -/
def runEvent (i : Instr) (s : State) : Host.Outcome State Fault Refusal :=
  match exec i s.idle with
  | .next t => .next t.idle
  | o => o

/-- One step: nothing runs without power but a cold reset; a slot operation in the schedule is no event and makes no move; with an empty schedule the turn passes on through the cores and the part's own events. -/
def step (s : State) : Host.Outcome State Fault Refusal :=
  match s.schedule with
  | i :: is =>
      if s.plat.poweredOff && i != .coldReset then .fault .poweredOff
      else if (encode i).isSome then .next { s with schedule := is }
      else runEvent i { s with schedule := is }
  | [] =>
      if s.plat.poweredOff then .fault .poweredOff
      else match s.nextEvent with
        | some i => runEvent i { s with nextCore := s.nextCore + 1 }
        | none => .next { s with nextCore := 0 }

/-- A state whose next step issues a bundle that holds the table word's operation in its slot and nothing else; unchanged where the decoder refuses the word (log entries 12 and 13). -/
def State.withFetchWord (s : State) (nbits w : Nat) : State :=
  match tableSlot nbits w with
  | some (slot, _) => s.withBundle (bundleOf slot w)
  | none => s

end Sys2Proof.Machine
end

