-- ==== Sys2Proof/Laws/Decode.lean ====
section
/-! SUPPORT. The fields of a slot word: packed fields are read back, and each operand's field reads as the operand. -/

namespace Sys2Proof

/-- Fields that their slot's word has room for; a slot without an extension leaves its fields zero. -/
def Fields.fits (k : SlotKind) (f : Fields) : Prop :=
  f.op < 256 ∧ f.g < 32 ∧ f.d < 64 ∧ f.s < 64 ∧ f.t < 64 ∧ f.w < 2 ∧
  (match k with
   | .v => f.u < 64 ∧ f.mask < 8 ∧ f.ty < 16 ∧ f.rm < 8 ∧ f.xm = 0 ∧ f.xn = 0 ∧ f.xk = 0 ∧ f.fmt = 0 ∧ f.port = 0 ∧ f.rsv = 0
   | .m => f.u = 0 ∧ f.mask = 0 ∧ f.ty = 0 ∧ f.rm = 0 ∧ f.xm < 64 ∧ f.xn < 64 ∧ f.xk < 64 ∧ f.fmt < 16 ∧ f.port < 4 ∧ f.rsv < 256
   | _ => f.u = 0 ∧ f.mask = 0 ∧ f.ty = 0 ∧ f.rm = 0 ∧ f.xm = 0 ∧ f.xn = 0 ∧ f.xk = 0 ∧ f.fmt = 0 ∧ f.port = 0 ∧ f.rsv = 0)

/-- The common fields are read back from their 32 bits. -/
theorem Fields.unpack32_pack32 (op g d s t w : Nat) (ho : op < 256) (hg : g < 32) (hd : d < 64) (hs : s < 64) (ht : t < 64)
    (hw : w < 2) (n : Nat) (hn : n = op * 16777216 + g * 524288 + d * 8192 + s * 128 + t * 2 + w) :
    Fields.unpack32 n = { op := op, g := g, d := d, s := s, t := t, w := w } := by
  subst hn
  simp only [unpack32, Fields.mk.injEq, and_true]
  omega

/-- Packed fields are read back. -/
theorem Fields.unpack_pack (k : SlotKind) (f : Fields) (h : f.fits k) : Fields.unpack k (f.pack k) = f := by
  obtain ⟨op, g, d, s, t, w, u, mask, ty, rm, xm, xn, xk, fmt, port, rsv⟩ := f
  simp only [fits] at h
  obtain ⟨ho, hg, hd, hs, ht, hw, h⟩ := h
  cases k <;> obtain ⟨h1, h2, h3, h4, h5, h6, h7, h8, h9, h10⟩ := h <;>
    simp only [unpack, pack, pack32]
  case v =>
    rw [unpack32_pack32 op g d s t w ho hg hd hs ht hw _ (by omega)]
    simp only [Fields.mk.injEq, true_and]
    omega
  case m =>
    rw [unpack32_pack32 op g d s t w ho hg hd hs ht hw _ (by omega)]
    simp only [Fields.mk.injEq, true_and]
    omega
  all_goals
    rw [unpack32_pack32 op g d s t w ho hg hd hs ht hw _ rfl]
    simp only [Fields.mk.injEq, true_and]
    omega

/-! ### Operand fields -/

@[simp] theorem reg?_val {n : Nat} (r : Fin n) : reg? n r.val = some r := by simp [reg?]
@[simp] theorem need_true : need true = some () := rfl
@[simp] theorem need_false : need false = none := rfl

theorem Guard.code_lt (g : Guard) : g.code < 32 := by
  have := g.p.isLt
  unfold Guard.code; split <;> omega

@[simp] theorem guardOf?_code (g : Guard) : guardOf? g.code = some g := by
  obtain ⟨n, p⟩ := g
  revert n p
  decide

@[simp] theorem condOf?_code (c : Cond) : condOf? c.code = some c := by cases c <;> rfl
@[simp] theorem tyOf?_code (c : ETy) : tyOf? c.code = some c := by cases c <;> rfl
@[simp] theorem rmOf?_code (c : Rm) : rmOf? c.code = some c := by cases c <;> rfl
@[simp] theorem redOf?_code (c : RedOp) : redOf? c.code = some c := by cases c <;> rfl
@[simp] theorem fmtOf?_code (c : MFmt) : fmtOf? c.code = some c := by cases c <;> rfl
@[simp] theorem sregOf?_code (c : SReg) : sregOf? c.code = some c := by cases c <;> rfl
theorem Cond.code_lt (c : Cond) : c.code < 10 := by cases c <;> decide
theorem ETy.code_lt (c : ETy) : c.code < 14 := by cases c <;> decide
theorem Rm.code_lt (c : Rm) : c.code < 5 := by cases c <;> decide
theorem RedOp.code_lt (c : RedOp) : c.code < 6 := by cases c <;> decide
theorem MFmt.code_lt (c : MFmt) : c.code < 8 := by cases c <;> decide
theorem SReg.code_lt (c : SReg) : c.code < 34 := by cases c <;> decide

theorem Imm.t_lt (i : Imm) : i.tField < 64 := by
  cases i with
  | short i => have := i.isLt; simp only [Imm.tField]; omega
  | long l => simp [Imm.tField]
theorem Imm.w_lt (i : Imm) : i.wField < 2 := by
  cases i with
  | short i => simp only [Imm.wField]; omega
  | long l => simp [Imm.wField]
theorem Land.t_lt (l : Land) : l.tField < 64 := by
  cases l with
  | short l => have := l.isLt; simp only [Land.tField]; omega
  | long o l => simp [Land.tField]

/-- An immediate is read back from its field or its LIMM. -/
theorem imm?_fields (f : Fields) (i : Imm) (ht : f.t = i.tField) (hw : f.w = i.wField) : imm? f i.lim = some i := by
  cases i with
  | short i =>
      simp only [Imm.tField, Imm.wField] at ht hw
      simp only [imm?, Imm.lim, ht, hw, Option.some.injEq, Imm.short.injEq]
      rw [show i.toNat / 2 * 2 + i.toNat % 2 = i.toNat by omega, BitVec.ofNat_toNat, BitVec.setWidth_eq]
  | long l =>
      simp only [Imm.tField, Imm.wField] at ht hw
      have := l.isLt
      simp only [imm?, Imm.lim, ht, hw, true_and]
      rw [if_pos (by omega), BitVec.ofNat_toNat, BitVec.setWidth_eq]

/-- A landing distance is read back from its field or its LIMM. -/
theorem land?_fields (f : Fields) (l : Land) (ht : f.t = l.tField) : land? f l.lim = some l := by
  cases l with
  | short l =>
      simp only [Land.tField] at ht
      simp only [land?, Land.lim, ht, BitVec.ofNat_toNat, BitVec.setWidth_eq]
  | long o l =>
      have ho := o.isLt
      have hl := l.isLt
      simp only [Land.tField] at ht
      simp only [land?, Land.lim, ht, true_and]
      rw [if_pos (by omega), show (o.toNat * 4096 + l.toNat) / 4096 = o.toNat by omega,
        show (o.toNat * 4096 + l.toNat) % 4096 = l.toNat by omega, BitVec.ofNat_toNat, BitVec.setWidth_eq,
        BitVec.ofNat_toNat, BitVec.setWidth_eq]

/-- A token field is read back. -/
theorem tok?_fields (f : Fields) (tk : Option TokReg) (base : Nat) (ho : f.op = base + tokCode tk) (hw : f.w = tk.isSome.toNat) :
    tok? f base = some tk := by
  cases tk with
  | none => simp_all [tok?, tokCode]
  | some k => simp [tok?, ho, hw, tokCode]

@[simp] theorem imm?_mk (op g d s u mask ty rm xm xn xk fmt port rsv : Nat) (i : Imm) :
    imm? ⟨op, g, d, s, i.tField, i.wField, u, mask, ty, rm, xm, xn, xk, fmt, port, rsv⟩ i.lim = some i := imm?_fields _ i rfl rfl
@[simp] theorem land?_mk (op g d s w u mask ty rm xm xn xk fmt port rsv : Nat) (l : Land) :
    land? ⟨op, g, d, s, l.tField, w, u, mask, ty, rm, xm, xn, xk, fmt, port, rsv⟩ l.lim = some l := land?_fields _ l rfl

/-- A lent LIMM is below 2^32. -/
@[simp] theorem toNat_lt32 (v : BitVec 32) : (v.toNat < 4294967296) = True := eq_true v.isLt

/-- The parts of a lent LIMM of COPY (R109). -/
@[simp] theorem copyLen_lt (n : BitVec 32) (p : BitVec 2) (a : Bool) :
    (n.toNat + p.toNat * 4294967296 + a.toNat * 17179869184 < 34359738368) = True := by
  have := n.isLt; have := p.isLt; have := a.toNat_lt
  exact eq_true (by omega)
@[simp] theorem copyLen_len (n : BitVec 32) (p : BitVec 2) (a : Bool) :
    BitVec.ofNat 32 (n.toNat + p.toNat * 4294967296 + a.toNat * 17179869184) = n := by
  apply BitVec.eq_of_toNat_eq
  have := n.isLt
  rw [BitVec.toNat_ofNat]; omega
@[simp] theorem copyLen_port (n : BitVec 32) (p : BitVec 2) (a : Bool) :
    BitVec.ofNat 2 ((n.toNat + p.toNat * 4294967296 + a.toNat * 17179869184) / 4294967296) = p := by
  apply BitVec.eq_of_toNat_eq
  have := n.isLt; have := p.isLt
  rw [BitVec.toNat_ofNat]; omega
@[simp] theorem copyLen_addw (n : BitVec 32) (p : BitVec 2) (a : Bool) :
    decide (17179869184 ≤ n.toNat + p.toNat * 4294967296 + a.toNat * 17179869184) = a := by
  have := n.isLt; have := p.isLt
  cases a
  · exact decide_eq_false (by simp; omega)
  · exact decide_eq_true (by simp)

/-- A slot's word decodes to the instruction that its opcode's row reads from its fields. -/
theorem row (k : SlotKind) (f : Fields) (lim : Option Nat) (p : Parser) (i : Instr) (hf : f.fits k)
    (hr : (k.map.find? (fun r => r.1 == f.op)).map (·.2) = some p) (hp : p f lim = some i) (hw : i.wf = true) :
    decodeSlot k (f.pack k) lim = some i := by
  rw [decodeSlot, Fields.unpack_pack k f hf, parseSlot]
  cases h : k.map.find? (fun r => r.1 == f.op) with
  | none => simp [h] at hr
  | some r => simp only [h, Option.map_some, Option.some.injEq] at hr; subst hr; simp [hp, hw]

end Sys2Proof
end

