-- ==== Sys2Proof/Laws/PerInstr.lean ====
section
/-! SUPPORT. Families of statements with one lemma per instruction: an encoded instruction decodes to itself. -/

namespace Sys2Proof.Laws.RoundTrip

/-- Decoding the words of a well-formed slot operation gives it back; an event has no words. -/
def Statement (i : Instr) : Prop :=
  i.wf = true → ∀ e, encode i = some e → decodeSlot e.1 e.2.1 e.2.2 = some i

theorem add (g : Guard) (d : XReg) (s : XReg) (t : XReg) : Statement (.add g d s t) := by
  intro hw e he
  obtain rfl := Option.some.inj he
  refine row .s _ _ _ _ ?_ rfl ?_ hw
  · have := g.code_lt; simp [Fields.fits]; omega
  · simp [pXXX]
theorem addImm (g : Guard) (d : XReg) (s : XReg) (i : Imm) : Statement (.addImm g d s i) := by
  intro hw e he
  obtain rfl := Option.some.inj he
  refine row .s _ _ _ _ ?_ rfl ?_ hw
  · have := g.code_lt; have := i.t_lt; have := i.w_lt; simp [Fields.fits]; omega
  · simp [pXXI]
theorem sub (g : Guard) (d : XReg) (s : XReg) (t : XReg) : Statement (.sub g d s t) := by
  intro hw e he
  obtain rfl := Option.some.inj he
  refine row .s _ _ _ _ ?_ rfl ?_ hw
  · have := g.code_lt; simp [Fields.fits]; omega
  · simp [pXXX]
theorem subImm (g : Guard) (d : XReg) (s : XReg) (i : Imm) : Statement (.subImm g d s i) := by
  intro hw e he
  obtain rfl := Option.some.inj he
  refine row .s _ _ _ _ ?_ rfl ?_ hw
  · have := g.code_lt; have := i.t_lt; have := i.w_lt; simp [Fields.fits]; omega
  · simp [pXXI]
theorem mul (g : Guard) (d : XReg) (s : XReg) (t : XReg) : Statement (.mul g d s t) := by
  intro hw e he
  obtain rfl := Option.some.inj he
  refine row .s _ _ _ _ ?_ rfl ?_ hw
  · have := g.code_lt; simp [Fields.fits]; omega
  · simp [pXXX]
theorem mulImm (g : Guard) (d : XReg) (s : XReg) (i : Imm) : Statement (.mulImm g d s i) := by
  intro hw e he
  obtain rfl := Option.some.inj he
  refine row .s _ _ _ _ ?_ rfl ?_ hw
  · have := g.code_lt; have := i.t_lt; have := i.w_lt; simp [Fields.fits]; omega
  · simp [pXXI]
theorem mulh (g : Guard) (d : XReg) (s : XReg) (t : XReg) : Statement (.mulh g d s t) := by
  intro hw e he
  obtain rfl := Option.some.inj he
  refine row .s _ _ _ _ ?_ rfl ?_ hw
  · have := g.code_lt; simp [Fields.fits]; omega
  · simp [pXXX]
theorem mulhImm (g : Guard) (d : XReg) (s : XReg) (i : Imm) : Statement (.mulhImm g d s i) := by
  intro hw e he
  obtain rfl := Option.some.inj he
  refine row .s _ _ _ _ ?_ rfl ?_ hw
  · have := g.code_lt; have := i.t_lt; have := i.w_lt; simp [Fields.fits]; omega
  · simp [pXXI]
theorem mulhn (g : Guard) (d : XReg) (s : XReg) (t : XReg) : Statement (.mulhn g d s t) := by
  intro hw e he
  obtain rfl := Option.some.inj he
  refine row .s _ _ _ _ ?_ rfl ?_ hw
  · have := g.code_lt; simp [Fields.fits]; omega
  · simp [pXXX]
theorem mulhnImm (g : Guard) (d : XReg) (s : XReg) (i : Imm) : Statement (.mulhnImm g d s i) := by
  intro hw e he
  obtain rfl := Option.some.inj he
  refine row .s _ _ _ _ ?_ rfl ?_ hw
  · have := g.code_lt; have := i.t_lt; have := i.w_lt; simp [Fields.fits]; omega
  · simp [pXXI]
theorem div (g : Guard) (d : XReg) (s : XReg) (t : XReg) : Statement (.div g d s t) := by
  intro hw e he
  obtain rfl := Option.some.inj he
  refine row .s _ _ _ _ ?_ rfl ?_ hw
  · have := g.code_lt; simp [Fields.fits]; omega
  · simp [pXXX]
theorem divImm (g : Guard) (d : XReg) (s : XReg) (i : Imm) : Statement (.divImm g d s i) := by
  intro hw e he
  obtain rfl := Option.some.inj he
  refine row .s _ _ _ _ ?_ rfl ?_ hw
  · have := g.code_lt; have := i.t_lt; have := i.w_lt; simp [Fields.fits]; omega
  · simp [pXXI]
theorem divn (g : Guard) (d : XReg) (s : XReg) (t : XReg) : Statement (.divn g d s t) := by
  intro hw e he
  obtain rfl := Option.some.inj he
  refine row .s _ _ _ _ ?_ rfl ?_ hw
  · have := g.code_lt; simp [Fields.fits]; omega
  · simp [pXXX]
theorem divnImm (g : Guard) (d : XReg) (s : XReg) (i : Imm) : Statement (.divnImm g d s i) := by
  intro hw e he
  obtain rfl := Option.some.inj he
  refine row .s _ _ _ _ ?_ rfl ?_ hw
  · have := g.code_lt; have := i.t_lt; have := i.w_lt; simp [Fields.fits]; omega
  · simp [pXXI]
theorem rem (g : Guard) (d : XReg) (s : XReg) (t : XReg) : Statement (.rem g d s t) := by
  intro hw e he
  obtain rfl := Option.some.inj he
  refine row .s _ _ _ _ ?_ rfl ?_ hw
  · have := g.code_lt; simp [Fields.fits]; omega
  · simp [pXXX]
theorem remImm (g : Guard) (d : XReg) (s : XReg) (i : Imm) : Statement (.remImm g d s i) := by
  intro hw e he
  obtain rfl := Option.some.inj he
  refine row .s _ _ _ _ ?_ rfl ?_ hw
  · have := g.code_lt; have := i.t_lt; have := i.w_lt; simp [Fields.fits]; omega
  · simp [pXXI]
theorem remn (g : Guard) (d : XReg) (s : XReg) (t : XReg) : Statement (.remn g d s t) := by
  intro hw e he
  obtain rfl := Option.some.inj he
  refine row .s _ _ _ _ ?_ rfl ?_ hw
  · have := g.code_lt; simp [Fields.fits]; omega
  · simp [pXXX]
theorem remnImm (g : Guard) (d : XReg) (s : XReg) (i : Imm) : Statement (.remnImm g d s i) := by
  intro hw e he
  obtain rfl := Option.some.inj he
  refine row .s _ _ _ _ ?_ rfl ?_ hw
  · have := g.code_lt; have := i.t_lt; have := i.w_lt; simp [Fields.fits]; omega
  · simp [pXXI]
theorem and (g : Guard) (d : XReg) (s : XReg) (t : XReg) : Statement (.and g d s t) := by
  intro hw e he
  obtain rfl := Option.some.inj he
  refine row .s _ _ _ _ ?_ rfl ?_ hw
  · have := g.code_lt; simp [Fields.fits]; omega
  · simp [pXXX]
theorem andImm (g : Guard) (d : XReg) (s : XReg) (i : Imm) : Statement (.andImm g d s i) := by
  intro hw e he
  obtain rfl := Option.some.inj he
  refine row .s _ _ _ _ ?_ rfl ?_ hw
  · have := g.code_lt; have := i.t_lt; have := i.w_lt; simp [Fields.fits]; omega
  · simp [pXXI]
theorem or (g : Guard) (d : XReg) (s : XReg) (t : XReg) : Statement (.or g d s t) := by
  intro hw e he
  obtain rfl := Option.some.inj he
  refine row .s _ _ _ _ ?_ rfl ?_ hw
  · have := g.code_lt; simp [Fields.fits]; omega
  · simp [pXXX]
theorem orImm (g : Guard) (d : XReg) (s : XReg) (i : Imm) : Statement (.orImm g d s i) := by
  intro hw e he
  obtain rfl := Option.some.inj he
  refine row .s _ _ _ _ ?_ rfl ?_ hw
  · have := g.code_lt; have := i.t_lt; have := i.w_lt; simp [Fields.fits]; omega
  · simp [pXXI]
theorem xor (g : Guard) (d : XReg) (s : XReg) (t : XReg) : Statement (.xor g d s t) := by
  intro hw e he
  obtain rfl := Option.some.inj he
  refine row .s _ _ _ _ ?_ rfl ?_ hw
  · have := g.code_lt; simp [Fields.fits]; omega
  · simp [pXXX]
theorem xorImm (g : Guard) (d : XReg) (s : XReg) (i : Imm) : Statement (.xorImm g d s i) := by
  intro hw e he
  obtain rfl := Option.some.inj he
  refine row .s _ _ _ _ ?_ rfl ?_ hw
  · have := g.code_lt; have := i.t_lt; have := i.w_lt; simp [Fields.fits]; omega
  · simp [pXXI]
theorem andn (g : Guard) (d : XReg) (s : XReg) (t : XReg) : Statement (.andn g d s t) := by
  intro hw e he
  obtain rfl := Option.some.inj he
  refine row .s _ _ _ _ ?_ rfl ?_ hw
  · have := g.code_lt; simp [Fields.fits]; omega
  · simp [pXXX]
theorem andnImm (g : Guard) (d : XReg) (s : XReg) (i : Imm) : Statement (.andnImm g d s i) := by
  intro hw e he
  obtain rfl := Option.some.inj he
  refine row .s _ _ _ _ ?_ rfl ?_ hw
  · have := g.code_lt; have := i.t_lt; have := i.w_lt; simp [Fields.fits]; omega
  · simp [pXXI]
theorem shl (g : Guard) (d : XReg) (s : XReg) (t : XReg) : Statement (.shl g d s t) := by
  intro hw e he
  obtain rfl := Option.some.inj he
  refine row .s _ _ _ _ ?_ rfl ?_ hw
  · have := g.code_lt; simp [Fields.fits]; omega
  · simp [pXXX]
theorem shlImm (g : Guard) (d : XReg) (s : XReg) (i : Imm) : Statement (.shlImm g d s i) := by
  intro hw e he
  obtain rfl := Option.some.inj he
  refine row .s _ _ _ _ ?_ rfl ?_ hw
  · have := g.code_lt; have := i.t_lt; have := i.w_lt; simp [Fields.fits]; omega
  · simp [pXXI]
theorem shr (g : Guard) (d : XReg) (s : XReg) (t : XReg) : Statement (.shr g d s t) := by
  intro hw e he
  obtain rfl := Option.some.inj he
  refine row .s _ _ _ _ ?_ rfl ?_ hw
  · have := g.code_lt; simp [Fields.fits]; omega
  · simp [pXXX]
theorem shrImm (g : Guard) (d : XReg) (s : XReg) (i : Imm) : Statement (.shrImm g d s i) := by
  intro hw e he
  obtain rfl := Option.some.inj he
  refine row .s _ _ _ _ ?_ rfl ?_ hw
  · have := g.code_lt; have := i.t_lt; have := i.w_lt; simp [Fields.fits]; omega
  · simp [pXXI]
theorem shra (g : Guard) (d : XReg) (s : XReg) (t : XReg) : Statement (.shra g d s t) := by
  intro hw e he
  obtain rfl := Option.some.inj he
  refine row .s _ _ _ _ ?_ rfl ?_ hw
  · have := g.code_lt; simp [Fields.fits]; omega
  · simp [pXXX]
theorem shraImm (g : Guard) (d : XReg) (s : XReg) (i : Imm) : Statement (.shraImm g d s i) := by
  intro hw e he
  obtain rfl := Option.some.inj he
  refine row .s _ _ _ _ ?_ rfl ?_ hw
  · have := g.code_lt; have := i.t_lt; have := i.w_lt; simp [Fields.fits]; omega
  · simp [pXXI]
theorem rol (g : Guard) (d : XReg) (s : XReg) (t : XReg) : Statement (.rol g d s t) := by
  intro hw e he
  obtain rfl := Option.some.inj he
  refine row .s _ _ _ _ ?_ rfl ?_ hw
  · have := g.code_lt; simp [Fields.fits]; omega
  · simp [pXXX]
theorem rolImm (g : Guard) (d : XReg) (s : XReg) (i : Imm) : Statement (.rolImm g d s i) := by
  intro hw e he
  obtain rfl := Option.some.inj he
  refine row .s _ _ _ _ ?_ rfl ?_ hw
  · have := g.code_lt; have := i.t_lt; have := i.w_lt; simp [Fields.fits]; omega
  · simp [pXXI]
theorem min (g : Guard) (d : XReg) (s : XReg) (t : XReg) : Statement (.min g d s t) := by
  intro hw e he
  obtain rfl := Option.some.inj he
  refine row .s _ _ _ _ ?_ rfl ?_ hw
  · have := g.code_lt; simp [Fields.fits]; omega
  · simp [pXXX]
theorem minImm (g : Guard) (d : XReg) (s : XReg) (i : Imm) : Statement (.minImm g d s i) := by
  intro hw e he
  obtain rfl := Option.some.inj he
  refine row .s _ _ _ _ ?_ rfl ?_ hw
  · have := g.code_lt; have := i.t_lt; have := i.w_lt; simp [Fields.fits]; omega
  · simp [pXXI]
theorem max (g : Guard) (d : XReg) (s : XReg) (t : XReg) : Statement (.max g d s t) := by
  intro hw e he
  obtain rfl := Option.some.inj he
  refine row .s _ _ _ _ ?_ rfl ?_ hw
  · have := g.code_lt; simp [Fields.fits]; omega
  · simp [pXXX]
theorem maxImm (g : Guard) (d : XReg) (s : XReg) (i : Imm) : Statement (.maxImm g d s i) := by
  intro hw e he
  obtain rfl := Option.some.inj he
  refine row .s _ _ _ _ ?_ rfl ?_ hw
  · have := g.code_lt; have := i.t_lt; have := i.w_lt; simp [Fields.fits]; omega
  · simp [pXXI]
theorem minn (g : Guard) (d : XReg) (s : XReg) (t : XReg) : Statement (.minn g d s t) := by
  intro hw e he
  obtain rfl := Option.some.inj he
  refine row .s _ _ _ _ ?_ rfl ?_ hw
  · have := g.code_lt; simp [Fields.fits]; omega
  · simp [pXXX]
theorem minnImm (g : Guard) (d : XReg) (s : XReg) (i : Imm) : Statement (.minnImm g d s i) := by
  intro hw e he
  obtain rfl := Option.some.inj he
  refine row .s _ _ _ _ ?_ rfl ?_ hw
  · have := g.code_lt; have := i.t_lt; have := i.w_lt; simp [Fields.fits]; omega
  · simp [pXXI]
theorem maxn (g : Guard) (d : XReg) (s : XReg) (t : XReg) : Statement (.maxn g d s t) := by
  intro hw e he
  obtain rfl := Option.some.inj he
  refine row .s _ _ _ _ ?_ rfl ?_ hw
  · have := g.code_lt; simp [Fields.fits]; omega
  · simp [pXXX]
theorem maxnImm (g : Guard) (d : XReg) (s : XReg) (i : Imm) : Statement (.maxnImm g d s i) := by
  intro hw e he
  obtain rfl := Option.some.inj he
  refine row .s _ _ _ _ ?_ rfl ?_ hw
  · have := g.code_lt; have := i.t_lt; have := i.w_lt; simp [Fields.fits]; omega
  · simp [pXXI]
theorem clz (g : Guard) (d : XReg) (s : XReg) : Statement (.clz g d s) := by
  intro hw e he
  obtain rfl := Option.some.inj he
  refine row .s _ _ _ _ ?_ rfl ?_ hw
  · have := g.code_lt; simp [Fields.fits]; omega
  · simp [pXX]
theorem ctz (g : Guard) (d : XReg) (s : XReg) : Statement (.ctz g d s) := by
  intro hw e he
  obtain rfl := Option.some.inj he
  refine row .s _ _ _ _ ?_ rfl ?_ hw
  · have := g.code_lt; simp [Fields.fits]; omega
  · simp [pXX]
theorem popc (g : Guard) (d : XReg) (s : XReg) : Statement (.popc g d s) := by
  intro hw e he
  obtain rfl := Option.some.inj he
  refine row .s _ _ _ _ ?_ rfl ?_ hw
  · have := g.code_lt; simp [Fields.fits]; omega
  · simp [pXX]
theorem abs (g : Guard) (d : XReg) (s : XReg) : Statement (.abs g d s) := by
  intro hw e he
  obtain rfl := Option.some.inj he
  refine row .s _ _ _ _ ?_ rfl ?_ hw
  · have := g.code_lt; simp [Fields.fits]; omega
  · simp [pXX]
theorem sext (g : Guard) (d : XReg) (s : XReg) (n : BitVec 6) : Statement (.sext g d s n) := by
  intro hw e he
  obtain rfl := Option.some.inj he
  refine row .s _ _ _ _ ?_ rfl ?_ hw
  · have := g.code_lt; simp [Fields.fits]; omega
  · simp [pXXN]
theorem zext (g : Guard) (d : XReg) (s : XReg) (n : BitVec 6) : Statement (.zext g d s n) := by
  intro hw e he
  obtain rfl := Option.some.inj he
  refine row .s _ _ _ _ ?_ rfl ?_ hw
  · have := g.code_lt; simp [Fields.fits]; omega
  · simp [pXXN]
theorem bfx (g : Guard) (d : XReg) (s : XReg) (t : XReg) : Statement (.bfx g d s t) := by
  intro hw e he
  obtain rfl := Option.some.inj he
  refine row .s _ _ _ _ ?_ rfl ?_ hw
  · have := g.code_lt; simp [Fields.fits]; omega
  · simp [pXXXW]
theorem bfxN (g : Guard) (d : XReg) (s : XReg) (t : XReg) : Statement (.bfxN g d s t) := by
  intro hw e he
  obtain rfl := Option.some.inj he
  refine row .s _ _ _ _ ?_ rfl ?_ hw
  · have := g.code_lt; simp [Fields.fits]; omega
  · simp [pXXXW]
theorem bfi (g : Guard) (d : XReg) (s : XReg) (t : XReg) : Statement (.bfi g d s t) := by
  intro hw e he
  obtain rfl := Option.some.inj he
  refine row .s _ _ _ _ ?_ rfl ?_ hw
  · have := g.code_lt; simp [Fields.fits]; omega
  · simp [pXXX]
theorem sel (g : Guard) (d : XReg) (s : XReg) (t : XReg) : Statement (.sel g d s t) := by
  intro hw e he
  obtain rfl := Option.some.inj he
  refine row .s _ _ _ _ ?_ rfl ?_ hw
  · have := g.code_lt; simp [Fields.fits]; omega
  · simp [pXXX]
theorem li (g : Guard) (d : XReg) (i : Imm) : Statement (.li g d i) := by
  intro hw e he
  obtain rfl := Option.some.inj he
  refine row .s _ _ _ _ ?_ rfl ?_ hw
  · have := g.code_lt; have := i.t_lt; have := i.w_lt; simp [Fields.fits]; omega
  · simp [pXI]
theorem fadd (g : Guard) (d : XReg) (s : XReg) (t : XReg) : Statement (.fadd g d s t) := by
  intro hw e he
  obtain rfl := Option.some.inj he
  refine row .s _ _ _ _ ?_ rfl ?_ hw
  · have := g.code_lt; simp [Fields.fits]; omega
  · simp [pXXX]
theorem fsub (g : Guard) (d : XReg) (s : XReg) (t : XReg) : Statement (.fsub g d s t) := by
  intro hw e he
  obtain rfl := Option.some.inj he
  refine row .s _ _ _ _ ?_ rfl ?_ hw
  · have := g.code_lt; simp [Fields.fits]; omega
  · simp [pXXX]
theorem fmul (g : Guard) (d : XReg) (s : XReg) (t : XReg) : Statement (.fmul g d s t) := by
  intro hw e he
  obtain rfl := Option.some.inj he
  refine row .s _ _ _ _ ?_ rfl ?_ hw
  · have := g.code_lt; simp [Fields.fits]; omega
  · simp [pXXX]
theorem ffma (g : Guard) (d : XReg) (s : XReg) (t : XReg) : Statement (.ffma g d s t) := by
  intro hw e he
  obtain rfl := Option.some.inj he
  refine row .s _ _ _ _ ?_ rfl ?_ hw
  · have := g.code_lt; simp [Fields.fits]; omega
  · simp [pXXX]
theorem fmin (g : Guard) (d : XReg) (s : XReg) (t : XReg) : Statement (.fmin g d s t) := by
  intro hw e he
  obtain rfl := Option.some.inj he
  refine row .s _ _ _ _ ?_ rfl ?_ hw
  · have := g.code_lt; simp [Fields.fits]; omega
  · simp [pXXX]
theorem fmax (g : Guard) (d : XReg) (s : XReg) (t : XReg) : Statement (.fmax g d s t) := by
  intro hw e he
  obtain rfl := Option.some.inj he
  refine row .s _ _ _ _ ?_ rfl ?_ hw
  · have := g.code_lt; simp [Fields.fits]; omega
  · simp [pXXX]
theorem cvtf (g : Guard) (d : XReg) (s : XReg) : Statement (.cvtf g d s) := by
  intro hw e he
  obtain rfl := Option.some.inj he
  refine row .s _ _ _ _ ?_ rfl ?_ hw
  · have := g.code_lt; simp [Fields.fits]; omega
  · simp [pXXW]
theorem cvtfN (g : Guard) (d : XReg) (s : XReg) : Statement (.cvtfN g d s) := by
  intro hw e he
  obtain rfl := Option.some.inj he
  refine row .s _ _ _ _ ?_ rfl ?_ hw
  · have := g.code_lt; simp [Fields.fits]; omega
  · simp [pXXW]
theorem cvti (g : Guard) (d : XReg) (s : XReg) : Statement (.cvti g d s) := by
  intro hw e he
  obtain rfl := Option.some.inj he
  refine row .s _ _ _ _ ?_ rfl ?_ hw
  · have := g.code_lt; simp [Fields.fits]; omega
  · simp [pXXW]
theorem cvtiN (g : Guard) (d : XReg) (s : XReg) : Statement (.cvtiN g d s) := by
  intro hw e he
  obtain rfl := Option.some.inj he
  refine row .s _ _ _ _ ?_ rfl ?_ hw
  · have := g.code_lt; simp [Fields.fits]; omega
  · simp [pXXW]
theorem pand (g : Guard) (d : PReg) (s : PReg) (t : PReg) : Statement (.pand g d s t) := by
  intro hw e he
  obtain rfl := Option.some.inj he
  refine row .s _ _ _ _ ?_ rfl ?_ hw
  · have := g.code_lt; simp [Fields.fits]; omega
  · simp [pPPP]
theorem por (g : Guard) (d : PReg) (s : PReg) (t : PReg) : Statement (.por g d s t) := by
  intro hw e he
  obtain rfl := Option.some.inj he
  refine row .s _ _ _ _ ?_ rfl ?_ hw
  · have := g.code_lt; simp [Fields.fits]; omega
  · simp [pPPP]
theorem pxor (g : Guard) (d : PReg) (s : PReg) (t : PReg) : Statement (.pxor g d s t) := by
  intro hw e he
  obtain rfl := Option.some.inj he
  refine row .s _ _ _ _ ?_ rfl ?_ hw
  · have := g.code_lt; simp [Fields.fits]; omega
  · simp [pPPP]
theorem pandn (g : Guard) (d : PReg) (s : PReg) (t : PReg) : Statement (.pandn g d s t) := by
  intro hw e he
  obtain rfl := Option.some.inj he
  refine row .s _ _ _ _ ?_ rfl ?_ hw
  · have := g.code_lt; simp [Fields.fits]; omega
  · simp [pPPP]
theorem pget (g : Guard) (d : XReg) : Statement (.pget g d) := by
  intro hw e he
  obtain rfl := Option.some.inj he
  refine row .s _ _ _ _ ?_ rfl ?_ hw
  · have := g.code_lt; simp [Fields.fits]; omega
  · simp [pX]
theorem pset (g : Guard) (s : XReg) : Statement (.pset g s) := by
  intro hw e he
  obtain rfl := Option.some.inj he
  refine row .s _ _ _ _ ?_ rfl ?_ hw
  · have := g.code_lt; simp [Fields.fits]; omega
  · simp [pSX]
theorem ptb (g : Guard) (d : BReg) (i : Imm) : Statement (.ptb g d i) := by
  intro hw e he
  obtain rfl := Option.some.inj he
  refine row .s _ _ _ _ ?_ rfl ?_ hw
  · have := g.code_lt; have := i.t_lt; have := i.w_lt; simp [Fields.fits]; omega
  · simp [pBI]
theorem ptbx (g : Guard) (d : BReg) (s : XReg) : Statement (.ptbx g d s) := by
  intro hw e he
  obtain rfl := Option.some.inj he
  refine row .s _ _ _ _ ?_ rfl ?_ hw
  · have := g.code_lt; simp [Fields.fits]; omega
  · simp [pBX]
theorem br (g : Guard) (s : BReg) : Statement (.br g s) := by
  intro hw e he
  obtain rfl := Option.some.inj he
  refine row .s _ _ _ _ ?_ rfl ?_ hw
  · have := g.code_lt; simp [Fields.fits]; omega
  · simp [pSB]
theorem brl (g : Guard) (d : XReg) (s : BReg) : Statement (.brl g d s) := by
  intro hw e he
  obtain rfl := Option.some.inj he
  refine row .s _ _ _ _ ?_ rfl ?_ hw
  · have := g.code_lt; simp [Fields.fits]; omega
  · simp [pXB]
theorem trap (g : Guard) (i : Imm) : Statement (.trap g i) := by
  intro hw e he
  obtain rfl := Option.some.inj he
  refine row .s _ _ _ _ ?_ rfl ?_ hw
  · have := g.code_lt; have := i.t_lt; have := i.w_lt; simp [Fields.fits]; omega
  · simp [pI]
theorem aadd (g : Guard) (d : AReg) (s : AReg) (t : XReg) : Statement (.aadd g d s t) := by
  intro hw e he
  obtain rfl := Option.some.inj he
  refine row .s _ _ _ _ ?_ rfl ?_ hw
  · have := g.code_lt; simp [Fields.fits]; omega
  · simp [pAAX]
theorem aaddImm (g : Guard) (d : AReg) (s : AReg) (i : Imm) : Statement (.aaddImm g d s i) := by
  intro hw e he
  obtain rfl := Option.some.inj he
  refine row .s _ _ _ _ ?_ rfl ?_ hw
  · have := g.code_lt; have := i.t_lt; have := i.w_lt; simp [Fields.fits]; omega
  · simp [pAAI]
theorem aset (g : Guard) (d : AReg) (s : XReg) : Statement (.aset g d s) := by
  intro hw e he
  obtain rfl := Option.some.inj he
  refine row .s _ _ _ _ ?_ rfl ?_ hw
  · have := g.code_lt; simp [Fields.fits]; omega
  · simp [pAX]
theorem aget (g : Guard) (d : XReg) (s : AReg) : Statement (.aget g d s) := by
  intro hw e he
  obtain rfl := Option.some.inj he
  refine row .s _ _ _ _ ?_ rfl ?_ hw
  · have := g.code_lt; simp [Fields.fits]; omega
  · simp [pXA]
theorem alea (g : Guard) (d : AReg) (s : AReg) (t : XReg) : Statement (.alea g d s t) := by
  intro hw e he
  obtain rfl := Option.some.inj he
  refine row .s _ _ _ _ ?_ rfl ?_ hw
  · have := g.code_lt; simp [Fields.fits]; omega
  · simp [pAAX]
theorem cmp (g : Guard) (c : Cond) (d : PReg) (s : XReg) (t : XReg) : Statement (.cmp g c d s t) := by
  intro hw e he
  obtain rfl := Option.some.inj he
  cases c
  all_goals
    first
    | (refine row .s _ _ _ _ ?_ rfl ?_ hw
       · have := g.code_lt; simp [Fields.fits, Cond.code]; try omega
       · simp [pPXX, Cond.code])
theorem cmpImm (g : Guard) (c : Cond) (d : PReg) (s : XReg) (i : Imm) : Statement (.cmpImm g c d s i) := by
  intro hw e he
  obtain rfl := Option.some.inj he
  cases c
  all_goals
    first
    | (refine row .s _ _ _ _ ?_ rfl ?_ hw
       · have := g.code_lt; have := i.t_lt; have := i.w_lt; simp [Fields.fits, Cond.code]; try omega
       · simp [pPXI, Cond.code])
theorem fcmp (g : Guard) (c : Cond) (d : PReg) (s : XReg) (t : XReg) : Statement (.fcmp g c d s t) := by
  intro hw e he
  obtain rfl := Option.some.inj he
  cases c
  all_goals
    first
    | (simp [Instr.wf, Cond.floatOk] at hw; done)
    | (refine row .s _ _ _ _ ?_ rfl ?_ hw
       · have := g.code_lt; simp [Fields.fits, Cond.code]; try omega
       · simp [pPXX, Cond.code])
theorem gets (g : Guard) (d : XReg) (r : SReg) : Statement (.gets g d r) := by
  intro hw e he
  obtain rfl := Option.some.inj he
  cases r
  all_goals
    first
    | (refine row .s _ _ _ _ ?_ rfl ?_ hw
       · have := g.code_lt; simp [Fields.fits, SReg.code, sregOf?]; try omega
       · simp [pGets, SReg.code, sregOf?, need])
theorem puts (g : Guard) (s : XReg) (r : SReg) : Statement (.puts g s r) := by
  intro hw e he
  obtain rfl := Option.some.inj he
  cases r
  all_goals
    first
    | (refine row .s _ _ _ _ ?_ rfl ?_ hw
       · have := g.code_lt; simp [Fields.fits, SReg.code, sregOf?]; try omega
       · simp [pPuts, SReg.code, sregOf?, need])
theorem ld (g : Guard) (z : Size) (d : XReg) (s : AReg) (l : Land) : Statement (.ld g z d s l) := by
  intro hw e he
  obtain rfl := Option.some.inj he
  cases z
  all_goals
    first
    | (refine row .a _ _ _ _ ?_ rfl ?_ hw
       · have := g.code_lt; have := l.t_lt; simp [Fields.fits, Size.code]; try omega
       · simp [pXAL, Size.code])
theorem ldN (g : Guard) (z : Size) (d : XReg) (s : AReg) (l : Land) : Statement (.ldN g z d s l) := by
  intro hw e he
  obtain rfl := Option.some.inj he
  cases z
  all_goals
    first
    | (simp [Instr.wf, Cond.floatOk] at hw; done)
    | (refine row .a _ _ _ _ ?_ rfl ?_ hw
       · have := g.code_lt; have := l.t_lt; simp [Fields.fits, Size.code]; try omega
       · simp [pXAL, Size.code])
theorem st (g : Guard) (z : Size) (d : XReg) (s : AReg) (o : Imm) : Statement (.st g z d s o) := by
  intro hw e he
  obtain rfl := Option.some.inj he
  cases z
  all_goals
    first
    | (refine row .a _ _ _ _ ?_ rfl ?_ hw
       · have := g.code_lt; have := o.t_lt; have := o.w_lt; simp [Fields.fits, Size.code]; try omega
       · simp [pXAI, Size.code])
theorem ldv (g : Guard) (d : VReg) (s : AReg) (l : Land) : Statement (.ldv g d s l) := by
  intro hw e he
  obtain rfl := Option.some.inj he
  refine row .a _ _ _ _ ?_ rfl ?_ hw
  · have := g.code_lt; have := l.t_lt; simp [Fields.fits]; omega
  · simp [pVAL]
theorem ldvFeTake (g : Guard) (one : Bool) (d : VReg) (s : AReg) (l : Land) : Statement (.ldvFeTake g one d s l) := by
  intro hw e he
  obtain rfl := Option.some.inj he
  cases one
  all_goals
    first
    | (refine row .a _ _ _ _ ?_ rfl ?_ hw
       · have := g.code_lt; have := l.t_lt; simp [Fields.fits]; try omega
       · simp [pFe])
theorem ldvFeKeep (g : Guard) (one : Bool) (d : VReg) (s : AReg) (l : Land) : Statement (.ldvFeKeep g one d s l) := by
  intro hw e he
  obtain rfl := Option.some.inj he
  cases one
  all_goals
    first
    | (refine row .a _ _ _ _ ?_ rfl ?_ hw
       · have := g.code_lt; have := l.t_lt; simp [Fields.fits]; try omega
       · simp [pFe])
theorem stv (g : Guard) (d : VReg) (s : AReg) (o : Imm) : Statement (.stv g d s o) := by
  intro hw e he
  obtain rfl := Option.some.inj he
  refine row .a _ _ _ _ ?_ rfl ?_ hw
  · have := g.code_lt; have := o.t_lt; have := o.w_lt; simp [Fields.fits]; omega
  · simp [pVAI]
theorem stvFe (g : Guard) (d : VReg) (s : AReg) (o : Imm) : Statement (.stvFe g d s o) := by
  intro hw e he
  obtain rfl := Option.some.inj he
  refine row .a _ _ _ _ ?_ rfl ?_ hw
  · have := g.code_lt; have := o.t_lt; have := o.w_lt; simp [Fields.fits]; omega
  · simp [pVAI]
theorem ldvg (g : Guard) (d : VReg) (s : AReg) (l : Land) : Statement (.ldvg g d s l) := by
  intro hw e he
  obtain rfl := Option.some.inj he
  refine row .a _ _ _ _ ?_ rfl ?_ hw
  · have := g.code_lt; have := l.t_lt; simp [Fields.fits]; omega
  · simp [pVAL]
theorem stvs (g : Guard) (d : VReg) (s : AReg) (t : VReg) : Statement (.stvs g d s t) := by
  intro hw e he
  obtain rfl := Option.some.inj he
  refine row .a _ _ _ _ ?_ rfl ?_ hw
  · have := g.code_lt; simp [Fields.fits]; omega
  · simp [pVAV]
theorem setfe (g : Guard) (d : XReg) (s : AReg) : Statement (.setfe g d s) := by
  intro hw e he
  obtain rfl := Option.some.inj he
  refine row .a _ _ _ _ ?_ rfl ?_ hw
  · have := g.code_lt; simp [Fields.fits]; omega
  · simp [pXA]
theorem clrfe (g : Guard) (d : XReg) (s : AReg) : Statement (.clrfe g d s) := by
  intro hw e he
  obtain rfl := Option.some.inj he
  refine row .a _ _ _ _ ?_ rfl ?_ hw
  · have := g.code_lt; simp [Fields.fits]; omega
  · simp [pXA]
theorem spill (g : Guard) (d : VReg) : Statement (.spill g d) := by
  intro hw e he
  obtain rfl := Option.some.inj he
  refine row .a _ _ _ _ ?_ rfl ?_ hw
  · have := g.code_lt; simp [Fields.fits]; omega
  · simp [pV]
theorem fill (g : Guard) (d : VReg) (l : Land) : Statement (.fill g d l) := by
  intro hw e he
  obtain rfl := Option.some.inj he
  refine row .a _ _ _ _ ?_ rfl ?_ hw
  · have := g.code_lt; have := l.t_lt; simp [Fields.fits]; omega
  · simp [pVL]
theorem pref (g : Guard) (s : AReg) (o : Imm) : Statement (.pref g s o) := by
  intro hw e he
  obtain rfl := Option.some.inj he
  refine row .a _ _ _ _ ?_ rfl ?_ hw
  · have := g.code_lt; have := o.t_lt; have := o.w_lt; simp [Fields.fits]; omega
  · simp [pSAI]
theorem atom (g : Guard) (op : AtomOp) (dbl : Bool) (d : XReg) (s : AReg) (l : Land) : Statement (.atom g op dbl d s l) := by
  intro hw e he
  obtain rfl := Option.some.inj he
  cases op <;> cases dbl
  all_goals
    first
    | (refine row .a _ _ _ _ ?_ rfl ?_ hw
       · have := g.code_lt; have := l.t_lt; simp [Fields.fits, AtomOp.code]; try omega
       · simp [pAtom, AtomOp.code])
theorem cas (g : Guard) (dbl : Bool) (d : XReg) (s : AReg) (l : Land) : Statement (.cas g dbl d s l) := by
  intro hw e he
  obtain rfl := Option.some.inj he
  cases dbl
  all_goals
    first
    | (refine row .a _ _ _ _ ?_ rfl ?_ hw
       · have := g.code_lt; have := l.t_lt; simp [Fields.fits]; try omega
       · simp [pAtom])
theorem red (g : Guard) (op : AtomOp) (dbl : Bool) (d : XReg) (s : AReg) (o : Option (BitVec 32)) : Statement (.red g op dbl d s o) := by
  intro hw e he
  obtain rfl := Option.some.inj he
  cases op <;> cases dbl <;> cases o
  all_goals
    first
    | (simp [Instr.wf, Cond.floatOk] at hw; done)
    | (refine row .a _ _ _ _ ?_ rfl ?_ hw
       · have := g.code_lt; simp [Fields.fits, AtomOp.code]; try omega
       · simp [pRed, need, AtomOp.code])
theorem chkout (g : Guard) (d : XReg) (s : AReg) : Statement (.chkout g d s) := by
  intro hw e he
  obtain rfl := Option.some.inj he
  refine row .a _ _ _ _ ?_ rfl ?_ hw
  · have := g.code_lt; simp [Fields.fits]; omega
  · simp [pXA]
theorem chkin (g : Guard) (s : AReg) : Statement (.chkin g s) := by
  intro hw e he
  obtain rfl := Option.some.inj he
  refine row .a _ _ _ _ ?_ rfl ?_ hw
  · have := g.code_lt; simp [Fields.fits]; omega
  · simp [pSA]
theorem copy (g : Guard) (tk : Option TokReg) (d : AReg) (s : AReg) (n : CopyLen) : Statement (.copy g tk d s n) := by
  intro hw e he
  obtain rfl := Option.some.inj he
  rcases tk with _ | ⟨_ | _ | _ | _ | _ | _ | _ | _ | k, hk⟩ <;> cases n
  all_goals
    first
    | (exfalso; omega)
    | (refine row .c _ _ _ _ ?_ rfl ?_ hw
       · have := g.code_lt; simp [Fields.fits, tokCode, CopyLen.tField]; try omega
       · simp [pCopy, tokCode, tok?, reg?, CopyLen.tField, CopyLen.lim, need])
theorem copys (g : Guard) (tk : Option TokReg) (d : AReg) (s : AReg) (t : XReg) : Statement (.copys g tk d s t) := by
  intro hw e he
  obtain rfl := Option.some.inj he
  rcases tk with _ | ⟨_ | _ | _ | _ | _ | _ | _ | _ | k, hk⟩
  all_goals
    first
    | (exfalso; omega)
    | (refine row .c _ _ _ _ ?_ rfl ?_ hw
       · have := g.code_lt; simp [Fields.fits, tokCode]; try omega
       · simp [pTokX, tokCode, tok?, reg?])
theorem copyg (g : Guard) (tk : Option TokReg) (d : AReg) (s : AReg) (t : VReg) : Statement (.copyg g tk d s t) := by
  intro hw e he
  obtain rfl := Option.some.inj he
  rcases tk with _ | ⟨_ | _ | _ | _ | _ | _ | _ | _ | k, hk⟩
  all_goals
    first
    | (exfalso; omega)
    | (refine row .c _ _ _ _ ?_ rfl ?_ hw
       · have := g.code_lt; simp [Fields.fits, tokCode]; try omega
       · simp [pCopyg, tokCode, tok?, reg?])
theorem copyfe (g : Guard) (tk : Option TokReg) (d : AReg) (s : AReg) (t : XReg) : Statement (.copyfe g tk d s t) := by
  intro hw e he
  obtain rfl := Option.some.inj he
  rcases tk with _ | ⟨_ | _ | _ | _ | _ | _ | _ | _ | k, hk⟩
  all_goals
    first
    | (exfalso; omega)
    | (refine row .c _ _ _ _ ?_ rfl ?_ hw
       · have := g.code_lt; simp [Fields.fits, tokCode]; try omega
       · simp [pTokX, tokCode, tok?, reg?])
theorem gemv (g : Guard) (tk : Option TokReg) (d : AReg) (s : AReg) (t : AReg) : Statement (.gemv g tk d s t) := by
  intro hw e he
  obtain rfl := Option.some.inj he
  rcases tk with _ | ⟨_ | _ | _ | _ | _ | _ | _ | _ | k, hk⟩
  all_goals
    first
    | (exfalso; omega)
    | (refine row .c _ _ _ _ ?_ rfl ?_ hw
       · have := g.code_lt; simp [Fields.fits, tokCode]; try omega
       · simp [pGemv, tokCode, tok?, reg?])
theorem bankmode (g : Guard) (s : XReg) : Statement (.bankmode g s) := by
  intro hw e he
  obtain rfl := Option.some.inj he
  refine row .c _ _ _ _ ?_ rfl ?_ hw
  · have := g.code_lt; simp [Fields.fits]; omega
  · simp [pSX]
theorem flush (g : Guard) (d : XReg) (s : AReg) : Statement (.flush g d s) := by
  intro hw e he
  obtain rfl := Option.some.inj he
  refine row .c _ _ _ _ ?_ rfl ?_ hw
  · have := g.code_lt; simp [Fields.fits]; omega
  · simp [pXA]
theorem inval (g : Guard) (d : XReg) (s : AReg) : Statement (.inval g d s) := by
  intro hw e he
  obtain rfl := Option.some.inj he
  refine row .c _ _ _ _ ?_ rfl ?_ hw
  · have := g.code_lt; simp [Fields.fits]; omega
  · simp [pXA]
theorem mma (g : Guard) (d : TReg) (s : AReg) (t : AReg) (xm : XReg) (xn : XReg) (xk : XReg) (f : MFmt) : Statement (.mma g d s t xm xn xk f) := by
  intro hw e he
  obtain rfl := Option.some.inj he
  refine row .m _ _ _ _ ?_ rfl ?_ hw
  · have := g.code_lt; have := f.code_lt; simp [Fields.fits]; omega
  · simp [pMma, mZero]
theorem mmat (g : Guard) (d : TReg) (s : AReg) (t : AReg) (xm : XReg) (xn : XReg) (xk : XReg) (f : MFmt) : Statement (.mmat g d s t xm xn xk f) := by
  intro hw e he
  obtain rfl := Option.some.inj he
  refine row .m _ _ _ _ ?_ rfl ?_ hw
  · have := g.code_lt; have := f.code_lt; simp [Fields.fits]; omega
  · simp [pMma, mZero]
theorem accz (g : Guard) (d : TReg) : Statement (.accz g d) := by
  intro hw e he
  obtain rfl := Option.some.inj he
  refine row .m _ _ _ _ ?_ rfl ?_ hw
  · have := g.code_lt; simp [Fields.fits]; omega
  · simp [pAccz, mZero]
theorem accret (g : Guard) (d : TReg) (s : AReg) (ty : ETy) : Statement (.accret g d s ty) := by
  intro hw e he
  obtain rfl := Option.some.inj he
  refine row .m _ _ _ _ ?_ rfl ?_ hw
  · have := g.code_lt; have := ty.code_lt; simp [Fields.fits]; omega
  · simp [pAccret, mZero]
theorem accadd (g : Guard) (d : TReg) (s : AReg) (ty : ETy) (port : BitVec 2) : Statement (.accadd g d s ty port) := by
  intro hw e he
  obtain rfl := Option.some.inj he
  refine row .m _ _ _ _ ?_ rfl ?_ hw
  · have := g.code_lt; have := ty.code_lt; simp [Fields.fits]; omega
  · simp [pAccadd, mZero]
theorem accld (g : Guard) (d : TReg) (s : AReg) : Statement (.accld g d s) := by
  intro hw e he
  obtain rfl := Option.some.inj he
  refine row .m _ _ _ _ ?_ rfl ?_ hw
  · have := g.code_lt; simp [Fields.fits]; omega
  · simp [pAccMem, mZero]
theorem accst (g : Guard) (d : TReg) (s : AReg) : Statement (.accst g d s) := by
  intro hw e he
  obtain rfl := Option.some.inj he
  refine row .m _ _ _ _ ?_ rfl ?_ hw
  · have := g.code_lt; simp [Fields.fits]; omega
  · simp [pAccMem, mZero]
theorem accrd (g : Guard) (d : VReg) (s : TReg) (xm : XReg) : Statement (.accrd g d s xm) := by
  intro hw e he
  obtain rfl := Option.some.inj he
  refine row .m _ _ _ _ ?_ rfl ?_ hw
  · have := g.code_lt; simp [Fields.fits]; omega
  · simp [pAccRow, mZero]
theorem accwr (g : Guard) (d : TReg) (s : VReg) (xm : XReg) : Statement (.accwr g d s xm) := by
  intro hw e he
  obtain rfl := Option.some.inj he
  refine row .m _ _ _ _ ?_ rfl ?_ hw
  · have := g.code_lt; simp [Fields.fits]; omega
  · simp [pAccRow, mZero]
theorem vadd (g : Guard) (d : VReg) (s : VReg) (t : VReg) (m : QReg) (ty : ETy) (rm : Rm) : Statement (.vadd g d s t m ty rm) := by
  intro hw e he
  obtain rfl := Option.some.inj he
  refine row .v _ _ _ _ ?_ rfl ?_ hw
  · have := g.code_lt; have := ty.code_lt; have := rm.code_lt; simp [Fields.fits]; omega
  · simp [pVVVr, vPlain, vNoTy]
theorem vsub (g : Guard) (d : VReg) (s : VReg) (t : VReg) (m : QReg) (ty : ETy) (rm : Rm) : Statement (.vsub g d s t m ty rm) := by
  intro hw e he
  obtain rfl := Option.some.inj he
  refine row .v _ _ _ _ ?_ rfl ?_ hw
  · have := g.code_lt; have := ty.code_lt; have := rm.code_lt; simp [Fields.fits]; omega
  · simp [pVVVr, vPlain, vNoTy]
theorem vmul (g : Guard) (d : VReg) (s : VReg) (t : VReg) (m : QReg) (ty : ETy) (rm : Rm) : Statement (.vmul g d s t m ty rm) := by
  intro hw e he
  obtain rfl := Option.some.inj he
  refine row .v _ _ _ _ ?_ rfl ?_ hw
  · have := g.code_lt; have := ty.code_lt; have := rm.code_lt; simp [Fields.fits]; omega
  · simp [pVVVr, vPlain, vNoTy]
theorem vfma (g : Guard) (d : VReg) (s : VReg) (t : VReg) (u : VReg) (m : QReg) (ty : ETy) (rm : Rm) : Statement (.vfma g d s t u m ty rm) := by
  intro hw e he
  obtain rfl := Option.some.inj he
  refine row .v _ _ _ _ ?_ rfl ?_ hw
  · have := g.code_lt; have := ty.code_lt; have := rm.code_lt; simp [Fields.fits]; omega
  · simp [pVfma, vPlain, vNoTy]
theorem vmin (g : Guard) (d : VReg) (s : VReg) (t : VReg) (m : QReg) (ty : ETy) : Statement (.vmin g d s t m ty) := by
  intro hw e he
  obtain rfl := Option.some.inj he
  refine row .v _ _ _ _ ?_ rfl ?_ hw
  · have := g.code_lt; have := ty.code_lt; simp [Fields.fits]; omega
  · simp [pVVVt, vPlain, vNoTy]
theorem vmax (g : Guard) (d : VReg) (s : VReg) (t : VReg) (m : QReg) (ty : ETy) : Statement (.vmax g d s t m ty) := by
  intro hw e he
  obtain rfl := Option.some.inj he
  refine row .v _ _ _ _ ?_ rfl ?_ hw
  · have := g.code_lt; have := ty.code_lt; simp [Fields.fits]; omega
  · simp [pVVVt, vPlain, vNoTy]
theorem vabs (g : Guard) (d : VReg) (s : VReg) (m : QReg) (ty : ETy) : Statement (.vabs g d s m ty) := by
  intro hw e he
  obtain rfl := Option.some.inj he
  refine row .v _ _ _ _ ?_ rfl ?_ hw
  · have := g.code_lt; have := ty.code_lt; simp [Fields.fits]; omega
  · simp [pVVt, vPlain, vNoTy]
theorem vneg (g : Guard) (d : VReg) (s : VReg) (m : QReg) (ty : ETy) : Statement (.vneg g d s m ty) := by
  intro hw e he
  obtain rfl := Option.some.inj he
  refine row .v _ _ _ _ ?_ rfl ?_ hw
  · have := g.code_lt; have := ty.code_lt; simp [Fields.fits]; omega
  · simp [pVVt, vPlain, vNoTy]
theorem vclamp (g : Guard) (d : VReg) (s : VReg) (t : VReg) (u : VReg) (m : QReg) (ty : ETy) : Statement (.vclamp g d s t u m ty) := by
  intro hw e he
  obtain rfl := Option.some.inj he
  refine row .v _ _ _ _ ?_ rfl ?_ hw
  · have := g.code_lt; have := ty.code_lt; simp [Fields.fits]; omega
  · simp [pVclamp, vPlain, vNoTy]
theorem vrcp (g : Guard) (d : VReg) (s : VReg) (m : QReg) : Statement (.vrcp g d s m) := by
  intro hw e he
  obtain rfl := Option.some.inj he
  refine row .v _ _ _ _ ?_ rfl ?_ hw
  · have := g.code_lt; simp [Fields.fits]; omega
  · simp [pVFun, vPlain, vNoTy]
theorem vrsq (g : Guard) (d : VReg) (s : VReg) (m : QReg) : Statement (.vrsq g d s m) := by
  intro hw e he
  obtain rfl := Option.some.inj he
  refine row .v _ _ _ _ ?_ rfl ?_ hw
  · have := g.code_lt; simp [Fields.fits]; omega
  · simp [pVFun, vPlain, vNoTy]
theorem vexp2 (g : Guard) (d : VReg) (s : VReg) (m : QReg) : Statement (.vexp2 g d s m) := by
  intro hw e he
  obtain rfl := Option.some.inj he
  refine row .v _ _ _ _ ?_ rfl ?_ hw
  · have := g.code_lt; simp [Fields.fits]; omega
  · simp [pVFun, vPlain, vNoTy]
theorem vlog2 (g : Guard) (d : VReg) (s : VReg) (m : QReg) : Statement (.vlog2 g d s m) := by
  intro hw e he
  obtain rfl := Option.some.inj he
  refine row .v _ _ _ _ ?_ rfl ?_ hw
  · have := g.code_lt; simp [Fields.fits]; omega
  · simp [pVFun, vPlain, vNoTy]
theorem vand (g : Guard) (d : VReg) (s : VReg) (t : VReg) (m : QReg) : Statement (.vand g d s t m) := by
  intro hw e he
  obtain rfl := Option.some.inj he
  refine row .v _ _ _ _ ?_ rfl ?_ hw
  · have := g.code_lt; simp [Fields.fits]; omega
  · simp [pVVV, vPlain, vNoTy]
theorem vor (g : Guard) (d : VReg) (s : VReg) (t : VReg) (m : QReg) : Statement (.vor g d s t m) := by
  intro hw e he
  obtain rfl := Option.some.inj he
  refine row .v _ _ _ _ ?_ rfl ?_ hw
  · have := g.code_lt; simp [Fields.fits]; omega
  · simp [pVVV, vPlain, vNoTy]
theorem vxor (g : Guard) (d : VReg) (s : VReg) (t : VReg) (m : QReg) : Statement (.vxor g d s t m) := by
  intro hw e he
  obtain rfl := Option.some.inj he
  refine row .v _ _ _ _ ?_ rfl ?_ hw
  · have := g.code_lt; simp [Fields.fits]; omega
  · simp [pVVV, vPlain, vNoTy]
theorem vshl (g : Guard) (d : VReg) (s : VReg) (t : VCount) (m : QReg) : Statement (.vshl g d s t m) := by
  intro hw e he
  obtain rfl := Option.some.inj he
  cases t
  all_goals
    first
    | (refine row .v _ _ _ _ ?_ rfl ?_ hw
       · have := g.code_lt; simp [Fields.fits, VCount.tField, VCount.wField, VCount.uField]; try omega
       · simp [pVShift, vPlain, vNoTy, need, VCount.tField, VCount.wField, VCount.uField])
theorem vshr (g : Guard) (d : VReg) (s : VReg) (t : VCount) (m : QReg) : Statement (.vshr g d s t m) := by
  intro hw e he
  obtain rfl := Option.some.inj he
  cases t
  all_goals
    first
    | (refine row .v _ _ _ _ ?_ rfl ?_ hw
       · have := g.code_lt; simp [Fields.fits, VCount.tField, VCount.wField, VCount.uField]; try omega
       · simp [pVShift, vPlain, vNoTy, need, VCount.tField, VCount.wField, VCount.uField])
theorem vshra (g : Guard) (d : VReg) (s : VReg) (t : VCount) (m : QReg) : Statement (.vshra g d s t m) := by
  intro hw e he
  obtain rfl := Option.some.inj he
  cases t
  all_goals
    first
    | (refine row .v _ _ _ _ ?_ rfl ?_ hw
       · have := g.code_lt; simp [Fields.fits, VCount.tField, VCount.wField, VCount.uField]; try omega
       · simp [pVShift, vPlain, vNoTy, need, VCount.tField, VCount.wField, VCount.uField])
theorem vcmp (g : Guard) (c : Cond) (d : QReg) (s : VReg) (t : VReg) (m : QReg) (ty : ETy) : Statement (.vcmp g c d s t m ty) := by
  intro hw e he
  obtain rfl := Option.some.inj he
  refine row .v _ _ _ _ ?_ rfl ?_ hw
  · have := g.code_lt; have := c.code_lt; have := ty.code_lt; simp [Fields.fits]; omega
  · simp [pVcmp, vPlain, vNoTy]
theorem vsel (g : Guard) (d : VReg) (s : VReg) (t : VReg) (u : QReg) (m : QReg) : Statement (.vsel g d s t u m) := by
  intro hw e he
  obtain rfl := Option.some.inj he
  refine row .v _ _ _ _ ?_ rfl ?_ hw
  · have := g.code_lt; simp [Fields.fits]; omega
  · simp [pVsel, vPlain, vNoTy]
theorem vmov (g : Guard) (d : VReg) (s : VReg) (m : QReg) : Statement (.vmov g d s m) := by
  intro hw e he
  obtain rfl := Option.some.inj he
  refine row .v _ _ _ _ ?_ rfl ?_ hw
  · have := g.code_lt; simp [Fields.fits]; omega
  · simp [pVV, vPlain, vNoTy]
theorem vbcast (g : Guard) (d : VReg) (s : VBSrc) (m : QReg) : Statement (.vbcast g d s m) := by
  intro hw e he
  obtain rfl := Option.some.inj he
  cases s
  all_goals
    first
    | (refine row .v _ _ _ _ ?_ rfl ?_ hw
       · have := g.code_lt; simp [Fields.fits, VBSrc.sField, VBSrc.wField, VBSrc.uField]; try omega
       · simp [pVbcast, vPlain, vNoTy, VBSrc.sField, VBSrc.wField, VBSrc.uField, VBSrc.lim, need])
theorem vperm (g : Guard) (d : VReg) (s : VReg) (t : VReg) (m : QReg) : Statement (.vperm g d s t m) := by
  intro hw e he
  obtain rfl := Option.some.inj he
  refine row .v _ _ _ _ ?_ rfl ?_ hw
  · have := g.code_lt; simp [Fields.fits]; omega
  · simp [pVVV, vPlain, vNoTy]
theorem vslide (g : Guard) (d : VReg) (s : VReg) (t : XReg) (m : QReg) : Statement (.vslide g d s t m) := by
  intro hw e he
  obtain rfl := Option.some.inj he
  refine row .v _ _ _ _ ?_ rfl ?_ hw
  · have := g.code_lt; simp [Fields.fits]; omega
  · simp [pVslide, vPlain, vNoTy]
theorem vslideDn (g : Guard) (d : VReg) (s : VReg) (t : XReg) (m : QReg) : Statement (.vslideDn g d s t m) := by
  intro hw e he
  obtain rfl := Option.some.inj he
  refine row .v _ _ _ _ ?_ rfl ?_ hw
  · have := g.code_lt; simp [Fields.fits]; omega
  · simp [pVslide, vPlain, vNoTy]
theorem vred (g : Guard) (op : RedOp) (d : VReg) (s : VReg) (m : QReg) (ty : ETy) (rm : Rm) : Statement (.vred g op d s m ty rm) := by
  intro hw e he
  obtain rfl := Option.some.inj he
  refine row .v _ _ _ _ ?_ rfl ?_ hw
  · have := g.code_lt; have := op.code_lt; have := ty.code_lt; have := rm.code_lt; simp [Fields.fits]; omega
  · simp [pVred, vPlain, vNoTy]
theorem vscan (g : Guard) (op : RedOp) (d : VReg) (s : VReg) (m : QReg) (ty : ETy) (rm : Rm) : Statement (.vscan g op d s m ty rm) := by
  intro hw e he
  obtain rfl := Option.some.inj he
  refine row .v _ _ _ _ ?_ rfl ?_ hw
  · have := g.code_lt; have := op.code_lt; have := ty.code_lt; have := rm.code_lt; simp [Fields.fits]; omega
  · simp [pVred, vPlain, vNoTy]
theorem vany (g : Guard) (d : PReg) (s : QReg) (m : QReg) : Statement (.vany g d s m) := by
  intro hw e he
  obtain rfl := Option.some.inj he
  refine row .v _ _ _ _ ?_ rfl ?_ hw
  · have := g.code_lt; simp [Fields.fits]; omega
  · simp [pVotes, vPlain, vNoTy]
theorem vall (g : Guard) (d : PReg) (s : QReg) (m : QReg) : Statement (.vall g d s m) := by
  intro hw e he
  obtain rfl := Option.some.inj he
  refine row .v _ _ _ _ ?_ rfl ?_ hw
  · have := g.code_lt; simp [Fields.fits]; omega
  · simp [pVotes, vPlain, vNoTy]
theorem vfirst (g : Guard) (d : XReg) (s : QReg) (m : QReg) : Statement (.vfirst g d s m) := by
  intro hw e he
  obtain rfl := Option.some.inj he
  refine row .v _ _ _ _ ?_ rfl ?_ hw
  · have := g.code_lt; simp [Fields.fits]; omega
  · simp [pCounts, vPlain, vNoTy]
theorem vpopc (g : Guard) (d : XReg) (s : QReg) (m : QReg) : Statement (.vpopc g d s m) := by
  intro hw e he
  obtain rfl := Option.some.inj he
  refine row .v _ _ _ _ ?_ rfl ?_ hw
  · have := g.code_lt; simp [Fields.fits]; omega
  · simp [pCounts, vPlain, vNoTy]
theorem viota (g : Guard) (d : VReg) (m : QReg) : Statement (.viota g d m) := by
  intro hw e he
  obtain rfl := Option.some.inj he
  refine row .v _ _ _ _ ?_ rfl ?_ hw
  · have := g.code_lt; simp [Fields.fits]; omega
  · simp [pViota, vPlain, vNoTy]
theorem vextr (g : Guard) (d : XReg) (s : VReg) (t : XReg) : Statement (.vextr g d s t) := by
  intro hw e he
  obtain rfl := Option.some.inj he
  refine row .v _ _ _ _ ?_ rfl ?_ hw
  · have := g.code_lt; simp [Fields.fits]; omega
  · simp [pVextr, vPlain, vNoTy]
theorem vins (g : Guard) (d : VReg) (s : XReg) (t : XReg) : Statement (.vins g d s t) := by
  intro hw e he
  obtain rfl := Option.some.inj he
  refine row .v _ _ _ _ ?_ rfl ?_ hw
  · have := g.code_lt; simp [Fields.fits]; omega
  · simp [pVins, vPlain, vNoTy]
theorem vcvt (g : Guard) (d : VReg) (s : VReg) (m : QReg) (src : ETy) (dst : ETy) (rm : Rm) (nsat : Bool) : Statement (.vcvt g d s m src dst rm nsat) := by
  intro hw e he
  obtain rfl := Option.some.inj he
  cases nsat
  all_goals
    first
    | (refine row .v _ _ _ _ ?_ rfl ?_ hw
       · have := g.code_lt; have := src.code_lt; have := dst.code_lt; have := rm.code_lt; simp [Fields.fits]; try omega
       · simp [pVcvt, vPlain, vNoTy])
theorem vqmx (g : Guard) (d : VReg) (s : VReg) (t : VReg) (ty : ETy) (rm : Rm) (nsat : Bool) : Statement (.vqmx g d s t ty rm nsat) := by
  intro hw e he
  obtain rfl := Option.some.inj he
  cases nsat
  all_goals
    first
    | (refine row .v _ _ _ _ ?_ rfl ?_ hw
       · have := g.code_lt; have := ty.code_lt; have := rm.code_lt; simp [Fields.fits]; try omega
       · simp [pVqmx, vPlain, vNoTy])
theorem vdqmx (g : Guard) (d : VReg) (s : VReg) (t : VReg) (m : QReg) (ty : ETy) (rm : Rm) : Statement (.vdqmx g d s t m ty rm) := by
  intro hw e he
  obtain rfl := Option.some.inj he
  refine row .v _ _ _ _ ?_ rfl ?_ hw
  · have := g.code_lt; have := ty.code_lt; have := rm.code_lt; simp [Fields.fits]; omega
  · simp [pVVVr, vPlain, vNoTy]
theorem vrand (g : Guard) (d : VReg) (s : VReg) (t : VReg) (m : QReg) (ty : ETy) (adv : Bool) : Statement (.vrand g d s t m ty adv) := by
  intro hw e he
  obtain rfl := Option.some.inj he
  cases adv
  all_goals
    first
    | (refine row .v _ _ _ _ ?_ rfl ?_ hw
       · have := g.code_lt; have := ty.code_lt; simp [Fields.fits]; try omega
       · simp [pVrand, vPlain, vNoTy])
theorem qand (g : Guard) (d : QReg) (s : QReg) (t : QReg) (m : QReg) : Statement (.qand g d s t m) := by
  intro hw e he
  obtain rfl := Option.some.inj he
  refine row .v _ _ _ _ ?_ rfl ?_ hw
  · have := g.code_lt; simp [Fields.fits]; omega
  · simp [pQQQ, vPlain, vNoTy]
theorem qor (g : Guard) (d : QReg) (s : QReg) (t : QReg) (m : QReg) : Statement (.qor g d s t m) := by
  intro hw e he
  obtain rfl := Option.some.inj he
  refine row .v _ _ _ _ ?_ rfl ?_ hw
  · have := g.code_lt; simp [Fields.fits]; omega
  · simp [pQQQ, vPlain, vNoTy]
theorem qxor (g : Guard) (d : QReg) (s : QReg) (t : QReg) (m : QReg) : Statement (.qxor g d s t m) := by
  intro hw e he
  obtain rfl := Option.some.inj he
  refine row .v _ _ _ _ ?_ rfl ?_ hw
  · have := g.code_lt; simp [Fields.fits]; omega
  · simp [pQQQ, vPlain, vNoTy]
theorem qnot (g : Guard) (d : QReg) (s : QReg) (m : QReg) : Statement (.qnot g d s m) := by
  intro hw e he
  obtain rfl := Option.some.inj he
  refine row .v _ _ _ _ ?_ rfl ?_ hw
  · have := g.code_lt; simp [Fields.fits]; omega
  · simp [pQQ, vPlain, vNoTy]
theorem sortb (g : Guard) (asc : Bool) (d : VReg) (s : VReg) (t : VReg) : Statement (.sortb g asc d s t) := by
  intro hw e he
  obtain rfl := Option.some.inj he
  cases asc
  all_goals
    first
    | (refine row .x _ _ _ _ ?_ rfl ?_ hw
       · have := g.code_lt; simp [Fields.fits]; try omega
       · simp [pSortb])
theorem merge (g : Guard) (asc : Bool) (d : VReg) (s : VReg) : Statement (.merge g asc d s) := by
  intro hw e he
  obtain rfl := Option.some.inj he
  cases asc
  all_goals
    first
    | (refine row .x _ _ _ _ ?_ rfl ?_ hw
       · have := g.code_lt; simp [Fields.fits]; try omega
       · simp [pMerge])
theorem cmrg (g : Guard) (s : VReg) (t : VReg) : Statement (.cmrg g s t) := by
  intro hw e he
  obtain rfl := Option.some.inj he
  refine row .x _ _ _ _ ?_ rfl ?_ hw
  · have := g.code_lt; simp [Fields.fits]; omega
  · simp [pSVV]
theorem cget (g : Guard) (idx : Bool) (d : XReg) (k : KReg) : Statement (.cget g idx d k) := by
  intro hw e he
  obtain rfl := Option.some.inj he
  cases idx
  all_goals
    first
    | (refine row .x _ _ _ _ ?_ rfl ?_ hw
       · have := g.code_lt; simp [Fields.fits]; try omega
       · simp [pCget])
theorem cclr (g : Guard) : Statement (.cclr g) := by
  intro hw e he
  obtain rfl := Option.some.inj he
  refine row .x _ _ _ _ ?_ rfl ?_ hw
  · have := g.code_lt; simp [Fields.fits]; omega
  · simp [pNone]
theorem ctopp (g : Guard) (d : XReg) (s : XReg) : Statement (.ctopp g d s) := by
  intro hw e he
  obtain rfl := Option.some.inj he
  refine row .x _ _ _ _ ?_ rfl ?_ hw
  · have := g.code_lt; simp [Fields.fits]; omega
  · simp [pXX]
theorem cdraw (g : Guard) (d : XReg) (s : XReg) : Statement (.cdraw g d s) := by
  intro hw e he
  obtain rfl := Option.some.inj he
  refine row .x _ _ _ _ ?_ rfl ?_ hw
  · have := g.code_lt; simp [Fields.fits]; omega
  · simp [pXX]
theorem fenceAcq (g : Guard) (c : Scope) : Statement (.fenceAcq g c) := by
  intro hw e he
  obtain rfl := Option.some.inj he
  cases c
  all_goals
    first
    | (refine row .q _ _ _ _ ?_ rfl ?_ hw
       · have := g.code_lt; simp [Fields.fits, Scope.code]; try omega
       · simp [pFence, need, Scope.code])
theorem fenceRel (g : Guard) (c : Scope) : Statement (.fenceRel g c) := by
  intro hw e he
  obtain rfl := Option.some.inj he
  cases c
  all_goals
    first
    | (refine row .q _ _ _ _ ?_ rfl ?_ hw
       · have := g.code_lt; simp [Fields.fits, Scope.code]; try omega
       · simp [pFence, need, Scope.code])
theorem fenceFull (g : Guard) (c : Scope) : Statement (.fenceFull g c) := by
  intro hw e he
  obtain rfl := Option.some.inj he
  cases c
  all_goals
    first
    | (refine row .q _ _ _ _ ?_ rfl ?_ hw
       · have := g.code_lt; simp [Fields.fits, Scope.code]; try omega
       · simp [pFence, need, Scope.code])
theorem drain (g : Guard) (c : Scope) : Statement (.drain g c) := by
  intro hw e he
  obtain rfl := Option.some.inj he
  cases c
  all_goals
    first
    | (refine row .q _ _ _ _ ?_ rfl ?_ hw
       · have := g.code_lt; simp [Fields.fits, Scope.code]; try omega
       · simp [pNone, Scope.code])
theorem push (g : Guard) (d : XReg) (s : AReg) (t : XReg) : Statement (.push g d s t) := by
  intro hw e he
  obtain rfl := Option.some.inj he
  refine row .q _ _ _ _ ?_ rfl ?_ hw
  · have := g.code_lt; simp [Fields.fits]; omega
  · simp [pXAX]
theorem pop (g : Guard) (d : XReg) (s : XReg) : Statement (.pop g d s) := by
  intro hw e he
  obtain rfl := Option.some.inj he
  refine row .q _ _ _ _ ?_ rfl ?_ hw
  · have := g.code_lt; simp [Fields.fits]; omega
  · simp [pXX]
theorem qstat (g : Guard) (d : XReg) (s : XReg) : Statement (.qstat g d s) := by
  intro hw e he
  obtain rfl := Option.some.inj he
  refine row .q _ _ _ _ ?_ rfl ?_ hw
  · have := g.code_lt; simp [Fields.fits]; omega
  · simp [pXX]
theorem notify (g : Guard) (s : AReg) (t : XReg) : Statement (.notify g s t) := by
  intro hw e he
  obtain rfl := Option.some.inj he
  refine row .q _ _ _ _ ?_ rfl ?_ hw
  · have := g.code_lt; simp [Fields.fits]; omega
  · simp [pSAX]
theorem launch (g : Guard) (d : XReg) (s : AReg) : Statement (.launch g d s) := by
  intro hw e he
  obtain rfl := Option.some.inj he
  refine row .q _ _ _ _ ?_ rfl ?_ hw
  · have := g.code_lt; simp [Fields.fits]; omega
  · simp [pXA]
theorem suspend (g : Guard) (s : XReg) : Statement (.suspend g s) := by
  intro hw e he
  obtain rfl := Option.some.inj he
  refine row .q _ _ _ _ ?_ rfl ?_ hw
  · have := g.code_lt; simp [Fields.fits]; omega
  · simp [pSX]
theorem exit (g : Guard) : Statement (.exit g) := by
  intro hw e he
  obtain rfl := Option.some.inj he
  refine row .q _ _ _ _ ?_ rfl ?_ hw
  · have := g.code_lt; simp [Fields.fits]; omega
  · simp [pNone]
theorem evpost (g : Guard) (s : XReg) (t : XReg) : Statement (.evpost g s t) := by
  intro hw e he
  obtain rfl := Option.some.inj he
  refine row .q _ _ _ _ ?_ rfl ?_ hw
  · have := g.code_lt; simp [Fields.fits]; omega
  · simp [pSXX]
theorem dictld (g : Guard) (d : XReg) (s : AReg) (t : XReg) : Statement (.dictld g d s t) := by
  intro hw e he
  obtain rfl := Option.some.inj he
  refine row .q _ _ _ _ ?_ rfl ?_ hw
  · have := g.code_lt; simp [Fields.fits]; omega
  · simp [pXAX]
theorem tlbinvPage (g : Guard) (s : AReg) : Statement (.tlbinvPage g s) := by
  intro hw e he
  obtain rfl := Option.some.inj he
  refine row .q _ _ _ _ ?_ rfl ?_ hw
  · have := g.code_lt; simp [Fields.fits]; omega
  · simp [pSA]
theorem tlbinvHc (g : Guard) (s : XReg) : Statement (.tlbinvHc g s) := by
  intro hw e he
  obtain rfl := Option.some.inj he
  refine row .q _ _ _ _ ?_ rfl ?_ hw
  · have := g.code_lt; simp [Fields.fits]; omega
  · simp [pSX]
theorem tlbinvAll (g : Guard) : Statement (.tlbinvAll g) := by
  intro hw e he
  obtain rfl := Option.some.inj he
  refine row .q _ _ _ _ ?_ rfl ?_ hw
  · have := g.code_lt; simp [Fields.fits]; omega
  · simp [pNone]
theorem kvlook (g : Guard) (d : XReg) (s : XReg) (t : XReg) : Statement (.kvlook g d s t) := by
  intro hw e he
  obtain rfl := Option.some.inj he
  refine row .q _ _ _ _ ?_ rfl ?_ hw
  · have := g.code_lt; simp [Fields.fits]; omega
  · simp [pXXX]
theorem kvapp (g : Guard) (d : XReg) (s : XReg) (t : XReg) : Statement (.kvapp g d s t) := by
  intro hw e he
  obtain rfl := Option.some.inj he
  refine row .q _ _ _ _ ?_ rfl ?_ hw
  · have := g.code_lt; simp [Fields.fits]; omega
  · simp [pXXX]
theorem kvfork (g : Guard) (d : XReg) (s : XReg) (t : XReg) : Statement (.kvfork g d s t) := by
  intro hw e he
  obtain rfl := Option.some.inj he
  refine row .q _ _ _ _ ?_ rfl ?_ hw
  · have := g.code_lt; simp [Fields.fits]; omega
  · simp [pXXX]
theorem kvtrunc (g : Guard) (d : XReg) (s : XReg) (t : XReg) : Statement (.kvtrunc g d s t) := by
  intro hw e he
  obtain rfl := Option.some.inj he
  refine row .q _ _ _ _ ?_ rfl ?_ hw
  · have := g.code_lt; simp [Fields.fits]; omega
  · simp [pXXX]
theorem kvfree (g : Guard) (s : XReg) (t : XReg) : Statement (.kvfree g s t) := by
  intro hw e he
  obtain rfl := Option.some.inj he
  refine row .q _ _ _ _ ?_ rfl ?_ hw
  · have := g.code_lt; simp [Fields.fits]; omega
  · simp [pSXX]
theorem pfxfind (g : Guard) (d : XReg) (s : XReg) (t : XReg) : Statement (.pfxfind g d s t) := by
  intro hw e he
  obtain rfl := Option.some.inj he
  refine row .q _ _ _ _ ?_ rfl ?_ hw
  · have := g.code_lt; simp [Fields.fits]; omega
  · simp [pXXX]
theorem pfxins (g : Guard) (d : XReg) (s : XReg) (t : XReg) : Statement (.pfxins g d s t) := by
  intro hw e he
  obtain rfl := Option.some.inj he
  refine row .q _ _ _ _ ?_ rfl ?_ hw
  · have := g.code_lt; simp [Fields.fits]; omega
  · simp [pXXX]
theorem strunc (g : Guard) (d : XReg) (s : XReg) (t : XReg) : Statement (.strunc g d s t) := by
  intro hw e he
  obtain rfl := Option.some.inj he
  refine row .q _ _ _ _ ?_ rfl ?_ hw
  · have := g.code_lt; simp [Fields.fits]; omega
  · simp [pXXX]
theorem scommit (g : Guard) (d : XReg) (s : XReg) (t : XReg) : Statement (.scommit g d s t) := by
  intro hw e he
  obtain rfl := Option.some.inj he
  refine row .q _ _ _ _ ?_ rfl ?_ hw
  · have := g.code_lt; simp [Fields.fits]; omega
  · simp [pXXX]
theorem sframe (g : Guard) (d : XReg) (s : AReg) (t : XReg) : Statement (.sframe g d s t) := by
  intro hw e he
  obtain rfl := Option.some.inj he
  refine row .q _ _ _ _ ?_ rfl ?_ hw
  · have := g.code_lt; simp [Fields.fits]; omega
  · simp [pXAX]
theorem btsnap (g : Guard) (s : AReg) (t : XReg) : Statement (.btsnap g s t) := by
  intro hw e he
  obtain rfl := Option.some.inj he
  refine row .q _ _ _ _ ?_ rfl ?_ hw
  · have := g.code_lt; simp [Fields.fits]; omega
  · simp [pSAX]
theorem obsel (g : Guard) (d : BReg) : Statement (.obsel g d) := by
  intro hw e he
  obtain rfl := Option.some.inj he
  refine row .q _ _ _ _ ?_ rfl ?_ hw
  · have := g.code_lt; simp [Fields.fits]; omega
  · simp [pB]
theorem stage (g : Guard) (s : XReg) : Statement (.stage g s) := by
  intro hw e he
  obtain rfl := Option.some.inj he
  refine row .q _ _ _ _ ?_ rfl ?_ hw
  · have := g.code_lt; simp [Fields.fits]; omega
  · simp [pSX]
theorem tokclr (g : Guard) (s : XReg) : Statement (.tokclr g s) := by
  intro hw e he
  obtain rfl := Option.some.inj he
  refine row .q _ _ _ _ ?_ rfl ?_ hw
  · have := g.code_lt; simp [Fields.fits]; omega
  · simp [pSX]
theorem bar (g : Guard) (s : XReg) : Statement (.bar g s) := by
  intro hw e he
  obtain rfl := Option.some.inj he
  refine row .q _ _ _ _ ?_ rfl ?_ hw
  · have := g.code_lt; simp [Fields.fits]; omega
  · simp [pSX]
theorem lnscfg (g : Guard) (s : XReg) (t : XReg) : Statement (.lnscfg g s t) := by
  intro hw e he
  obtain rfl := Option.some.inj he
  refine row .q _ _ _ _ ?_ rfl ?_ hw
  · have := g.code_lt; simp [Fields.fits]; omega
  · simp [pSXX]
theorem lnsrun (g : Guard) (s : XReg) : Statement (.lnsrun g s) := by
  intro hw e he
  obtain rfl := Option.some.inj he
  refine row .q _ _ _ _ ?_ rfl ?_ hw
  · have := g.code_lt; simp [Fields.fits]; omega
  · simp [pSX]
theorem lnsbrk (g : Guard) : Statement (.lnsbrk g) := by
  intro hw e he
  obtain rfl := Option.some.inj he
  refine row .q _ _ _ _ ?_ rfl ?_ hw
  · have := g.code_lt; simp [Fields.fits]; omega
  · simp [pNone]
theorem seqlen (g : Guard) (s : XReg) : Statement (.seqlen g s) := by
  intro hw e he
  obtain rfl := Option.some.inj he
  refine row .q _ _ _ _ ?_ rfl ?_ hw
  · have := g.code_lt; simp [Fields.fits]; omega
  · simp [pSX]
theorem cntrd (g : Guard) (d : XReg) (s : XReg) : Statement (.cntrd g d s) := by
  intro hw e he
  obtain rfl := Option.some.inj he
  refine row .q _ _ _ _ ?_ rfl ?_ hw
  · have := g.code_lt; simp [Fields.fits]; omega
  · simp [pXX]
theorem cntclr (g : Guard) (s : XReg) : Statement (.cntclr g s) := by
  intro hw e he
  obtain rfl := Option.some.inj he
  refine row .q _ _ _ _ ?_ rfl ?_ hw
  · have := g.code_lt; simp [Fields.fits]; omega
  · simp [pSX]
theorem resume (g : Guard) (s : XReg) : Statement (.resume g s) := by
  intro hw e he
  obtain rfl := Option.some.inj he
  refine row .q _ _ _ _ ?_ rfl ?_ hw
  · have := g.code_lt; simp [Fields.fits]; omega
  · simp [pSX]
theorem fqpop (g : Guard) (d : XReg) (s : AReg) : Statement (.fqpop g d s) := by
  intro hw e he
  obtain rfl := Option.some.inj he
  refine row .q _ _ _ _ ?_ rfl ?_ hw
  · have := g.code_lt; simp [Fields.fits]; omega
  · simp [pXA]
theorem coldReset : Statement .coldReset := by intro _ e h; cases h
theorem wakeTest (deck : Fin 4) (u : HealthUnit) (ok : Bool) : Statement (.wakeTest deck u ok) := by intro _ e h; cases h
theorem binderRun (deck : Fin 4) : Statement (.binderRun deck) := by intro _ e h; cases h
theorem partFailure (deck : Fin 4) (u : HealthUnit) : Statement (.partFailure deck u) := by intro _ e h; cases h
theorem rebind (cluster : Fin 32) (bad : Option (Fin 72)) : Statement (.rebind cluster bad) := by intro _ e h; cases h
theorem halfPowerGate (deck : Fin 4) (half : Fin 72) : Statement (.halfPowerGate deck half) := by intro _ e h; cases h
theorem selectorCycle (core : Fin 128) : Statement (.selectorCycle core) := by intro _ e h; cases h
theorem landingDataArrival (core : Fin 128) (strand : Fin 4) (n : Nat) : Statement (.landingDataArrival core strand n) := by intro _ e h; cases h
theorem engineOpStart (core : Fin 128) (strand : Fin 4) (e : Engine) (defer : Bool) : Statement (.engineOpStart core strand e defer) := by intro _ e h; cases h
theorem engineOpComplete (core : Fin 128) (strand : Fin 4) (e : Engine) : Statement (.engineOpComplete core strand e) := by intro _ e h; cases h
theorem tlbWalkComplete (n : Nat) : Statement (.tlbWalkComplete n) := by intro _ e h; cases h
theorem homeRequestRun (line : Nat) : Statement (.homeRequestRun line) := by intro _ e h; cases h
theorem bankModeChange (cluster : Fin 32) (bank : Fin 128) : Statement (.bankModeChange cluster bank) := by intro _ e h; cases h
theorem copyComplete (n : Nat) : Statement (.copyComplete n) := by intro _ e h; cases h
theorem gemvComplete (n : Nat) : Statement (.gemvComplete n) := by intro _ e h; cases h
theorem copyschedEntryStart (core : Fin 128) (strand : Fin 4) : Statement (.copyschedEntryStart core strand) := by intro _ e h; cases h
theorem mmaOperandsConsumed (n : Nat) : Statement (.mmaOperandsConsumed n) := by intro _ e h; cases h
theorem mmaComplete (n : Nat) : Statement (.mmaComplete n) := by intro _ e h; cases h
theorem pushDelivery (n : Nat) : Statement (.pushDelivery n) := by intro _ e h; cases h
theorem suspendDependenceMet (launch : Nat) : Statement (.suspendDependenceMet launch) := by intro _ e h; cases h
theorem gangResume (launch : Nat) : Statement (.gangResume launch) := by intro _ e h; cases h
theorem tailWordSignal (hc : Fin 64) (stream : Fin 4) : Statement (.tailWordSignal hc stream) := by intro _ e h; cases h
theorem notifySignal (hc : Fin 64) (stream : Fin 4) : Statement (.notifySignal hc stream) := by intro _ e h; cases h
theorem placementPass : Statement .placementPass := by intro _ e h; cases h
theorem gangStart (launch : Nat) : Statement (.gangStart launch) := by intro _ e h; cases h
theorem launchComplete (hc : Fin 64) (stream : Fin 4) : Statement (.launchComplete hc stream) := by intro _ e h; cases h
theorem faultRecordWrite (hc : Fin 64) : Statement (.faultRecordWrite hc) := by intro _ e h; cases h
theorem watchdog (launch : Nat) : Statement (.watchdog launch) := by intro _ e h; cases h
theorem uncorrectableError (hc : Fin 64) : Statement (.uncorrectableError hc) := by intro _ e h; cases h
theorem sramEccError (cluster : Fin 32) (bank : Fin 128) (granule : BitVec 12) (dbl : Bool) : Statement (.sramEccError cluster bank granule dbl) := by intro _ e h; cases h
theorem poolHeadFailover (device : Fin 16) (head : Fin 2) : Statement (.poolHeadFailover device head) := by intro _ e h; cases h
theorem bisnp (line : Nat) : Statement (.bisnp line) := by intro _ e h; cases h
theorem hostSnoop (line : Nat) (inv : Bool) : Statement (.hostSnoop line inv) := by intro _ e h; cases h
theorem hostMemWrite (pa : Nat) (bytes : List Byte) : Statement (.hostMemWrite pa bytes) := by intro _ e h; cases h
theorem dcAddEvent (device : Fin 16) (dpa : Nat) (len : Nat) : Statement (.dcAddEvent device dpa len) := by intro _ e h; cases h
theorem dcReleaseRequest (device : Fin 16) (dpa : Nat) (len : Nat) : Statement (.dcReleaseRequest device dpa len) := by intro _ e h; cases h
theorem thermalLevelEnter : Statement .thermalLevelEnter := by intro _ e h; cases h
theorem thermalLevelLeave : Statement .thermalLevelLeave := by intro _ e h; cases h
theorem clockStep (down : Bool) : Statement (.clockStep down) := by intro _ e h; cases h
theorem powerLimitExceeded : Statement .powerLimitExceeded := by intro _ e h; cases h
theorem criticalShutdown : Statement .criticalShutdown := by intro _ e h; cases h
theorem lifetimeFlush : Statement .lifetimeFlush := by intro _ e h; cases h
theorem hostRegisterWrite (off : Nat) (v : BitVec 64) : Statement (.hostRegisterWrite off v) := by intro _ e h; cases h
theorem streamModeWrite (hc : Fin 64) (stream : Fin 4) (mode : BitVec 2) : Statement (.streamModeWrite hc stream mode) := by intro _ e h; cases h
theorem controlPause (hc : Fin 64) (pause : Bool) : Statement (.controlPause hc pause) := by intro _ e h; cases h
theorem resumew (hc : Fin 64) (w : BitVec 64) : Statement (.resumew hc w) := by intro _ e h; cases h
theorem haltSoft (core : Fin 128) : Statement (.haltSoft core) := by intro _ e h; cases h
theorem haltHard (core : Fin 128) : Statement (.haltHard core) := by intro _ e h; cases h
theorem haltRelease (core : Fin 128) : Statement (.haltRelease core) := by intro _ e h; cases h
theorem hccreate : Statement .hccreate := by intro _ e h; cases h
theorem hcdestroy : Statement .hcdestroy := by intro _ e h; cases h
theorem hcrestart : Statement .hcrestart := by intro _ e h; cases h
theorem reside : Statement .reside := by intro _ e h; cases h
theorem unload : Statement .unload := by intro _ e h; cases h
theorem ptewrite : Statement .ptewrite := by intro _ e h; cases h
theorem tlbdrop : Statement .tlbdrop := by intro _ e h; cases h
theorem medreg : Statement .medreg := by intro _ e h; cases h
theorem pfxremove : Statement .pfxremove := by intro _ e h; cases h
theorem streamopen : Statement .streamopen := by intro _ e h; cases h
theorem streamclose : Statement .streamclose := by intro _ e h; cases h
theorem keyadd : Statement .keyadd := by intro _ e h; cases h
theorem clusterreset : Statement .clusterreset := by intro _ e h; cases h
theorem dcaccept : Statement .dcaccept := by intro _ e h; cases h
theorem dcrelease : Statement .dcrelease := by intro _ e h; cases h
theorem liferead : Statement .liferead := by intro _ e h; cases h
theorem oldestLaunchWait2Ms (cls : Fin 3) : Statement (.oldestLaunchWait2Ms cls) := by intro _ e h; cases h
theorem stacksTrained : Statement .stacksTrained := by intro _ e h; cases h
theorem nearMemoryEnginesTrained : Statement .nearMemoryEnginesTrained := by intro _ e h; cases h
theorem thermalCalibrationDone : Statement .thermalCalibrationDone := by intro _ e h; cases h
theorem hbmEccFailure (line : Nat) (correctable : Bool) : Statement (.hbmEccFailure line correctable) := by intro _ e h; cases h
theorem spdmRequest (index : Nat) : Statement (.spdmRequest index) := by intro _ e h; cases h
theorem orderlyShutdown : Statement .orderlyShutdown := by intro _ e h; cases h

end Sys2Proof.Laws.RoundTrip
end

