-- ==== Sys2Proof/Certificates/Slice0/Obligations.lean ====
section
/-! DEFINITION. The statements for the provers, and the words they are stated in. -/

namespace Sys2Proof.Claims

open Machine

/-! ### When a slot operation performs, and what it leaves alone -/

/-- When a slot operation performs: issue has already passed it, or none of its registers is pending, its guard holds (SEL has none), it need not wait, and no issue check stops it (R105, R117, R500). -/
def performs (i : Instr) (g : Guard) (s : State) : Prop :=
  s.ctx.admitted = true ∨
    (s.pendingWait false i = false ∧ (i.always = true ∨ s.holds g = true) ∧ s.slotWait i = false ∧ s.issueStop i = none)

/-- The state in which a slot operation has its effect: the launch's SIDE bit is set first for the forms that set it (R454). -/
def acting (i : Instr) (s : State) : State := if s.ctx.admitted then s else s.noteSide i

/-- One strand becomes u; every other strand, all the rest of the state, and every byte of memory stay. -/
structure OnlyMe (s t : State) (u : Strand) : Prop where
  mine : t.me = u
  others : ∀ k, k ≠ s.meKey → t.strand k = s.strand k
  rest : { t with strands := s.strands } = s
  bytes : ∀ a, t.mem.read a = s.mem.read a

/-- A strand after a write to an x register: x0 discards it, another register takes it and is no longer pending (R101, R117). -/
def withX (u : Strand) (d : XReg) (v : XWord) : Strand :=
  if d = 0 then u
  else { u with front := { u.front with x := u.front.x.set d.val v }, pend := { u.pend with x := u.pend.x.set d.val false } }
/-- A queued operation whose guard has waited for a predicate, after the predicate's pending write: the guard is true or false from then on (R119). -/
def guardTaken (d : PReg) (v : Bool) (o : QOp) : QOp :=
  match o.guard, o.instr.guard? with
  | none, some g => if g.p = d then { o with guard := some (v != g.neg) } else o
  | _, _ => o
/-- A strand after a write to a predicate: p0 discards it; queued guards that waited for it are resolved (R101, R119, R164). -/
def withP (u : Strand) (d : PReg) (v : Bool) : Strand :=
  if d = 0 then u
  else
    { u with
      front := { u.front with p := u.front.p.set d.val v }
      pend := { u.pend with p := u.pend.p.set d.val false }
      ops := if u.pend.p[d.val] then u.ops.map (guardTaken d v) else u.ops }
/-- A strand after a write to a b register. -/
def withB (u : Strand) (d : BReg) (v : Word32) : Strand :=
  { u with front := { u.front with b := u.front.b.set d.val v }, pend := { u.pend with b := u.pend.b.set d.val false } }
/-- A strand after a write to an a register. -/
def withA (u : Strand) (d : AReg) (v : AWord) : Strand := { u with front := { u.front with a := u.front.a.set d.val v } }
/-- A strand after flags have joined FSTAT (R8). -/
def withFlags (u : Strand) (f : Fl) : Strand := { u with front := { u.front with fstat := u.front.fstat ||| f } }

/-! ### Slot S: values (R156 to R163) -/

/-- A signed immediate as an integer (R156). -/
def signedImm : Imm → Int
  | .short i => i.toInt
  | .long l => l.toInt
/-- A natural or count immediate (R156). -/
def naturalImm : Imm → Nat
  | .short i => i.toNat
  | .long l => l.toNat

/-- The low 64 bits of an integer. -/
def low (v : Int) : XWord := BitVec.ofInt 64 v

/-- The signed quotient, truncated toward zero; 0 by zero (R157, R158). -/
def quot (s u : Int) : Int := if u = 0 then 0 else s.tdiv u
/-- The signed remainder s − u × DIV(s, u) (R157, R158). -/
def remd (s u : Int) : Int := s - u * quot s u

/-- What the 42 two-operand integer forms write, and where (R157 to R159). -/
def intResult (s : State) : Instr → Option (XReg × XWord)
  | .add _ d a b => some (d, low ((s.rdX a).toInt + (s.rdX b).toInt))
  | .addImm _ d a i => some (d, low ((s.rdX a).toInt + signedImm i))
  | .sub _ d a b => some (d, low ((s.rdX a).toInt - (s.rdX b).toInt))
  | .subImm _ d a i => some (d, low ((s.rdX a).toInt - signedImm i))
  | .mul _ d a b => some (d, low ((s.rdX a).toInt * (s.rdX b).toInt))
  | .mulImm _ d a i => some (d, low ((s.rdX a).toInt * signedImm i))
  | .mulh _ d a b => some (d, low ((s.rdX a).toInt * (s.rdX b).toInt / 2 ^ 64))
  | .mulhImm _ d a i => some (d, low ((s.rdX a).toInt * signedImm i / 2 ^ 64))
  | .mulhn _ d a b => some (d, low ((s.rdX a).toNat * (s.rdX b).toNat / 2 ^ 64 : Nat))
  | .mulhnImm _ d a i => some (d, low ((s.rdX a).toNat * naturalImm i / 2 ^ 64 : Nat))
  | .div _ d a b => some (d, low (quot (s.rdX a).toInt (s.rdX b).toInt))
  | .divImm _ d a i => some (d, low (quot (s.rdX a).toInt (signedImm i)))
  | .divn _ d a b => some (d, low ((s.rdX a).toNat / (s.rdX b).toNat : Nat))
  | .divnImm _ d a i => some (d, low ((s.rdX a).toNat / naturalImm i : Nat))
  | .rem _ d a b => some (d, low (remd (s.rdX a).toInt (s.rdX b).toInt))
  | .remImm _ d a i => some (d, low (remd (s.rdX a).toInt (signedImm i)))
  | .remn _ d a b => some (d, low ((s.rdX a).toNat % (s.rdX b).toNat : Nat))
  | .remnImm _ d a i => some (d, low ((s.rdX a).toNat % naturalImm i : Nat))
  | .and _ d a b => some (d, s.rdX a &&& s.rdX b)
  | .andImm _ d a i => some (d, s.rdX a &&& low (signedImm i))
  | .or _ d a b => some (d, s.rdX a ||| s.rdX b)
  | .orImm _ d a i => some (d, s.rdX a ||| low (signedImm i))
  | .xor _ d a b => some (d, s.rdX a ^^^ s.rdX b)
  | .xorImm _ d a i => some (d, s.rdX a ^^^ low (signedImm i))
  | .andn _ d a b => some (d, s.rdX a &&& ~~~s.rdX b)
  | .andnImm _ d a i => some (d, s.rdX a &&& ~~~low (signedImm i))
  | .shl _ d a b => some (d, low ((s.rdX a).toNat * 2 ^ ((s.rdX b).toNat % 64) : Nat))
  | .shlImm _ d a i => some (d, low ((s.rdX a).toNat * 2 ^ (naturalImm i % 64) : Nat))
  | .shr _ d a b => some (d, low ((s.rdX a).toNat / 2 ^ ((s.rdX b).toNat % 64) : Nat))
  | .shrImm _ d a i => some (d, low ((s.rdX a).toNat / 2 ^ (naturalImm i % 64) : Nat))
  | .shra _ d a b => some (d, low ((s.rdX a).toInt / 2 ^ ((s.rdX b).toNat % 64)))
  | .shraImm _ d a i => some (d, low ((s.rdX a).toInt / 2 ^ (naturalImm i % 64)))
  | .rol _ d a b => some (d, (s.rdX a <<< ((s.rdX b).toNat % 64)) ||| (s.rdX a >>> (64 - (s.rdX b).toNat % 64)))
  | .rolImm _ d a i => some (d, (s.rdX a <<< (naturalImm i % 64)) ||| (s.rdX a >>> (64 - naturalImm i % 64)))
  | .min _ d a b => some (d, low (min (s.rdX a).toInt (s.rdX b).toInt))
  | .minImm _ d a i => some (d, low (min (s.rdX a).toInt (signedImm i)))
  | .max _ d a b => some (d, low (max (s.rdX a).toInt (s.rdX b).toInt))
  | .maxImm _ d a i => some (d, low (max (s.rdX a).toInt (signedImm i)))
  | .minn _ d a b => some (d, low (min (s.rdX a).toNat (s.rdX b).toNat : Nat))
  | .minnImm _ d a i => some (d, low (min (s.rdX a).toNat (naturalImm i) : Nat))
  | .maxn _ d a b => some (d, low (max (s.rdX a).toNat (s.rdX b).toNat : Nat))
  | .maxnImm _ d a i => some (d, low (max (s.rdX a).toNat (naturalImm i) : Nat))
  | _ => none

/-- The bits of a word from bit p up, n of them, as a natural number. -/
def field (w : XWord) (p n : Nat) : Nat := w.toNat / 2 ^ p % 2 ^ n
/-- An n-bit field read as a two's-complement integer. -/
def signedField (v n : Nat) : Int := if n = 0 then 0 else if 2 ^ (n - 1) ≤ v then (v : Int) - 2 ^ n else v
/-- pos and the clipped length of a field word (R161). -/
def fieldAt (t : XWord) : Nat × Nat := (field t 0 6, min (field t 8 7) (64 - field t 0 6))
/-- Word d with the low n bits of s in place of its bits from p up. -/
def putField (d s : XWord) (p n : Nat) : XWord :=
  BitVec.ofFnLE (fun i : Fin 64 => if p ≤ i.val ∧ i.val < p + n then s.getLsbD (i.val - p) else d.getLsbD i.val)

/-- What GETS reads of each special register (R34, R151, R178). -/
def special (s : State) : SReg → XWord
  | .core => low s.ctx.core
  | .strand => low s.ctx.strand
  | .gang => low s.me.gang.toNat
  | .member => low s.me.member
  | .width => low (s.width s.ctx.core)
  | .hcid => low s.me.hc
  | .fstat => low s.front.fstat.toNat
  | .fmode => low s.front.fmode.toNat
  | .seqlen => low s.front.seqlen.toNat
  | .occ => low s.front.occ.toNat
  | .draft => low s.front.draft.toNat
  | .scnt => low s.front.scnt.toNat
  | .cycle => (s.core s.ctx.core).cycle
  | .segsig => low s.me.segsig.toNat
  | .bindsel => low s.front.bindsel.toNat
  | .bindent =>
      let e := s.bindEnt s.front.bindsel.toNat
      0#16 ++ e.bgen ++ e.wcode ++ e.role ++ e.driver ++ BitVec.ofBool e.repaired ++ e.halfhi ++ e.halflo ++ 0#14

/-- What the unary, field, select, immediate and register-read forms of slot S write to xD (R160 to R163, R167, R177, R178). -/
def moveResult (s : State) : Instr → Option (XReg × XWord)
  | .clz _ d a => some (d, low ((List.range 64).countP (fun n => decide ((s.rdX a).toNat < 2 ^ n)) : Nat))
  | .ctz _ d a => some (d, low ((List.range 64).countP (fun n => decide ((s.rdX a).toNat % 2 ^ (n + 1) = 0)) : Nat))
  | .popc _ d a => some (d, low ((List.range 64).countP (fun n => (s.rdX a).getLsbD n) : Nat))
  | .abs _ d a => some (d, low (s.rdX a).toInt.natAbs)
  | .sext _ d a n => some (d, low (signedField (field (s.rdX a) 0 (n.toNat + 1)) (n.toNat + 1)))
  | .zext _ d a n => some (d, low (field (s.rdX a) 0 (n.toNat + 1) : Nat))
  | .bfx _ d a b => some (d, low (signedField (field (s.rdX a) (fieldAt (s.rdX b)).1 (fieldAt (s.rdX b)).2) (fieldAt (s.rdX b)).2))
  | .bfxN _ d a b => some (d, low (field (s.rdX a) (fieldAt (s.rdX b)).1 (fieldAt (s.rdX b)).2 : Nat))
  | .bfi _ d a b => some (d, putField (s.rdX d) (s.rdX a) (fieldAt (s.rdX b)).1 (fieldAt (s.rdX b)).2)
  | .sel g d a b => some (d, if s.holds g then s.rdX a else s.rdX b)
  | .li _ d i => some (d, low (signedImm i))
  | .aget _ d a => some (d, (s.rdA a).setWidth 64)
  | .gets _ d r => some (d, special s r)
  | .pget _ d => some (d, BitVec.ofFnLE (fun n : Fin 64 => decide (n.val < 16) && s.rdP (Fin.ofNat 16 n.val)))
  | _ => none

/-! ### Slot S: floating point, predicates, targets, address registers -/

/-- The rounding FMODE selects (R129, R153). -/
def fmode (s : State) : Mode := Mode.ofBits s.front.fmode
/-- The fp32 value in the low half of an x register (R168). -/
def fval (s : State) (r : XReg) : XVal := fp32.decode (field (s.rdX r) 0 32)

/-- The exact results of the arithmetic and conversions to fp32, each with the flags that the exact operation raises (R169, R170). -/
def floatExact (s : State) : Instr → Option (XReg × XVal × Fl)
  | .fadd _ d a b => some (d, XVal.add (fmode s) (fval s a) (fval s b))
  | .fsub _ d a b => some (d, XVal.add (fmode s) (fval s a) (fval s b).neg)
  | .fmul _ d a b => some (d, (fval s a).mul (fval s b))
  | .ffma _ d a b => some (d, XVal.fma (fmode s) (fval s d) (fval s a) (fval s b))
  | .cvtf _ d a => some (d, XVal.ofInt (s.rdX a).toInt, 0)
  | .cvtfN _ d a => some (d, XVal.ofInt (s.rdX a).toNat, 0)
  | _ => none

/-- What every floating form writes to xD and the flags it reports (R168 to R170). -/
def floatResult (s : State) (i : Instr) : Option (XReg × XWord × Fl) :=
  match i with
  | .fmin _ d a b => some (d, low (fp32.minBits (field (s.rdX a) 0 32) (field (s.rdX b) 0 32)), 0)
  | .fmax _ d a b => some (d, low (fp32.maxBits (field (s.rdX a) 0 32) (field (s.rdX b) 0 32)), 0)
  | .cvti _ d a => let r := (fval s a).toInt (fmode s) (-(2 ^ 63)) (2 ^ 63 - 1); some (d, low r.1, r.2)
  | .cvtiN _ d a => let r := (fval s a).toInt (fmode s) 0 (2 ^ 64 - 1); some (d, low r.1, r.2)
  | _ => (floatExact s i).map (fun e => (e.1, low (fp32.round (fmode s) e.2.1).1, e.2.2 ||| (fp32.round (fmode s) e.2.1).2))

/-- A condition between two 64-bit words (R107, R164). -/
def condHolds (c : Cond) (x y : XWord) : Bool :=
  match c with
  | .eq => decide (x = y)
  | .ne => decide (x ≠ y)
  | .lt => x.slt y
  | .le => x.sle y
  | .gt => y.slt x
  | .ge => y.sle x
  | .ltn => x.ult y
  | .len => x.ule y
  | .gtn => y.ult x
  | .gen => y.ule x

/-- Whether a condition code is one of the natural ones, 6 to 9 (R107). -/
def naturalCond : Cond → Bool
  | .ltn | .len | .gtn | .gen => true
  | _ => false

/-- What the compares and the predicate logic write to pD (R164 to R166). -/
def predResult (s : State) : Instr → Option (PReg × Bool)
  | .cmp _ c d a b => some (d, condHolds c (s.rdX a) (s.rdX b))
  | .cmpImm _ c d a i =>
      some (d, condHolds c (s.rdX a) (if naturalCond c then low (naturalImm i : Nat) else low (signedImm i)))
  | .fcmp _ c d a b => some (d, XVal.test c (fval s a) (fval s b))
  | .pand _ d a b => some (d, s.rdP a && s.rdP b)
  | .por _ d a b => some (d, s.rdP a || s.rdP b)
  | .pxor _ d a b => some (d, Bool.xor (s.rdP a) (s.rdP b))
  | .pandn _ d a b => some (d, s.rdP a && !s.rdP b)
  | _ => none

/-- The strand after the forms that write a b register, an a register, the predicates or a special register (R167, R171, R177, R179). -/
def otherResult (s : State) : Instr → Option Strand
  | .ptb _ d i => some (withB s.me d (BitVec.ofNat 32 (naturalImm i)))
  | .ptbx _ d a => some (withB s.me d (BitVec.ofNat 32 (field (s.rdX a) 0 32)))
  | .aadd _ d a b => some (withA s.me d (BitVec.ofInt 72 ((s.rdA a).toNat + (s.rdX b).toInt)))
  | .aaddImm _ d a i => some (withA s.me d (BitVec.ofInt 72 ((s.rdA a).toNat + signedImm i)))
  | .aset _ d a => some (withA s.me d (BitVec.ofInt 72 (s.rdX a).toInt))
  | .alea _ d a b => some (withA s.me d (BitVec.ofNat 72 (field (s.rdX b) 0 8 * 2 ^ 64 + (s.rdA a).toNat % 2 ^ 64)))
  | .pset _ a => some { s.me with front := { s.me.front with
      p := Vector.ofFn (fun n : Fin 16 => if n = 0 then true else (s.rdX a).getLsbD n.val) } }
  | .puts _ a .fstat => some { s.me with front := { s.me.front with fstat := BitVec.ofNat 5 (s.rdX a).toNat } }
  | .puts _ a .fmode => some { s.me with front := { s.me.front with fmode := BitVec.ofNat 2 (s.rdX a).toNat } }
  | .puts _ a .bindsel => some { s.me with front := { s.me.front with bindsel := BitVec.ofNat 7 (s.rdX a).toNat } }
  | _ => none

/-- n steps in sequence through an index stream: past one halfword, or past a literal's 25 (R77). -/
def stepsOn (idx : List (BitVec 16)) : Nat → Word32 → Word32
  | 0, pc => pc
  | n + 1, pc => stepsOn idx n (pc + if idx[pc.toNat]? = some 0xFFFF then 25 else 1)

/-- A strand after a taken branch: the redirect queue ends with its target, due after three more bundles (R172). -/
def branched (u : Strand) (target : Word32) : Strand := { u with redirects := u.redirects ++ [⟨u.count + 3, target⟩] }

/-- The strand after a taken branch, and after its link (R172, R173). -/
def branchResult (s : State) : Instr → Option Strand
  | .br _ b => some (branched s.me (s.rdB b))
  | .brl _ d b => some (withX (branched s.me (s.rdB b)) d (low (stepsOn s.stream 4 s.me.pc).toNat))
  | _ => none

/-! ### Slots V and X: registers of lanes (R180 to R203, R224 to R232) -/

/-- A strand after the lanes below n that a mask holds active have been written in a v register; the other lanes keep their value (R185). -/
def withV (u : Strand) (n : Nat) (d : VReg) (m : LaneMask) (f : Nat → Word32) : Strand :=
  let old := u.eng.v[d.val]
  let new := Vector.ofFn (fun l : Fin 512 => if l.val < n ∧ m.getLsbD l.val = true then f l.val else old[l])
  { u with eng := { u.eng with v := u.eng.v.set d.val new } }
/-- A strand after the bits below n that a mask holds active have been written in a q register; q0 discards them (R181, R185). -/
def withQ (u : Strand) (n : Nat) (d : QReg) (m : LaneMask) (f : Nat → Bool) : Strand :=
  if d = 0 then u
  else
    let old := u.eng.q[d.val]
    let new := BitVec.ofFnLE (fun l : Fin 512 => if l.val < n ∧ m.getLsbD l.val = true then f l.val else old.getLsbD l)
    { u with eng := { u.eng with q := u.eng.q.set d.val new } }

/-- The effective rounding of a V form: its own, or FMODE's (R129). -/
def rounding (s : State) (rm : Rm) : Mode := rm.eff s.front.fmode
/-- The element of a type in lane l of a register (R183). -/
def elemOf (s : State) (ty : ETy) (r : VReg) (l : Nat) : Nat := ((s.rdV r).toList.getD l 0).toNat % 2 ^ ty.bits
/-- Lane l of a register as a 32-bit word. -/
def wordOf (s : State) (r : VReg) (l : Nat) : Word32 := (s.rdV r).toList.getD l 0
/-- An element laid in its lane: sign-extended or zero-extended by its type (R183). -/
def laid (ty : ETy) (code : Nat) : Word32 :=
  if ty.signed then BitVec.ofInt 32 (signedField (code % 2 ^ ty.bits) ty.bits) else BitVec.ofNat 32 (code % 2 ^ ty.bits)
/-- An element result laid in its lane, beside its flags. -/
def laidF (ty : ETy) (r : Nat × Fl) : Word32 × Fl := (laid ty r.1, r.2)

/-- The integer an element code stands for (R183, R187). -/
def intOf (ty : ETy) (code : Nat) : Int := if ty.signed then signedField (code % 2 ^ ty.bits) ty.bits else code
/-- An integer modulo 2^w as an element code (R186). -/
def wrapTo (ty : ETy) (v : Int) : Nat := (v % 2 ^ ty.bits).toNat

/-- An arithmetic form on two or three elements: exact in the integers modulo 2^w, or one rounding of the exact real result (R186, R187). -/
def arithElem (ty : ETy) (mode : Mode) (fi : Int) (ff : XVal × Fl) : Nat × Fl :=
  match ty.ffmt with
  | none => (wrapTo ty fi, 0)
  | some F => ((F.round mode ff.1).1, ff.2 ||| (F.round mode ff.1).2)

/-- The real value of a floating element; of an integer type no use is made of it. -/
def realOf (ty : ETy) (code : Nat) : XVal := match ty.ffmt with
  | none => .nan
  | some F => F.decode code

/-- The shift counts of the lanes (R191). -/
def countOf (s : State) (t : VCount) (l : Nat) : Nat :=
  match t with
  | .reg t => (wordOf s t l).toNat % 64
  | .imm u => u.toNat

/-- The lanewise forms: destination, governing mask, and what each active lane receives and reports (R185 to R194, R198, R199, R201). -/
def laneResult (s : State) : Instr → Option (VReg × QReg × (Nat → Word32 × Fl))
  | .vadd _ d a b m ty rm => some (d, m, fun l =>
      let x := elemOf s ty a l; let y := elemOf s ty b l
      laidF ty (arithElem ty (rounding s rm) (intOf ty x + intOf ty y) (XVal.add (rounding s rm) (realOf ty x) (realOf ty y))))
  | .vsub _ d a b m ty rm => some (d, m, fun l =>
      let x := elemOf s ty a l; let y := elemOf s ty b l
      laidF ty (arithElem ty (rounding s rm) (intOf ty x - intOf ty y) (XVal.add (rounding s rm) (realOf ty x) (realOf ty y).neg)))
  | .vmul _ d a b m ty rm => some (d, m, fun l =>
      let x := elemOf s ty a l; let y := elemOf s ty b l
      laidF ty (arithElem ty (rounding s rm) (intOf ty x * intOf ty y) ((realOf ty x).mul (realOf ty y))))
  | .vfma _ d a b u m ty rm => some (d, m, fun l =>
      let x := elemOf s ty a l; let y := elemOf s ty b l; let z := elemOf s ty u l
      laidF ty (arithElem ty (rounding s rm) (intOf ty z + intOf ty x * intOf ty y)
        (XVal.fma (rounding s rm) (realOf ty z) (realOf ty x) (realOf ty y))))
  | .vmin _ d a b m ty => some (d, m, fun l => (laid ty (elemMin ty (elemOf s ty a l) (elemOf s ty b l)), 0))
  | .vmax _ d a b m ty => some (d, m, fun l => (laid ty (elemMax ty (elemOf s ty a l) (elemOf s ty b l)), 0))
  | .vabs _ d a m ty => some (d, m, fun l => (laid ty (elemAbs ty (elemOf s ty a l)), 0))
  | .vneg _ d a m ty => some (d, m, fun l => (laid ty (elemNeg ty (elemOf s ty a l)), 0))
  | .vclamp _ d a b u m ty => some (d, m, fun l =>
      (laid ty (elemMin ty (elemMax ty (elemOf s ty a l) (elemOf s ty b l)) (elemOf s ty u l)), 0))
  | .vrcp _ d a m => some (d, m, fun l => rcpLane (wordOf s a l))
  | .vrsq _ d a m => some (d, m, fun l => rsqLane (wordOf s a l))
  | .vexp2 _ d a m => some (d, m, fun l => exp2Lane (wordOf s a l))
  | .vlog2 _ d a m => some (d, m, fun l => log2Lane (wordOf s a l))
  | .vand _ d a b m => some (d, m, fun l => (wordOf s a l &&& wordOf s b l, 0))
  | .vor _ d a b m => some (d, m, fun l => (wordOf s a l ||| wordOf s b l, 0))
  | .vxor _ d a b m => some (d, m, fun l => (wordOf s a l ^^^ wordOf s b l, 0))
  | .vshl _ d a t m => some (d, m, fun l => (BitVec.ofNat 32 ((wordOf s a l).toNat * 2 ^ countOf s t l), 0))
  | .vshr _ d a t m => some (d, m, fun l => (BitVec.ofNat 32 ((wordOf s a l).toNat / 2 ^ countOf s t l), 0))
  | .vshra _ d a t m => some (d, m, fun l => (BitVec.ofInt 32 ((wordOf s a l).toInt / 2 ^ countOf s t l), 0))
  | .vsel _ d a b u m => some (d, m, fun l => (if (s.rdQ u).getLsbD l then wordOf s a l else wordOf s b l, 0))
  | .vmov _ d a m => some (d, m, fun l => (wordOf s a l, 0))
  | .vbcast _ d (.reg x) m => some (d, m, fun _ => (BitVec.ofNat 32 (s.rdX x).toNat, 0))
  | .vbcast _ d (.imm u) m => some (d, m, fun _ => (BitVec.ofInt 32 u.toInt, 0))
  | .vbcast _ d (.long w) m => some (d, m, fun _ => (w, 0))
  | .vperm _ d a b m => some (d, m, fun l =>
      (if (wordOf s b l).toNat < s.lanes then wordOf s a (wordOf s b l).toNat else 0, 0))
  | .vslide _ d a t m => some (d, m, fun l => (if (s.rdX t).toNat ≤ l then wordOf s a (l - (s.rdX t).toNat) else 0, 0))
  | .vslideDn _ d a t m => some (d, m, fun l => (if l + (s.rdX t).toNat < s.lanes then wordOf s a (l + (s.rdX t).toNat) else 0, 0))
  | .viota _ d m => some (d, m, fun l => (BitVec.ofNat 32 l, 0))
  | .vcvt _ d a m src dst rm nsat => some (d, m, fun l => laidF dst (cvtElem src dst (rounding s rm) nsat (elemOf s src a l)))
  | .vdqmx _ d a t m ty rm => some (d, m, fun l =>
      let r := fp32.round (rounding s rm) (mxScaled ((wordOf s t l).toNat % 256) (mxValue ty (elemOf s ty a l)))
      (BitVec.ofNat 32 r.1, r.2))
  | _ => none

/-- The flags of the active lanes, ORed together (R185, R186). -/
def activeFlags (n : Nat) (m : LaneMask) (f : Nat → Word32 × Fl) : Fl :=
  (List.range n).foldl (fun a l => if m.getLsbD l then a ||| (f l).2 else a) 0

/-- The fixed pairwise tree of VRED: one level, the parents of neighbouring nodes, a lone child passed on (R195). -/
def redLevel (op : RedOp) (ty : ETy) (mode : Mode) : List (Option Nat) → List (Option Nat × Fl)
  | some a :: some b :: ns => (some (combine op ty mode a b).1, (combine op ty mode a b).2) :: redLevel op ty mode ns
  | some a :: none :: ns => (some a, 0) :: redLevel op ty mode ns
  | none :: b :: ns => (b, 0) :: redLevel op ty mode ns
  | ns => ns.map (fun n => (n, 0))

/-- The levels of VRED: its last node, and the flags of every node (R195). -/
def redTree (op : RedOp) (ty : ETy) (mode : Mode) : Nat → List (Option Nat) → Option Nat × Fl
  | 0, ns => (ns.headD none, 0)
  | k + 1, ns =>
      let up := redLevel op ty mode ns
      let r := redTree op ty mode k (up.map (·.1))
      (r.1, up.foldr (fun e f => e.2 ||| f) 0 ||| r.2)

/-- The element of lane l, or nothing where the lane is inactive (R195). -/
def nodeOf (s : State) (ty : ETy) (a : VReg) (m : QReg) (l : Nat) : Option Nat :=
  if (s.rdQ m).getLsbD l then some (elemOf s ty a l) else none

/-- A NaN element becomes its type's canonical NaN; every other stays (R126). -/
def clean (ty : ETy) (code : Nat) : Nat :=
  match ty.ffmt with
  | none => code
  | some F => if (F.decode code).isNan then F.nanBits.1 else code

/-- The forms that write mask bits (R192, R203). -/
def maskResult (s : State) : Instr → Option (QReg × QReg × (Nat → Bool))
  | .vcmp _ c d a b m ty => some (d, m, fun l => elemCmp c ty (elemOf s ty a l) (elemOf s ty b l))
  | .qand _ d a b m => some (d, m, fun l => (s.rdQ a).getLsbD l && (s.rdQ b).getLsbD l)
  | .qor _ d a b m => some (d, m, fun l => (s.rdQ a).getLsbD l || (s.rdQ b).getLsbD l)
  | .qxor _ d a b m => some (d, m, fun l => Bool.xor ((s.rdQ a).getLsbD l) ((s.rdQ b).getLsbD l))
  | .qnot _ d a m => some (d, m, fun l => !(s.rdQ a).getLsbD l)
  | _ => none

/-- Whether lane l votes: its bit is set in qS and in the governing mask (R185, R197). -/
def voted (s : State) (a m : QReg) (l : Nat) : Bool := (s.rdQ a).getLsbD l && (s.rdQ m).getLsbD l

/-- The votes, the extractions and the reads of the candidate file (R197, R198, R229, R231, R232). -/
def voteResult (s : State) : Instr → Option Strand
  | .vany _ d a m => some (withP s.me d ((List.range s.lanes).any (voted s a m)))
  | .vall _ d a m => some (withP s.me d ((List.range s.lanes).all (fun l => !(s.rdQ m).getLsbD l || (s.rdQ a).getLsbD l)))
  | .vfirst _ d a m => some (withX s.me d (low (((List.range s.lanes).find? (voted s a m)).getD s.lanes : Nat)))
  | .vpopc _ d a m => some (withX s.me d (low ((List.range s.lanes).countP (voted s a m) : Nat)))
  | .vextr _ d a t => some (withX s.me d
      (if (s.rdX t).toNat < s.lanes then low (wordOf s a (s.rdX t).toNat).toNat else 0))
  | .vins _ d a t => some (if (s.rdX t).toNat < s.lanes
      then withV s.me s.lanes d (BitVec.twoPow 512 (s.rdX t).toNat) (fun _ => BitVec.ofNat 32 (s.rdX a).toNat) else s.me)
  | .cget _ idx d k => some (withX s.me d (low (if idx then (s.rdK k).idx.toNat else (s.rdK k).val.toNat)))
  | .cclr _ => some { s.me with eng := { s.me.eng with k := Vector.replicate 64 ⟨0xFF800000, 0xFFFFFFFF⟩, qcnt := 0 } }
  | .ctopp _ d a => some (withX s.me d (low (topP ((s.eng.k.toList.take s.eng.qcnt).map (fun e => weightOf e.val))
      (BitVec.ofNat 32 (s.rdX a).toNat))))
  | .cdraw _ d a =>
      let lim := field (s.rdX a) 32 7
      let n := min s.eng.qcnt (if lim = 0 ∨ 64 < lim then 64 else lim)
      let es := s.eng.k.toList.take n
      let j := drawAt (es.map (fun e => weightOf e.val)) (BitVec.ofNat 32 (s.rdX a).toNat)
      some (withX s.me d (if n = 0 then 0x40FFFFFFFF else low (j * 2 ^ 32 + (match es[j]? with | some e => e.idx.toNat | none => 0) : Nat)))
  | _ => none

/-- One step of VSCAN's running combination: an inactive lane leaves it, the first active one starts it (R196). -/
def scanStep (op : RedOp) (ty : ETy) (mode : Mode) (acc : Option Nat × Fl) (e : Option Nat) : Option Nat × Fl :=
  match acc.1, e with
  | _, none => acc
  | none, some x => (some x, acc.2)
  | some a, some x => (some (combine op ty mode a x).1, acc.2 ||| (combine op ty mode a x).2)
/-- The running combination over the lanes below n (R196). -/
def scanTo (s : State) (op : RedOp) (ty : ETy) (mode : Mode) (a : VReg) (m : QReg) (n : Nat) : Option Nat × Fl :=
  (List.range n).foldl (fun acc l => scanStep op ty mode acc (nodeOf s ty a m l)) (none, 0)

/-- One MX block of a register's lanes: 32 elements, a scale, flags (R128, R200). -/
def mxOf (s : State) (ty : ETy) (mode : Mode) (nsat : Bool) (a : VReg) (b : Nat) : List Nat × Nat × Fl :=
  mxBlock ty mode nsat ((List.range 32).map (fun i => fp32.decode (wordOf s a (32 * b + i)).toNat))

/-- The 64-bit value of lane l of a register pair (R202). -/
def pairOf (s : State) (r : VReg) (l : Nat) : BitVec 64 := low ((wordOf s (State.nextV r) l).toNat * 2 ^ 32 + (wordOf s r l).toNat : Nat)
/-- The output of a lane's generator (R146). -/
def drawn (c k : BitVec 64) : Word32 :=
  let z := c ^^^ k
  let z := (z ^^^ (z >>> 31)) * 0x9E6D5A3BC4F12E97#64
  let z := (z ^^^ (z >>> 29)) * 0xD1B54A327C8E6F05#64
  let z := z ^^^ (z >>> 32)
  BitVec.ofNat 32 z.toNat
/-- What a lane of VRAND receives: natural int32, or fp32 as out[31:8] × 2^−24 (R147). -/
def drawnAs (ty : ETy) (o : Word32) : Word32 :=
  if ty = .f32 then BitVec.ofNat 32 (fp32.round .rne ((XVal.ofInt (o.toNat / 256 : Nat)).scale (-24))).1 else o

/-- The reductions, the scans, the block forms and the generator (R195, R196, R200, R202). -/
def wholeResult (s : State) : Instr → Option Strand
  | .vred _ op d a m ty rm =>
      let r := redTree op ty (rounding s rm) s.lanes.log2 ((List.range (min 512 s.lanes)).map (nodeOf s ty a m))
      some (withFlags (withV s.me s.lanes d (s.rdQ m) (fun _ => laid ty (clean ty (r.1.getD (redIdentity op ty))))) r.2)
  | .vscan _ op d a m ty rm =>
      some (withFlags (withV s.me s.lanes d (s.rdQ m)
        (fun l => laid ty (clean ty ((scanTo s op ty (rounding s rm) a m (l + 1)).1.getD 0))))
        (scanTo s op ty (rounding s rm) a m (min 512 s.lanes)).2)
  | .vqmx _ d a t ty rm nsat =>
      let block := mxOf s ty (rounding s rm) nsat a
      some (withFlags (withV (withV s.me s.lanes d (BitVec.allOnes 512) (fun l => laid ty ((block (l / 32)).1.getD (l % 32) 0)))
        s.lanes t (BitVec.allOnes 512) (fun l => BitVec.ofNat 32 (block (l / 32)).2.1))
        ((List.range (s.lanes / 32)).foldl (fun f b => f ||| (block b).2.2) 0))
  | .vrand _ d a t m ty adv =>
      let out := withV s.me s.lanes d (s.rdQ m) (fun l => drawnAs ty (drawn (pairOf s a l) (pairOf s t l)))
      let next (l : Nat) : BitVec 64 := pairOf s a l + 1
      some (if adv then
        withV (withV out s.lanes a (s.rdQ m) (fun l => BitVec.ofNat 32 (next l).toNat))
          s.lanes (State.nextV a) (s.rdQ m) (fun l => BitVec.ofNat 32 ((next l).toNat / 2 ^ 32))
        else out)
  | _ => none

/-- A strand after sorted entries have been written to a register pair, values then indices (R225, R226). -/
def withPair (u : Strand) (n : Nat) (d : VReg) (es : List Cand) : Strand :=
  withV (withV u n d (BitVec.allOnes 512) (fun l => ((es[l]?).map (·.val)).getD 0))
    n (State.nextV d) (BitVec.allOnes 512) (fun l => ((es[l]?).map (·.idx)).getD 0)

/-- Entries in order: no entry precedes the one before it (R224). -/
def inOrder (asc : Bool) (es : List Cand) : Prop := ∀ i a b, es[i]? = some a → es[i + 1]? = some b → b.precedes asc a = false

/-- The entry a lane of a register pair makes, with its rank (R225). -/
def candOf (s : State) (v i : VReg) (first l : Nat) : Cand := ⟨wordOf s v l, wordOf s i l, first + l⟩
/-- The entries of a register pair's lanes (R225, R226). -/
def candsOf (s : State) (v i : VReg) (first : Nat) : List Cand := (List.range (min 512 s.lanes)).map (candOf s v i first)

/-- A strand after CMRG: the first 64 of the merged entries, the rest of the file empty (R227, R228). -/
def withFile (u : Strand) (es : List Cand) : Strand :=
  { u with eng := { u.eng with
      k := Vector.ofFn (fun i : Fin 64 => match es[i.val]? with | some c => ⟨c.val, c.idx⟩ | none => ⟨0xFF800000, 0xFFFFFFFF⟩)
      qcnt := min 64 es.length } }

/-! ### Slot A: extents, landings, stores (R234 to R281) -/

/-- Only bytes of bank space change, with their poison, and with their full-empty bits when `fe` says so (R245). -/
structure OnlyBytes (s t : State) (addr : Nat) (bs : List Byte) (fe : Option Bool) : Prop where
  bytes : ∀ a, t.mem.read a = if addr ≤ a ∧ a < addr + bs.length then bs.getD (a - addr) 0 else s.mem.read a
  full : ∀ n, t.full.mem n = if addr / 16 ≤ n ∧ 16 * n < addr + bs.length then fe.getD (s.full.mem n) else s.full.mem n
  poison : ∀ n, t.poison.mem n = (s.poison.mem n && !decide (addr ≤ 16 * n ∧ 16 * n + 16 ≤ addr + bs.length))
  rest : { t with mem := s.mem, full := s.full, poison := s.poison } = s

/-- Whether a write to bank space by the operation being performed reaches its place at once: it stays in the core's banks, or no protected segment withholds it and no earlier write of the strand is withheld (R448). -/
def atOnce (s : State) (addr : Nat) : Prop := s.ownBank addr = true ∨ (s.withholds = false ∧ s.me.withheld = [])
/-- A store that reaches its place: only its bytes change, and every strand stays as it was. -/
structure Stored (s t : State) (addr : Nat) (bs : List Byte) (fe : Option Bool) : Prop where
  strands : ∀ k, t.strand k = s.strand k
  bytes : OnlyBytes s { t with strands := s.strands } addr bs fe

/-- Only the full-empty bits of an extent's granules change (R267, R270). -/
structure OnlyFull (s t : State) (addr n : Nat) (b : Bool) : Prop where
  full : ∀ k, t.full.mem k = if n ≠ 0 ∧ addr / 16 ≤ k ∧ 16 * k < addr + n then b else s.full.mem k
  rest : { t with full := s.full } = s

/-- Nothing stands between a strand and the home of its lines: no copy of a line in its cluster or pinned, no request or answer waiting, no line busy or poisoned, none held by the host-line agent. -/
def quiet (s : State) : Prop :=
  s.me.held = [] ∧ (s.cluster (State.clusterOf s.ctx.core)).lines = [] ∧ s.cacheBanks (State.clusterOf s.ctx.core) = [] ∧
    s.agent = [] ∧ s.busyLines = [] ∧ s.home = [] ∧ s.replies = [] ∧ s.linePoison = []

/-- The bytes an extent shows a strand: bank bytes without poison, bytes of its accumulator window, or HBM bytes through one leaf of its cluster's TLB (R234 to R237, R263, R374). -/
def shows (s : State) (va n : Nat) (bs : List Byte) : Prop :=
  s.me.withheld = [] ∧ bs.length = n ∧
    match spotOf s.ctx.core va with
    | .scr addr => s.anyPoison addr n = false ∧ ∀ i, i < n → bs[i]? = some (s.mem.read (addr + i))
    | .acc o => ∀ i, i < n → bs[i]? = some (s.mem.read (State.accByte s.ctx.core s.me.tb s.g (o + i)))
    | .trans => quiet s ∧ va % 65536 + n ≤ 65536 ∧ ∃ e, s.tlbHit (State.clusterOf s.ctx.core) s.hcid va = some e ∧
        State.leafPa e va + n ≤ Config.hbmBytes ∧ ∀ i, i < n → bs[i]? = some (s.mem.read (State.leafPa e va + i))
    | _ => False

/-- The strand after the landing of the operation being performed has received its value: the landing taken at issue, or one of its own, with its latency class (R54 to R56, R501). -/
def landedAs (s : State) (dest : Dest) (dist cls : Nat) (v : Datum) : Strand :=
  let t := s.me
  if t.landings.any (fun l => l.num == s.ctx.num) then
    { t with landings := t.landings.map (fun l => if l.num = s.ctx.num then { l with data := some v, cls := cls } else l) }
  else { t with landings := t.landings ++ [⟨s.ctx.num, dest, t.count + dist, dist, some v, true, false, cls, false⟩] }
/-- The same for an access to some extents, each an address and a number of bytes (R501). -/
def landed (s : State) (dest : Dest) (dist : Nat) (from_ : List (Nat × Nat)) (v : Datum) : Strand :=
  landedAs s dest dist (s.landClass from_) v

/-- The 32-bit words of bytes in the lanes from lane 0 up (R1, R266). -/
def wordsIn (bs : List Byte) : Lanes := Vector.ofFn (fun l : Fin 512 => BitVec.ofNat 32 (leNat ((bs.drop (4 * l.val)).take 4)))

/-- The plain loads: where they land, how far off, from where, how many bytes, and what value (R264, R266). -/
def loadForm (s : State) : Instr → Option (Dest × Nat × Nat × Nat × (List Byte → Datum))
  | .ld _ z d a l => some (.x d, l.dist, s.ea a l.off, z.bytes, fun bs => .x (low (signedField (leNat bs) (8 * z.bytes))))
  | .ldN _ z d a l => some (.x d, l.dist, s.ea a l.off, z.bytes, fun bs => .x (low (leNat bs)))
  | .ldv _ d a l => some (.v d, l.dist, s.ea a l.off, 4 * s.lanes, fun bs => .v (wordsIn bs))
  | _ => none

/-- The stores: where, what bytes, and what becomes of full-empty bits (R265, R266, R268). -/
def storeForm (s : State) : Instr → Option (Nat × List Byte × Option Bool)
  | .st _ z d a o => some (s.ea a o.s72, leBytes z.bytes (s.rdX d).toNat, none)
  | .stv _ d a o => some (s.ea a o.s72, laneBytes s.lanes (s.rdV d), none)
  | .stvFe _ d a o => some (s.ea a o.s72, laneBytes s.lanes (s.rdV d), some true)
  | _ => none

/-- The parts of an extent of physical bytes by line, each with its bytes (R257, R265). -/
def lineParts (pa : Nat) (bs : List Byte) : List (Nat × List Byte) :=
  (List.range ((pa % 64 + bs.length + 63) / 64)).map (fun i =>
    let lo := max pa (64 * (pa / 64 + i))
    (lo, (bs.drop (lo - pa)).take (64 - lo % 64)))

/-- The word a bank address or a hole-free bank word shows (R269). -/
def wordHere (s : State) (va : Nat) : Option (Nat × Word32) :=
  match spotOf s.ctx.core va with
  | .scr addr => if s.anyPoison addr 4 then none else some (addr, BitVec.ofNat 32 (leNat (s.mem.readN addr 4)))
  | _ => none

/-- The address an index lane names from a base (R269). -/
def named (s : State) (base : Nat) (r : VReg) (l : Nat) : Nat := base + 4 * ((wordOf s r l).toNat % 2 ^ 14)

/-- The atomics: operand address, bytes, where the old value lands, and the value written for an old one (R274 to R276). -/
def atomicForm (s : State) : Instr → Option (Nat × Nat × Option (XReg × Nat) × (Nat → Option Nat))
  | .atom _ op dbl d a l => some (s.ea a l.off, State.dblBytes dbl, some (d, l.dist),
      fun old => some (State.atomResult op (State.dblBytes dbl) old ((s.rdX d).toNat % 2 ^ (8 * State.dblBytes dbl))))
  | .cas _ dbl d a l => some (s.ea a l.off, State.dblBytes dbl, some (d, l.dist), fun old =>
      if old = (s.rdX d).toNat % 2 ^ (8 * State.dblBytes dbl)
      then some ((s.rdX (State.nextX d)).toNat % 2 ^ (8 * State.dblBytes dbl)) else none)
  | .red _ op dbl d a o => some (s.ea a ((o.map (fun l => l.signExtend 72)).getD 0), State.dblBytes dbl, none,
      fun old => some (State.atomResult op (State.dblBytes dbl) old ((s.rdX d).toNat % 2 ^ (8 * State.dblBytes dbl))))
  | _ => none

/-- The count of the bundle of the operation being performed. -/
def bundleCount (s : State) : Nat :=
  match s.me.ops.find? (fun o => o.num == s.ctx.num) with
  | some o => o.cnt
  | none => s.me.count

/-- A request from the operation being performed, to a line's home, with the address, bundle and slot that a fault record would give (R257, R436). -/
def request (s : State) (pa pclass va : Nat) (reply : Bool) (k : HKind) : HReq :=
  { addr := pa, pclass := pclass, core := s.ctx.core, strand := s.ctx.strand, hc := s.hcid, num := s.ctx.num, reply := reply
    kind := k, launch := s.me.launch, va := va, entry := decide (s.ctx.slot = 9), bundle := s.ctx.bundle.toNat, cnt := bundleCount s
    slot := s.ctx.slot }
/-- The bytes of a line in which a pinned copy differs from its twin (R256). -/
def differ (copy twin : List Byte) : BitVec 64 := BitVec.ofFnLE (fun i : Fin 64 => copy.getD i.val 0 != twin.getD i.val 0)
/-- The kind of an atomic's request (R274 to R276). -/
def atomicKind (s : State) : Instr → Option HKind
  | .atom _ op dbl d _ _ => some (.atom op dbl (s.rdX d))
  | .cas _ dbl d _ _ => some (.cas dbl (s.rdX d) (s.rdX (State.nextX d)))
  | .red _ op dbl d _ _ => some (.atom op dbl (s.rdX d))
  | _ => none

/-- The strand after the landing of an atomic sent to its home has been kept for the answer: the one taken at issue, or one of its own without a value (R56, R274). -/
def awaiting (s : State) (d : XReg) (dist va n : Nat) : Strand :=
  let t := s.me
  if t.landings.any (fun l => l.num == s.ctx.num) then
    { t with landings := t.landings.map (fun l => if l.num = s.ctx.num then { l with cls := s.landClass [(va, n)] } else l) }
  else { t with landings := t.landings ++ [⟨s.ctx.num, .x d, t.count + dist, dist, none, false, false, s.landClass [(va, n)], false⟩] }

/-! ### Slots C and M (R204 to R223, R282 to R300) -/

/-- A strand after a token of an operation has been set (R411, R412). -/
def withTok (u : Strand) (tk : Option TokReg) (st : TokSt) (bytes : Nat) : Strand :=
  match tk with
  | none => u
  | some i => { u with tokens := u.tokens.set i.val ⟨st, BitVec.ofNat 32 bytes⟩ }

/-- The copy that a copy form starts (R282 to R289). -/
def copyForm (s : State) : Instr → Option (Option TokReg × Copy)
  | .copy _ tk d a n => some (tk,
      { id := s.nextId, core := s.ctx.core, strand := s.ctx.strand, hc := s.me.hc, launch := s.me.launch, num := s.ctx.num
        cnt := bundleCount s, tok := tk, src := BitVec.ofNat 72 (s.ea a 0), dst := BitVec.ofNat 72 (s.ea d 0), len := s.copyBytes n
        port := (match n with | .reg _ => 0 | .long _ p _ => p.toNat), addw := (match n with | .reg _ => false | .long _ _ w => w)
        kind := .plain, slot := 3, word := s.ctx.word, bundle := s.ctx.bundle
        next := 0, missing := [], bytes := 0, fl := 0, faulted := false, skipped := false, data := none })
  | .copys _ tk d a t => some (tk,
      { id := s.nextId, core := s.ctx.core, strand := s.ctx.strand, hc := s.me.hc, launch := s.me.launch, num := s.ctx.num
        cnt := bundleCount s, tok := tk, src := BitVec.ofNat 72 (s.ea a 0), dst := BitVec.ofNat 72 (s.ea d 0), len := 0
        port := 0, addw := false
        kind := .rows (shapeOf (s.rdX t)).1 (shapeOf (s.rdX t)).2.1 (shapeOf (s.rdX t)).2.2.1 (shapeOf (s.rdX t)).2.2.2
        slot := 3, word := s.ctx.word, bundle := s.ctx.bundle
        next := 0, missing := [], bytes := 0, fl := 0, faulted := false, skipped := false, data := none })
  | .copyg _ tk d a t => some (tk,
      { id := s.nextId, core := s.ctx.core, strand := s.ctx.strand, hc := s.me.hc, launch := s.me.launch, num := s.ctx.num
        cnt := bundleCount s, tok := tk, src := BitVec.ofNat 72 (s.ea a 0), dst := BitVec.ofNat 72 (s.ea d 0), len := 0
        port := 0, addw := false
        kind := .gather ((List.range (min 512 s.lanes)).map (fun l => (wordOf s t l).toNat % 2 ^ 26))
        slot := 3, word := s.ctx.word, bundle := s.ctx.bundle
        next := 0, missing := [], bytes := 0, fl := 0, faulted := false, skipped := false, data := none })
  | .copyfe _ tk d a t => some (tk,
      { id := s.nextId, core := s.ctx.core, strand := s.ctx.strand, hc := s.me.hc, launch := s.me.launch, num := s.ctx.num
        cnt := bundleCount s, tok := tk, src := BitVec.ofNat 72 (s.ea a 0), dst := BitVec.ofNat 72 (s.ea d 0)
        len := (s.rdX t).toNat, port := 0, addw := false
        kind := .fe, slot := 3, word := s.ctx.word, bundle := s.ctx.bundle
        next := 0, missing := [], bytes := 0, fl := 0, faulted := false, skipped := false, data := none })
  | _ => none

/-- The bytes a copy moves (R283, R287 to R289). -/
def copyBytes (c : Copy) : Nat :=
  match c.kind with
  | .plain | .fe => c.len
  | .rows len rows _ _ => len * rows
  | .gather offs => 64 * offs.length

/-- Element (m, n) of a physical tile of the acting core (R204, R207). -/
def tileElem (s : State) (tile m n : Nat) : Word32 := BitVec.ofNat 32 (leNat (s.mem.readN (accAddr s.ctx.core tile m n) 4))

/-- Only elements of some rows of one tile change, to the values given. -/
structure OnlyTile (s t : State) (tile : Nat) (rows : Nat → Bool) (new : Nat → Nat → Word32) : Prop where
  elems : ∀ m n, m < 64 → rows m = true → n < 64 * s.g → tileElem t tile m n = new m n
  bytes : ∀ a, (∀ m, m < 64 → rows m = true →
      ∀ p, p < s.g → a < accAddr s.ctx.core tile m (64 * p) ∨ accAddr s.ctx.core tile m (64 * p) + 256 ≤ a) → t.mem.read a = s.mem.read a
  rest : { t with mem := s.mem } = s

/-- The operation being performed has not read its image yet (R209). -/
def unread (s : State) : Prop := ∀ o ∈ s.me.ops, o.num = s.ctx.num → o.got = none
/-- A tile's element numbered row by row (R207). -/
def tileAt (s : State) (tile j : Nat) : Word32 := tileElem s tile (j / (64 * s.g)) (j % (64 * s.g))
/-- Flags reported over the elements of a whole tile. -/
def tileFlags (s : State) (f : Nat → Fl) : Fl := (List.range (64 * (64 * s.g))).foldl (fun a j => a ||| f j) 0

/-! ### Slot Q: ordering, queues, scheduling, tables, counters (R254, R301 to R433, R443, R444) -/

/-- Nothing of the strand, and nothing at any home, is under way (R301 to R303). -/
def settled (s : State) : Prop :=
  s.me.ops = [] ∧ s.copies = [] ∧ s.gemvs = [] ∧ s.pushes = [] ∧ s.home = [] ∧ s.me.withheld = []

/-- Whether a scope reaches beyond the cluster: DEVICE and wider, and GANG for a gang of several clusters (R254, R305). -/
def reachesOut (s : State) (c : Scope) : Bool :=
  match c with
  | .strand | .core | .cluster => false
  | .gang => match s.launch? s.me.launch with
    | some l => l.ncl != 0
    | none => false
  | .device | .pool | .host | .system => true

/-- What an acquire leaves: at DEVICE or wider the cluster loses its clean device-HBM lines (R254). -/
def acquired (s : State) (c : Scope) : State :=
  if reachesOut s c then
    s.setCluster (State.clusterOf s.ctx.core) { s.cluster (State.clusterOf s.ctx.core) with
      lines := (s.cluster (State.clusterOf s.ctx.core)).lines.filter (fun e =>
        !(State.pkind (e.1 * 64) == .hbm && e.2.pclass == 0)) }
  else s

/-- A push queue's counters in a launch. -/
def queueOf (l : Launch) (q : Nat) : PushQ := l.pushes.getD q PushQ.reset

/-- The state after a push queue's counters of one launch have changed. -/
def withQueue (s : State) (id q : Nat) (f : PushQ → PushQ) : State :=
  { s with launches := s.launches.map (fun l => if l.id = id then { l with pushes := l.pushes.set q (f (queueOf l q)) } else l) }

/-- A result word that reports a failure code (R382). -/
def failure (n : Nat) : XWord := BitVec.ofNat 64 (2 ^ 63 + n)

/-- Nothing is under way at any home: no line is busy, and no request and no turn waits (R13, R257). -/
def homesFree (s : State) : Prop := s.home = [] ∧ s.busyLines = []

/-- The tables may be reached: nothing of the strand that writes is under way, and no home request of it; and the lines that the form's act uses are free and hold no poison (R13, R247, R381). -/
def tablesReady (s : State) (i : Instr) : Prop :=
  settled s ∧ s.acts s.meKey = [] ∧ ∀ n ∈ s.tableLines i, s.homePoison n = false ∧ s.busyLines.mem n = false

/-- The lines of a list up to the first busy one, and that one. -/
def upToBusy (s : State) : List Nat → List Nat
  | [] => []
  | l :: ls => if s.busyLines.mem l then [l] else l :: upToBusy s ls
/-- The lines of a list once each, in ascending order. -/
def ascending (ls : List Nat) : List Nat := ls.foldl NSet.add []
/-- The turns that a waiting act takes, no request being under way at any home: one in the list of each of its lines in ascending order, up to the first that is busy (R13, R380, log entry 94). -/
def turnsAt (s : State) (ls : List Nat) : List HReq := (upToBusy s (ascending ls)).map (fun l => request s (64 * l) 0 0 false .turn)

/-- Mappings of a sequence removed one after another, each with its block's reference (R390, R391). -/
def withoutBlocks (h seq : Nat) : List (Nat × Nat) → State → State
  | [], s => s
  | (b, l) :: es, s => withoutBlocks h seq es ((s.removeMap ⟨h, seq, l⟩).dropRef h b)

/-- A copy-on-write has replaced the block b of a mapping by a fresh one, b2: b has one reference less, the mapping names b2, which counts `fill` tokens (R388, R390). -/
structure Copied (v u : State) (h seq l b b2 fill : Nat) : Prop where
  fresh : u.blk b2 = { v.blk b2 with seq := BitVec.ofNat 32 seq, lblk := l, fill := fill }
  old : u.blk b = { v.blk b with ref := (v.blk b).ref - 1 }
  others : ∀ c, c ≠ b → c ≠ b2 → u.blk c = v.blk c
  mapped : (v.mapped h seq l).isSome = true → u.mapped h seq l = some b2
  rest : { u with blks := v.blks, slots := v.slots, cells := v.cells } = v

/-- One row of a BTSNAP has run: its act gives no record, or gives one, which is stored behind those before it (R406). -/
def rowRan (h va r : Nat) (s : State) (recs : List Byte) (t : State) (recs' : List Byte) : Prop :=
  (State.rowAct h r s = .ok (none, t) ∧ recs' = recs) ∨
    ∃ x dr m, State.rowAct h r s = .ok (some (x, dr), m) ∧ State.store none (va + recs.length) (leBytes 48 x) m = .ok () t ∧
      recs' = recs ++ leBytes 48 x
/-- The draft lengths of the records of a BTSNAP: bits 24 to 30 of each 48 bytes (R405). -/
def drafts (recs : List Byte) : List Nat :=
  (List.range (recs.length / 48)).map (fun i => leNat ((recs.drop (48 * i)).take 48) / 2 ^ 24 % 2 ^ 7)
/-- A strand after the end of a BTSNAP: OCC counts the records, DRAFT is their largest draft length, neither is pending any more (R379, R406). -/
def latched (u : Strand) (recs : List Byte) : Strand :=
  { u with
    front := { u.front with occ := BitVec.ofNat 13 (recs.length / 48), draft := BitVec.ofNat 7 ((drafts recs).foldr max 0) }
    pend := { u.pend with occ := false } }
/-- A strand after one row of its queued BTSNAP has run (R380, R406). -/
def oneRowMore (u : Strand) (num : Nat) (recs : List Byte) : Strand :=
  { u with ops := u.ops.map (fun o => if o.num = num then { o with acts := o.acts + 1, got := some recs } else o) }

/-- The forms whose act ends in one result word, with the act (R387 to R394, R400, R401). -/
def actForm (s : State) : Instr → Option (XReg × (State → Except TErr (XWord × State)))
  | .kvlook _ d x t => some (d, fun a => (a.kvLook s.me.hc (s.rdX x).toNat (s.rdX t).toNat).map (fun v => (v, a)))
  | .kvapp _ d x t => some (d, fun a => a.kvApp s.me.hc (s.rdX x).toNat (s.rdX t).toNat)
  | .kvfork _ d x t => some (d, fun a => a.kvFork s.me.hc (s.rdX x).toNat (s.rdX t).toNat)
  | .kvtrunc _ d x t => some (d, fun a => (a.kvTrunc s.me.hc (s.rdX x).toNat (s.rdX t).toNat).map (fun r => (BitVec.ofNat 64 r.1, r.2)))
  | .pfxfind _ d x t => some (d, fun a => a.pfxFind s.me.hc (s.rdX x) (s.rdX t).toNat)
  | .pfxins _ d x t => some (d, fun a => a.pfxIns s.me.hc (s.rdX x) (s.rdX t).toNat)
  | .strunc _ d x t => some (d, fun a => State.struncAct s.me.hc (s.rdX x).toNat (s.rdX t).toNat a)
  | .scommit _ d x t => some (d, fun a => State.scommitAct s.me.hc (s.rdX x).toNat (s.rdX t).toNat a)
  | _ => none

/-! ### Counter forms, traps and the return from faults (R10, R411 to R433, R443, R444) -/

/-- A strand after one level of its sequencer has changed (R417). -/
def withLevel (u : Strand) (k : Nat) (f : Level → Level) : Strand :=
  { u with levels := Vector.ofFn (fun i : Fin 6 => if i.val = k then f u.levels[i] else u.levels[i]) }

/-- A level of a strand by number. -/
def levelOf (u : Strand) (k : Nat) : Level := u.levels.toList.getD k Level.reset

/-- The counter that CNTRD reads for an id whose value the state holds (R432). -/
def counter (s : State) (i : Nat) : XWord :=
  let u := s.me
  let c := s.core s.ctx.core
  let tok (k : Nat) : Token := u.tokens.toList.getD k Token.reset
  let code : TokSt → Nat := fun x => match x with | .clear => 0 | .armed => 0x80 | .done => 0xC0 | .faulted => 0xA0
  if i < 8 then BitVec.ofNat 64 ((tok i).bytes.toNat * 2 ^ 32 + code (tok i).st)
  else if 0x10 ≤ i ∧ i < 0x16 then
    let l := levelOf u (i - 0x10)
    BitVec.ofNat 64 (l.iter.toNat + l.trip.toNat * 2 ^ 40 + (if l.brk then 2 ^ 62 else 0) + (if l.run then 2 ^ 63 else 0))
  else if 0x20 ≤ i ∧ i < 0x30 then
    match s.launch? u.launch with
    | some l => BitVec.ofNat 64 ((l.bars.toList.getD (i - 0x20) (0, 0)).1 % 2 ^ 6 * 2 ^ 16 + (l.bars.toList.getD (i - 0x20) (0, 0)).2 % 2 ^ 16)
    | none => 0
  else match i with
    | 0x30 => low u.segcnt.toNat
    | 0x40 => u.perf.issued
    | 0x41 => u.perf.swout
    | 0x42 => u.perf.froze
    | 0x43 => u.perf.late[0]
    | 0x44 => u.perf.late[1]
    | 0x45 => u.perf.late[2]
    | 0x46 => u.perf.late[3]
    | 0x47 => u.perf.late[4]
    | 0x48 => u.perf.shortl
    | 0x60 => c.cycle
    | 0x61 => c.swcyc
    | 0x62 => c.frzcyc
    | 0x63 => c.bubcyc
    | 0x64 => c.idlecyc
    | 0x70 => (s.cluster (s.ctx.core / 4)).seccnt
    | 0x80 => low (s.hctx u.hc).held
    | _ => low s.plat.thermal.level

/-- The code of a token's state (R411). -/
def tokenCode : TokSt → Nat
  | .clear => 0
  | .armed => 0x80
  | .done => 0xC0
  | .faulted => 0xA0

/-- The continuation record of a member whose SUSPEND gave the word w, its sequencer levels at rest (R64). -/
def record (s : State) (l : Launch) (i : Nat) (w : Word32) : List Byte :=
  let u := s.me
  let segs := (((s.image? l.image).bind (fun g => g.cores[i]?)).map (·.segs)).getD []
  leBytes 64 (State.packBits [(s.saveVa s.meKey / 256, 64), (0, 32), (w.toNat, 32), (0, 6), (0, 2), (0, 120),
    (leNat (u.tokens.toList.map (fun c => BitVec.ofNat 8 (tokenCode c.st))), 64), (l.image, 32), (u.pc.toNat, 32),
    (l.seq.toNat, 48), (l.stream, 2), (l.hc, 6), (0, 8), (segs.findIdx (fun r => r.start == u.pc), 16), (0, 8), (l.cls, 2),
    (match l.width with | 4 => 2 | 2 => 1 | _ => 0, 2), (l.ncl, 3), (if l.single then 1 else 0, 1), (i, 5), (0, 27)])

/-- The numbers that a live mask names. -/
def inMask {n : Nat} (m : BitVec n) : List (Fin n) := (List.finRange n).filter (fun i => m.getLsbD i.val)

/-- The predicate bytes of a save area: the predicates that the mask names, the other bits as they were (R456). -/
def savedPreds (u : Strand) (m : BitVec 16) (old : Nat) : BitVec 64 :=
  BitVec.ofFnLE (fun i : Fin 64 =>
    if m = BitVec.allOnes 16 ∨ m.getLsbD i.val = true then decide (0 < i.val) && u.front.p.toList.getD i.val false else old.testBit i.val)

/-- What a member of width g writes to its save area before its record, as offset and bytes: the special registers always, and the registers that the live masks name (R456; QCNT goes with the k registers, log entry 24). -/
def saved (g : Nat) (u : Strand) (m : SegRec) (old : Nat) : List (Nat × List Byte) :=
  let f := u.front
  [(64, [f.fstat.toNat, f.fmode.toNat, f.scnt.toNat, f.seqlen.toNat, f.bindsel.toNat, (savedPreds u m.livep old).toNat].flatMap (leBytes 8)),
    (120, leBytes 8 0), (160, leBytes 32 0)] ++
  (if m.livek = 0 then [] else [(112, leBytes 8 u.eng.qcnt)]) ++
  (inMask m.liveb).map (fun i => (128 + 4 * i.val, leBytes 4 f.b[i].toNat)) ++
  (inMask m.livea).map (fun i => (192 + 16 * i.val, leBytes 16 f.a[i].toNat)) ++
  (inMask m.livex).map (fun i => (448 + 8 * i.val, leBytes 8 (if i.val = 0 then 0 else f.x[i].toNat))) ++
  (inMask m.livek).map (fun i => (960 + 8 * i.val, leBytes 4 u.eng.k[i].val.toNat ++ leBytes 4 u.eng.k[i].idx.toNat)) ++
  (inMask m.liveq).map (fun i => (1472 + 64 * i.val, leBytes 64 (u.eng.q[i].toNat % 2 ^ (128 * g)))) ++
  (inMask m.livev).map (fun i => (65536 + 16384 * g + 512 * g * i.val, laneBytes (128 * g) u.eng.v[i]))

/-- A strand's performance counters after CNTCLR of an id (R433). -/
def cleared (p : Perf) (i : Nat) : Perf :=
  { issued := if i = 0x40 then 0 else p.issued, swout := if i = 0x41 then 0 else p.swout, froze := if i = 0x42 then 0 else p.froze
    late := Vector.ofFn (fun j : Fin 5 => if i = 0x43 + j.val then 0 else p.late[j]), shortl := if i = 0x48 then 0 else p.shortl }

/-- The counter forms that change the strand alone (R413, R414, R420, R423, R424, R433). -/
def counterForm (s : State) : Instr → Option Strand
  | .stage _ x => some { s.me with front := { s.me.front with
      scnt := BitVec.ofNat 16 (min 65535 (s.me.front.scnt.toNat + (s.rdX x).toNat)) } }
  | .tokclr _ x => some { s.me with tokens := Vector.ofFn (fun i : Fin 8 => if (s.rdX x).getLsbD i.val then ⟨.clear, 0⟩ else s.me.tokens[i]) }
  | .lnscfg _ x y => some (withLevel s.me ((s.rdX x).toNat % 8) (fun l =>
      if (s.rdX x).toNat / 8 = 0 then { l with ctl := s.rdX y }
      else { l with strides := Vector.ofFn (fun i : Fin 8 => if i.val + 1 = (s.rdX x).toNat / 8 then s.rdX y else l.strides[i]) }))
  | .lnsbrk _ => some (match (List.range 6).reverse.find? (fun k => (levelOf s.me k).run) with
      | some k => withLevel s.me k (fun l => { l with brk := true })
      | none => s.me)
  | .seqlen _ x => some { s.me with front := { s.me.front with seqlen := BitVec.ofNat 20 (s.rdX x).toNat } }
  | .cntrd _ d x => some (withX s.me d (counter s (s.rdX x).toNat))
  | .cntclr _ x => some { s.me with perf := cleared s.me.perf (s.rdX x).toNat }
  | _ => none

/-- The operand conditions under which the counter forms perform without a violation (R413 to R433). -/
def counterFits (s : State) : Instr → Prop
  | .stage _ x => (s.rdX x).toNat < 2 ^ 16
  | .lnscfg _ x _ => (s.rdX x).toNat < 2 ^ 7
  | .cntrd _ _ x => let i := (s.rdX x).toNat
      i < 8 ∨ (0x10 ≤ i ∧ i < 0x16) ∨ (0x20 ≤ i ∧ i < 0x30) ∨ i = 0x30 ∨ (0x40 ≤ i ∧ i ≤ 0x48) ∨ (0x60 ≤ i ∧ i ≤ 0x64) ∨
        i = 0x70 ∨ i = 0x80 ∨ i = 0x90
  | .cntclr _ x => 0x40 ≤ (s.rdX x).toNat ∧ (s.rdX x).toNat ≤ 0x48
  | _ => True

/-! ### Events of the part (R4 to R36, R41 to R67, R211 to R216, R243 to R262, R282 to R297, R325 to R377, R427 to R477) -/

/-- One strand, by its key, becomes u; every other strand and all the rest of the state stay. -/
structure OnlyStrand (s t : State) (k : Nat) (u : Strand) : Prop where
  mine : t.strand k = u
  others : ∀ j, j ≠ k → t.strand j = s.strand j
  rest : { t with strands := s.strands } = s

/-- A counter that grows to its greatest value and stays there. -/
def upOne {n : Nat} (v : BitVec n) : BitVec n := if v.toNat + 1 = 2 ^ n then v else v + 1

/-- The state after bytes have reached their place in memory, of a line that nobody holds. -/
structure OnlyMem (s t : State) (pa : Nat) (bs : List Byte) : Prop where
  bytes : ∀ a, t.mem.read a = if pa ≤ a ∧ a < pa + bs.length then bs.getD (a - pa) 0 else s.mem.read a
  poison : ∀ n, t.linePoison.mem n = (s.linePoison.mem n && !(bs.length == 64 && n == pa / 64))
  rest : { t with mem := s.mem, linePoison := s.linePoison } = s

/-- The mailbox holds a rung command of a code, whose other fields are zero (R463, R464). -/
def rung (s : State) (op : Nat) (u : State.Uses) : Prop :=
  s.mbox.busy = true ∧ s.mbox.cmd[0].toNat = op ∧ State.fieldsOk u (State.cmdOf s.mbox) = true

/-- The state with the mailbox free again, a status and a value in its result word, the answers of its reads used up and its turns at homes given up (R463). -/
def answered (s : State) (status value : Nat) : State :=
  { s.takeReplies 128 0 0 with
    mbox := { s.mbox with busy := false, result := BitVec.ofNat 64 (status + value * 256) }
    home := s.home.filter (fun r => !State.isTurn (State.ioTurn 1 0) r) }

/-- The tile elements of one core change in some rows and columns, to the values given (R207, R216). -/
structure OnlyElements (s t : State) (core tile m n : Nat) (new : Nat → Nat → Word32) : Prop where
  elems : ∀ r c, r < m → c < n → BitVec.ofNat 32 (leNat (t.mem.readN (accAddr core tile r c) 4)) = new r c
  bytes : ∀ a, (∀ r c, r < m → c < n → a < accAddr core tile r c ∨ accAddr core tile r c + 4 ≤ a) → t.mem.read a = s.mem.read a

/-- The bits of an engine operation that performs at its completion: those of the vector engines and of X (R118). -/
def laneEngine : Engine → Prop
  | .v0 | .v1 | .x => True
  | _ => False

/-- The machine acting for a strand, as an engine's access finds it. -/
def asStrand (s : State) (k : Nat) : State := { s with ctx := { Ctx.idle with core := k / 4, strand := k % 4 } }
/-- The base of a core's own scratchpad window (R235). -/
def spadVa : Nat := 0xFFFF * 2 ^ 56
/-- The machine as the next entry of a strand's copy schedule starts (R292). -/
def entering (s : State) (k : Nat) : State :=
  let u := s.strand k
  { s with ctx := { Ctx.idle with
      core := k / 4, strand := k % 4, slot := 9, bundle := u.pc, num := u.opNum + 1, admitted := true, defer := s.ctx.defer } }.setStrand k
    { u with opNum := u.opNum + 1, schedNext := u.schedNext + 1, schedOcArm := none, schedTok := false }
/-- Row r of a GEMV from its weights, scales and input with the input's scales (R138). -/
def gemvRow (z : State) (c : Gemv) (w x y : List Byte) (r : Nat) : Word32 × Fl :=
  State.gemvOut ((List.range (c.k / 32)).map (fun b =>
    let j := r * (c.k / 32) + b
    (State.nmEngine (z.byteAt (c.wva.toNat + 32 * j)), (w.drop (32 * j)).take 32, (y.drop (32 * b)).take 32,
      (x.getD j 0).toNat, (y.getD (c.k + b) 0).toNat)))

end Sys2Proof.Claims

open Sys2Proof Machine Claims

/-! ### The parts of the statements -/

/-- The forms that write a b register, an a register, the predicates or a special register. -/
def Sys2Proof.Claims.targetAddressAndSpecialFormsWriteTheirResult : Prop :=
  ∀ (i : Instr) (g : Guard) (s : State) (u : Strand),
    i.guard? = some g → otherResult s i = some u → performs i g s → ∃ t, exec i s = .next t ∧ OnlyMe s t u

/-- A taken branch, and its link. -/
def Sys2Proof.Claims.takenBranchRedirectsAfterThreeBundles : Prop :=
  ∀ (i : Instr) (g : Guard) (s : State) (u : Strand),
    i.guard? = some g → branchResult s i = some u → performs i g s → ∃ t, exec i s = .next t ∧ OnlyMe s t u

/-- The forms that write mask bits. -/
def Sys2Proof.Claims.maskFormsWriteActiveBits : Prop :=
  ∀ (i : Instr) (g : Guard) (s : State) (d m : QReg) (f : Nat → Bool),
    i.guard? = some g → maskResult s i = some (d, m, f) → performs i g s →
      ∃ t, exec i s = .next t ∧ OnlyMe s t (withQ s.me s.lanes d (s.rdQ m) f)

/-- The votes, single lanes and the candidate file. -/
def Sys2Proof.Claims.votesExtractionsAndFileReads : Prop :=
  ∀ (i : Instr) (g : Guard) (s : State) (u : Strand),
    i.guard? = some g → voteResult s i = some u → performs i g s → ∃ t, exec i s = .next t ∧ OnlyMe s t u

/-- SORTB sorts its 128g entries. -/
def Sys2Proof.Claims.sortbSortsItsLanes : Prop :=
  ∀ (g : Guard) (asc : Bool) (d a b : VReg) (s : State), performs (.sortb g asc d a b) g s →
    ∃ t es, exec (.sortb g asc d a b) s = .next t ∧ es.Perm (candsOf s a b 0) ∧ inOrder asc es ∧
      OnlyMe s t (withPair s.me s.lanes d es)

/-- MERGE keeps the first 128g of 256g entries. -/
def Sys2Proof.Claims.mergeKeepsTheFirstHalf : Prop :=
  ∀ (g : Guard) (asc : Bool) (d a : VReg) (s : State), performs (.merge g asc d a) g s →
    ∃ t es, exec (.merge g asc d a) s = .next t ∧
      es.Perm (candsOf s d (State.nextV d) 0 ++ candsOf s a (State.nextV a) s.lanes) ∧ inOrder asc es ∧
      OnlyMe s t (withPair s.me s.lanes d (es.take s.lanes))

/-- CMRG merges the surviving candidates into the file. -/
def Sys2Proof.Claims.cmrgMergesCandidates : Prop :=
  ∀ (g : Guard) (a b : VReg) (s : State), performs (.cmrg g a b) g s →
    ∃ t es, exec (.cmrg g a b) s = .next t ∧
      es.Perm ((s.eng.k.toList.take s.eng.qcnt).mapIdx (fun i e => ⟨e.val, e.idx, i⟩) ++
        (candsOf s a b 64).filter (fun c => !(fp32.decode c.val.toNat).isNan)) ∧ inOrder false es ∧
      OnlyMe s t (withFile s.me es)

/-- Stores to a bank. -/
def Sys2Proof.Claims.storesWriteTheirBankBytes : Prop :=
  ∀ (i : Instr) (g : Guard) (s : State) (va addr : Nat) (bs : List Byte) (fe : Option Bool),
    i.guard? = some g → storeForm s i = some (va, bs, fe) → performs i g s → 16 ≤ bs.length ∨ fe = none →
      spotOf s.ctx.core va = .scr addr → s.bankHeld addr bs.length = false →
      atOnce s addr → s.ownBank addr = true ∨ bs ≠ [] →
      ∃ t, exec i s = .next t ∧ Stored s t addr bs fe

/-- Stores of a protected segment that leave the core. -/
def Sys2Proof.Claims.protectedStoresThatLeaveTheCoreAreWithheld : Prop :=
  ∀ (i : Instr) (g : Guard) (s : State) (va addr : Nat) (bs : List Byte) (fe : Option Bool),
    i.guard? = some g → storeForm s i = some (va, bs, fe) → performs i g s → 0 < bs.length →
      spotOf s.ctx.core va = .scr addr → s.bankHeld addr bs.length = false → s.ownBank addr = false → s.withholds = true →
      s.withheldCount s.ctx.core + ((addr + bs.length - 1) / 16 + 1 - addr / 16) ≤ 2048 →
      ∃ t, exec i s = .next t ∧ OnlyMe s t { s.me with withheld := s.me.withheld ++ [⟨addr, bs, fe, 0, s.ctx.num⟩] }

/-- Stores through a leaf. -/
def Sys2Proof.Claims.storesToTranslatedMemoryGoToTheHome : Prop :=
  ∀ (i : Instr) (g : Guard) (s : State) (va : Nat) (bs : List Byte) (e : TlbEnt),
    i.guard? = some g → storeForm s i = some (va, bs, none) → performs i g s → 0 < bs.length →
      spotOf s.ctx.core va = .trans → va % 65536 + bs.length ≤ 65536 →
      s.tlbHit (State.clusterOf s.ctx.core) s.hcid va = some e → e.w = true → e.pclass ≠ 2 → e.pclass ≠ 3 →
      quiet s → s.withholds = false → s.me.withheld = [] → s.ctx.defer = true →
      exec i s = .next { s with home := (lineParts (State.leafPa e va) bs).map (fun p => request s p.1 e.pclass 0 false (.write p.2 false)) }

/-- LDVG. -/
def Sys2Proof.Claims.gathersLandOneWordInEachLane : Prop :=
  ∀ (g : Guard) (d : VReg) (a : AReg) (l : Land) (s : State) (w : Nat → Word32), performs (.ldvg g d a l) g s →
    s.me.withheld = [] →
    (∀ n, n < min 512 s.lanes → ((wordHere s (named s (s.ea a l.off) d n)).map (·.2)) = some (w n)) →
    ∃ t, exec (.ldvg g d a l) s = .next t ∧ OnlyMe s t (landed s (.v d) l.dist
      ((List.range (min 512 s.lanes)).map (fun n => (named s (s.ea a l.off) d n, 4)))
      (.v (Vector.ofFn (fun n : Fin 512 => if n.val < s.lanes then w n.val else 0))))

/-- STVS. -/
def Sys2Proof.Claims.scattersStoreLanesInOrder : Prop :=
  ∀ (g : Guard) (d : VReg) (a : AReg) (x : VReg) (s : State) (at_ : Nat → Nat), performs (.stvs g d a x) g s →
    (∀ n, n < min 512 s.lanes → spotOf s.ctx.core (named s (s.ea a 0) x n) = .scr (at_ n) ∧ s.ownBank (at_ n) = true ∧
      s.bankHeld (at_ n) 4 = false) →
    ∃ t, exec (.stvs g d a x) s = .next t ∧ { t with mem := s.mem, poison := s.poison } = s ∧
      ∀ b, t.mem.read b = match (List.range (min 512 s.lanes)).reverse.find? (fun n => decide (at_ n ≤ b ∧ b < at_ n + 4)) with
        | some n => BitVec.ofNat 8 ((wordOf s d n).toNat / 256 ^ (b - at_ n))
        | none => s.mem.read b

/-- LDV.FE. -/
def Sys2Proof.Claims.fullLoadsTakeOrKeepTheirGranules : Prop :=
  ∀ (g : Guard) (take one : Bool) (d : VReg) (a : AReg) (l : Land) (s : State) (addr : Nat) (bs : List Byte),
    let i : Instr := if take then .ldvFeTake g one d a l else .ldvFeKeep g one d a l
    let n := if one then 16 else 4 * s.lanes
    performs i g s → spotOf s.ctx.core (s.ea a l.off) = .scr addr → shows s (s.ea a l.off) n bs →
      0 < s.lanes →
      ((∀ k, addr / 16 ≤ k → 16 * k < addr + n → s.full.mem k = true) →
        ∃ m t, exec i s = .next t ∧ (if take then OnlyFull s m addr n false else m = s) ∧
          OnlyMe m t (landed s (.v d) l.dist [(s.ea a l.off, n)] (.v (wordsIn bs)))) ∧
      ((∃ k, addr / 16 ≤ k ∧ 16 * k < addr + n ∧ s.full.mem k = false) → exec i s = .next s.wait)

/-- SETFE and CLRFE. -/
def Sys2Proof.Claims.setfeAndClrfeChangeFullEmptyBitsAlone : Prop :=
  ∀ (g : Guard) (b : Bool) (d : XReg) (a : AReg) (s : State) (addr : Nat),
    let i : Instr := if b then .setfe g d a else .clrfe g d a
    performs i g s → spotOf s.ctx.core (s.ea a 0) = .scr addr → s.bankHeld addr (s.rdX d).toNat = false → s.ownBank addr = true →
      ∃ t, exec i s = .next t ∧ OnlyFull s t addr (s.rdX d).toNat b

/-- SPILL and FILL. -/
def Sys2Proof.Claims.spillParksAndFillLandsTheParkedCopy : Prop :=
  ∀ (g : Guard) (d : VReg) (l : Land) (s : State) (e : TlbEnt),
    let core := s.ctx.core
    let mine (i : Nat) : Strand := s.strand (strandKey core i)
    let taken (f : Park → Bool) : Prop := ∃ i, i < 4 ∧ ∃ q ∈ (mine i).parks, f q.2 = true
    let tileFree (t u : Nat) : Prop := t < 32 ∧ u < 32 ∧ ¬ taken (fun q => q.loc == 1 && q.tile == t && q.sub == u) ∧
      ∀ i, i < 4 → (mine i).life ≠ .free → t < (mine i).tb ∨ (mine i).tb + (mine i).tn ≤ t
    let bankFree (b u : Nat) : Prop := b < 4 ∧ u < 32 ∧ (mine b).life = .free ∧
      ¬ taken (fun q => q.loc == 2 && q.bstrand == b && q.sub == u)
    let first (ok : Nat → Nat → Prop) (t u : Nat) : Prop := ok t u ∧ ∀ a b, ok a b → t < a ∨ (t = a ∧ u ≤ b)
    let none_ (ok : Nat → Nat → Prop) : Prop := ∀ a b, ¬ ok a b
    let parked (p : Park) : Prop := ∃ t, exec (.spill g d) s = .next t ∧ OnlyMe s t { s.me with parks := s.me.parks.set d.val p }
    let va := s.spillVa s.meKey d.val
    let mapped : Prop := va % 65536 + 4 * s.lanes ≤ 65536 ∧ s.tlbHit (State.clusterOf core) s.hcid va = some e
    let v := s.rdV d
    (performs (.spill g d) g s →
      (∀ p, s.me.parks.get? d.val = some p → p.loc ≠ 3 ∨ (mapped ∧ e.w = true ∧ e.pclass ≠ 2) → parked { p with val := v }) ∧
      (s.me.parks.get? d.val = none →
        (∀ t u, first tileFree t u → parked ⟨1, 0, t, u, v⟩) ∧
        (∀ b u, none_ tileFree → first bankFree b u → parked ⟨2, b, 0, u, v⟩) ∧
        (none_ tileFree → none_ bankFree → mapped → e.w = true → e.pclass ≠ 2 → parked ⟨3, 0, 0, 0, v⟩))) ∧
    (∀ p, performs (.fill g d l) g s → s.me.parks.get? d.val = some p → p.loc ≠ 3 →
      ∃ t, exec (.fill g d l) s = .next t ∧ OnlyMe s t (landedAs s (.v d) l.dist 0 (.v p.val))) ∧
    (∀ p, performs (.fill g d l) g s → s.me.parks.get? d.val = some p → p.loc = 3 → mapped →
      (∀ n, State.leafPa e va / 64 ≤ n → n * 64 < State.leafPa e va + 4 * s.lanes → s.homePoison n = false) →
      ∃ t, exec (.fill g d l) s = .next t ∧ OnlyMe s t (landedAs s (.v d) l.dist 2 (.v p.val))) ∧
    (performs (.fill g d l) g s → s.me.parks.get? d.val = none →
      ∃ t, exec (.fill g d l) s = .next t ∧ OnlyMe s t (landedAs s (.v d) l.dist 0 (.v (Vector.replicate 512 0))))

/-- PREF. -/
def Sys2Proof.Claims.prefetchChangesNothing : Prop :=
  ∀ (g : Guard) (a : AReg) (o : Imm) (s : State),
    let i : Instr := .pref g a o
    let va := s.ea a o.s72
    let cl := State.clusterOf s.ctx.core
    performs i g s →
      (spotOf s.ctx.core va ≠ .trans ∨ s.leafOf cl s.hcid va = none → exec i s = .next s) ∧
      (∀ e, spotOf s.ctx.core va = .trans → s.leafOf cl s.hcid va = some e →
        let line := State.leafPa e va / 64
        ((s.cline cl line).isSome ∨ s.homeFree line = false ∨ s.takeWay cl line = none → exec i s = .next s) ∧
        (∀ w r, s.cline cl line = none → s.homeFree line = true → s.takeWay cl line = some (w, r) →
          ∃ t l, exec i s = .next t ∧ t.cline cl line = some l ∧ l.dirty = 0 ∧ l.pclass = e.pclass ∧ l.way = w ∧
            (r = s → State.pkind (line * 64) ≠ .host → l.data = s.mem.readN (line * 64) 64 ∧ t = s.setLine cl line l)))

/-- At a bank. -/
def Sys2Proof.Claims.atomicsAtABankSwapInOneAct : Prop :=
  ∀ (i : Instr) (g : Guard) (s : State) (va n addr : Nat) (reply : Option (XReg × Nat)) (new : Nat → Option Nat),
    i.guard? = some g → atomicForm s i = some (va, n, reply, new) → performs i g s →
      spotOf s.ctx.core va = .scr addr → s.bankHeld addr n = false → s.anyPoison addr n = false →
      ∃ m t, exec i s = .next t ∧
        OnlyBytes (acting i s) m addr (((new (leNat (s.mem.readN addr n))).map (leBytes n)).getD []) none ∧
        (match reply with
         | some r => OnlyMe m t (landed m (.x r.1) r.2 [(va, n)] (.x (low (leNat (s.mem.readN addr n)))))
         | none => t = m)

/-- Through a leaf. -/
def Sys2Proof.Claims.atomicsOnTranslatedMemoryGoToTheHome : Prop :=
  ∀ (i : Instr) (g : Guard) (s : State) (va n : Nat) (reply : Option (XReg × Nat)) (new : Nat → Option Nat) (k : HKind) (e : TlbEnt),
    i.guard? = some g → atomicForm s i = some (va, n, reply, new) → atomicKind s i = some k → performs i g s →
      spotOf s.ctx.core va = .trans → va % 65536 + n ≤ 65536 →
      s.tlbHit (State.clusterOf s.ctx.core) s.hcid va = some e → e.w = true → e.pclass ≠ 2 → quiet s → s.ctx.defer = true →
      ∃ m, exec i s = .next { m with home := [request s (State.leafPa e va) e.pclass va reply.isSome k] } ∧
        (match reply with
         | some r => OnlyMe (acting i s) m (awaiting s r.1 r.2 va n)
         | none => m = acting i s)

/-- COPY, COPYS, COPYG and COPYFE. -/
def Sys2Proof.Claims.copyFormsStartTheirCopyAndArmTheToken : Prop :=
  ∀ (i : Instr) (g : Guard) (s : State) (tk : Option TokReg) (c : Copy),
    i.guard? = some g → copyForm s i = some (tk, c) → performs i g s →
      (copyBytes c ≠ 0 → ∃ t, exec i s = .next t ∧
        OnlyMe { s with nextId := s.nextId + 1, copies := s.copies ++ [c] } t (withTok s.me tk .armed 0)) ∧
      (copyBytes c = 0 → ∃ t, exec i s = .next t ∧ OnlyMe { s with nextId := s.nextId + 1 } t (withTok s.me tk .done 0))

/-- GEMV. -/
def Sys2Proof.Claims.gemvReadsItsDescriptorAndArmsTheToken : Prop :=
  ∀ (g : Guard) (tk : Option TokReg) (d a b : AReg) (s : State) (bs : List Byte) (addr : Nat),
    let c : Gemv :=
      { id := s.nextId, core := s.ctx.core, strand := s.ctx.strand, hc := s.me.hc, launch := s.me.launch, num := s.ctx.num
        cnt := bundleCount s, tok := tk, desc := BitVec.ofNat 72 (s.ea a 0), dst := s.rdA d, input := s.rdA b
        wva := BitVec.ofNat 72 (leNat bs), sva := BitVec.ofNat 72 (leNat bs / 2 ^ 80)
        n := leNat bs / 2 ^ 160 % 2 ^ 32, k := leNat bs / 2 ^ 192 % 2 ^ 32
        word := s.ctx.word, bundle := s.ctx.bundle, faulted := false, skipped := false, out := none }
    performs (.gemv g tk d a b) g s → spotOf s.ctx.core (s.ea a 0) = .scr addr → s.ea a 0 % 32 = 0 →
      shows s (s.ea a 0) 32 bs → s.gemvOk (leNat bs) c = true → s.gemvs.all (fun x => x.id != s.nextId) → s.replies = [] →
      ∃ t, exec (.gemv g tk d a b) s = .next t ∧
        OnlyMe { s with nextId := s.nextId + 1, gemvs := s.gemvs ++ [c], ctx := t.ctx } t (withTok s.me tk .armed 0)

/-- BANKMODE. -/
def Sys2Proof.Claims.bankmodeStartsAChange : Prop :=
  ∀ (g : Guard) (x : XReg) (s : State),
    let w := (s.rdX x).toNat
    let cl := State.clusterOf s.ctx.core
    performs (.bankmode g x) g s → (s.bank cl (w % 128)).chg = none → s.bankTaken cl (w % 128) = false →
      exec (.bankmode g x) s = .next (s.setBank cl (w % 128) { s.bank cl (w % 128) with
        chg := some ⟨w / 256 % 8, if w / 256 % 8 = 1 then none else some s.me.hc, some s.meKey, s.ctx.num⟩ })

/-- FLUSH of one line. -/
def Sys2Proof.Claims.flushSendsDirtyBytesHome : Prop :=
  ∀ (g : Guard) (d : XReg) (a : AReg) (s : State) (line : Nat) (l : CLine),
    performs (.flush g d a) g s → s.cachedIn (s.ea a 0) (s.rdX d).toNat = [(line, l)] → l.pclass = 3 → s.agent = [] → s.homeFree line = true → l.data.length = 64 →
      State.pkind (line * 64) ≠ .host →
      let clean (m : State) : Prop := exec (.flush g d a) s = .next (m.setLine (State.clusterOf s.ctx.core) line { l with dirty := 0 })
      (l.bad = false ∨ State.pkind (line * 64) = .hbm → ∃ m : State, clean m ∧
        { m with mem := s.mem, linePoison := s.linePoison, ctxs := s.ctxs, launches := s.launches } = s ∧
        (∀ b, m.mem.read b = if b / 64 = line ∧ l.dirty.getLsbD (b % 64) = true then l.data.getD (b % 64) 0 else s.mem.read b) ∧
        (l.dirty = 0 → m = s) ∧
        (l.dirty ≠ 0 → ∀ n, m.linePoison.mem n = if n = line ∧ l.bad = true then true
          else s.linePoison.mem n && !(n == line && l.dirty == BitVec.allOnes 64))) ∧
      (l.bad = true → State.pkind (line * 64) = .pool → l.dirty ≠ 0 →
        clean { s with home := s.home ++ [{ request s (line * 64) 3 0 false (.flush l.dirty l.data true) with cnt := 0, slot := 15, entry := false }] })

/-- INVAL. -/
def Sys2Proof.Claims.invalDropsTheClustersCopies : Prop :=
  ∀ (g : Guard) (d : XReg) (a : AReg) (s : State),
    let cl := State.clusterOf s.ctx.core
    let ls := (s.cachedIn (s.ea a 0) (s.rdX d).toNat).filter (fun e => State.pkind (e.1 * 64) != .host)
    performs (.inval g d a) g s → (∀ e ∈ ls, s.pendingWrite cl e.1 = false) →
      ∃ t, exec (.inval g d a) s = .next t ∧ { t with clusters := s.clusters } = s ∧
        (∀ c, c ≠ cl → t.cluster c = s.cluster c) ∧ { t.cluster cl with lines := (s.cluster cl).lines } = s.cluster cl ∧
        ∀ n, t.cline cl n = if ls.any (fun e => e.1 == n) then none else s.cline cl n

/-- ACCZ, ACCLD, ACCRD and ACCWR. -/
def Sys2Proof.Claims.tileFormsMoveTheirElements : Prop :=
  ∀ (g : Guard) (d : TReg) (a : AReg) (v : VReg) (x : XReg) (s : State) (bs : List Byte),
    let tile := s.me.tb + d.val
    let r := (s.rdX x).toNat
    s.g ≤ 4 →
    (performs (.accz g d) g s → ∃ t, exec (.accz g d) s = .next t ∧ OnlyTile s t tile (fun _ => true) (fun _ _ => 0)) ∧
    (performs (.accld g d a) g s → unread s → shows s (s.ea a 0) (16384 * s.g) bs → ∃ t, exec (.accld g d a) s = .next t ∧
      OnlyTile s t tile (fun _ => true) (fun m n => BitVec.ofNat 32 (leNat ((bs.drop (4 * (64 * s.g * m + n))).take 4)))) ∧
    (performs (.accrd g v d x) g s → ∃ t, exec (.accrd g v d x) s = .next t ∧
      OnlyMe s t (withV s.me s.lanes v (BitVec.allOnes 512) (fun l =>
        if r + l / (64 * s.g) < 64 then tileElem s tile (r + l / (64 * s.g)) (l % (64 * s.g)) else 0))) ∧
    (performs (.accwr g d v x) g s → ∃ t, exec (.accwr g d v x) s = .next t ∧
      OnlyTile s t tile (fun m => decide (r ≤ m ∧ m ≤ r + 1)) (fun m n => wordOf s v (64 * s.g * (m - r) + n)))

/-- ACCADD, ACCST and ACCRET. -/
def Sys2Proof.Claims.tileImagesAddAndReturn : Prop :=
  ∀ (g : Guard) (d : TReg) (a : AReg) (ty : ETy) (port : BitVec 2) (s : State) (bs : List Byte) (addr : Nat),
    let tile := s.me.tb + d.val
    let va := s.ea a 0
    let code (j : Nat) : Nat := elemAt bs ty.bits j
    s.g ≤ 4 →
    (performs (.accadd g d a ty port) g s → unread s → shows s va (64 * 64 * s.g * ty.bits / 8) bs →
      ∃ u t, exec (.accadd g d a ty port) s = .next t ∧
        OnlyTile s u tile (fun _ => true) (fun m n => (State.addElem ty (tileElem s tile m n) (code (64 * s.g * m + n))).1) ∧
        OnlyMe u t (withFlags s.me (tileFlags s (fun j => (State.addElem ty (tileAt s tile j) (code j)).2)))) ∧
    (performs (.accst g d a) g s → 1 ≤ s.g → spotOf s.ctx.core va = .scr addr → s.bankHeld addr (16384 * s.g) = false →
      atOnce s addr →
      ∃ t, exec (.accst g d a) s = .next t ∧
        Stored s t addr ((List.range (64 * (64 * s.g))).flatMap (fun j => leBytes 4 (tileAt s tile j).toNat)) none) ∧
    (performs (.accret g d a ty) g s → 1 ≤ s.g → spotOf s.ctx.core va = .scr addr → addr + 16384 * s.g ≤ accBase →
      s.bankHeld addr (64 * 64 * s.g * ty.bits / 8) = false → atOnce s addr →
      ∃ u w t, exec (.accret g d a ty) s = .next t ∧
        Stored s u addr (packElems ty.bits ((List.range (64 * (64 * s.g))).map (fun j => (State.retElem ty (tileAt s tile j)).1)))
          (some true) ∧
        OnlyTile u w tile (fun _ => true) (fun _ _ => 0) ∧
        OnlyMe w t (withFlags s.me (tileFlags s (fun j => (State.retElem ty (tileAt s tile j)).2))))

/-- With nothing under way. -/
def Sys2Proof.Claims.fencesAndDrainsOrderAndAcquire : Prop :=
  ∀ (g : Guard) (c : Scope) (s : State), settled s →
    (performs (.fenceAcq g c) g s → exec (.fenceAcq g c) s = .next (acquired s c)) ∧
    (performs (.fenceRel g c) g s → exec (.fenceRel g c) s = .next s) ∧
    (performs (.fenceFull g c) g s → exec (.fenceFull g c) s = .next (acquired s c)) ∧
    (performs (.drain g c) g s → exec (.drain g c) s = .next s)

/-- With an earlier operation queued. -/
def Sys2Proof.Claims.barriersWaitForEarlierOperations : Prop :=
  ∀ (g : Guard) (c : Scope) (s : State) (o : QOp), o ∈ s.me.ops → o.eng = .a ∨ o.eng = .c ∨ o.eng = .m → o.stage = .queued → s.ctx.num = 0 ∨ o.num < s.ctx.num →
    (performs (.fenceAcq g c) g s → exec (.fenceAcq g c) s = .next s.wait) ∧
    (performs (.fenceRel g c) g s → exec (.fenceRel g c) s = .next s.wait) ∧
    (performs (.fenceFull g c) g s → exec (.fenceFull g c) s = .next s.wait) ∧
    (performs (.drain g c) g s → exec (.drain g c) s = .next s.wait)

/-- PUSH. -/
def Sys2Proof.Claims.pushSendsItsEntriesInRingOrder : Prop :=
  ∀ (g : Guard) (d : XReg) (a : AReg) (x : XReg) (s : State) (p : PushDesc) (l : Launch) (bs : List Byte),
    let n := (s.rdX d).toNat
    let q := (s.rdX x).toNat
    let c := queueOf l q
    performs (.push g d a x) g s → s.ctx.num = 0 → s.me.shadow = none → s.acts s.meKey = [] → s.gemvBefore = false →
      s.pushDesc q = some p → s.launch? s.me.launch = some l → shows s (s.ea a 0) (16 * n) bs →
      exec (.push g d a x) s = .next (if n = 0 then s else
        { withQueue s l.id q (fun c => { c with res := c.res + BitVec.ofNat 32 n }) with
          nextId := s.nextId + n
          pushes := s.pushes ++ (List.range n).map (fun i =>
            ⟨s.nextId + i, l.id, q, (c.tail.toNat + s.pushes.countP (fun e => e.launch == l.id && e.queue == q) + i) % 2 ^ p.logd,
              (bs.drop (16 * i)).take 16, false, 0, s.ctx.core, s.ctx.strand⟩) })

/-- POP and QSTAT. -/
def Sys2Proof.Claims.popTakesEntriesAndQstatCountsThem : Prop :=
  ∀ (g : Guard) (d x : XReg) (s : State) (p : PushDesc) (l : Launch),
    let w := (s.rdX x).toNat
    let q := w % 256
    let n := w / 65536 % 128
    let c := queueOf l q
    let past (c : PushQ) : Word32 := c.head + BitVec.ofNat 32 n
    s.pushDesc q = some p → s.launch? s.me.launch = some l →
    (performs (.pop g d x) g s → s.acts s.meKey = [] → n ≤ (c.tailc - c.head).toNat →
      (∀ i, i < n → (State.ringSlot l p (c.head.toNat + i)).isSome) →
      ∃ u t, exec (.pop g d x) s = .next t ∧
        { u with full := s.full } = withQueue s l.id q (fun c => { c with head := c.head + BitVec.ofNat 32 n, headc := c.head + BitVec.ofNat 32 n }) ∧
        (∀ k, u.full.mem k = (s.full.mem k && !(List.range n).any (fun i => State.ringSlot l p (c.head.toNat + i) == some (16 * k)))) ∧
        OnlyMe u t (withX s.me d (low (past c).toNat))) ∧
    (performs (.pop g d x) g s → (c.tailc - c.head).toNat < n → exec (.pop g d x) s = .next s.wait) ∧
    (performs (.qstat g d x) g s → ∃ t, exec (.qstat g d x) s = .next t ∧
      OnlyMe s t (withX s.me d (BitVec.ofNat 64 (p.logd * 65536 +
        (if (s.rdX x).getLsbD 8 then (c.tailc - c.head).toNat else 2 ^ p.logd - (c.res - c.headc).toNat) % 8192))))

/-- SUSPEND. -/
def Sys2Proof.Claims.suspendWaitsForTheRendezvousOrCompletesIt : Prop :=
  ∀ (g : Guard) (x : XReg) (s : State) (l : Launch),
    let w := BitVec.ofNat 32 (s.rdX x).toNat
    let m := s.modMe (fun u => { u with life := .rendezvous, dep := some w })
    performs (.suspend g x) g s → settled s → s.launch? s.me.launch = some l → l.st = .running → l.status = none →
      (∀ e ∈ State.liveMembers l, (m.strand (State.Member.key e.2)).life ≠ .rendezvous →
        exec (.suspend g x) s = .next m.wait) ∧
      (State.liveMembers l ≠ [] → s.busyLines = [] →
        (∀ e ∈ State.liveMembers l, m.arrived (State.Member.key e.2) = true ∧ (m.strand (State.Member.key e.2)).held = []) →
        ∃ t k, exec (.suspend g x) s = .next t ∧ t.launch? s.me.launch = some k ∧ k.st = .suspended ∧ k.members.length = l.members.length ∧
          (∀ i a, State.liveMembers l = [(i, a)] → State.Member.key a = s.meKey → s.me.levels = Vector.replicate 6 Level.reset →
            s.me.landings = [] → s.me.vland = [] → s.me.parks = [] → (∀ c ∈ s.me.tokens.toList, c.st ≠ .faulted) →
            let masks := s.masksAt l i false s.me.pc
            let old := leNat ((s.sysRead s.me.hc (s.saveVa s.meKey + 104) 8).getD [])
            let r := record s l i w
            ∃ (z : State) (b : Member), { z with strands := s.strands } = s ∧ k.members[i]? = some b ∧ b.record = r ∧ b.dep = some w ∧ b.exited = a.exited ∧
              t.me = State.freedStrand s.meKey s.me ∧
              t.mem = ((saved (s.width (s.meKey / 4)) s.me masks old ++ [(0, r)]).foldl (fun (v : State) (e : Nat × List Byte) => (v.sysWrite s.me.hc (s.saveVa s.meKey + e.1) e.2).getD v) z).mem))

/-- EXIT. -/
def Sys2Proof.Claims.exitEndsItsMember : Prop :=
  ∀ (g : Guard) (s : State) (l : Launch),
    performs (.exit g) g s → settled s → s.mmas = [] → s.me.held = [] → s.entryOwed s.meKey = false → s.me.tokens.all (fun t => t.st != .armed && t.st != .faulted) = true →
      s.launch? s.me.launch = some l → l.status = none →
      let rest := (State.liveMembers l).filter (fun e => e.1 != s.me.member)
      ∃ (t : State) (k : Launch), exec (.exit g) s = .next t ∧ t.launch? l.id = some k ∧
        (rest = [] →
          t.me = State.freedStrand s.meKey { s.me with levels := s.me.levels.map (fun v => { v with run := false }) } ∧ k.status = some (if l.replays = 0 then .done else .replayedDone) ∧
          ∀ (n : Nat) (m : Machine.Member), k.members[n]? = some m → m.exited = true) ∧
        (∀ e ∈ rest, (s.strand (State.Member.key e.2)).life ≠ .rendezvous → State.Member.key e.2 ≠ s.meKey →
          t.me = State.freedStrand s.meKey { s.me with levels := s.me.levels.map (fun v => { v with run := false }) } ∧
          k.status = none ∧ k.st = l.st ∧ t.mem = s.mem ∧ (∀ j, j ≠ s.meKey → t.strand j = s.strand j) ∧
          (∀ n, k.members[n]? = (l.members[n]?).map (fun m => if n = s.me.member then { m with exited := true } else m)) ∧
          ∀ j : Fin 16, k.bars[j] =
            if l.bars[j].1 ≠ 0 ∧ rest.length ≤ l.bars[j].1 then (0, (l.bars[j].2 + 1) % 65536) else l.bars[j])

/-- DICTLD. -/
def Sys2Proof.Claims.dictldLoadsItsWindow : Prop :=
  ∀ (g : Guard) (d : XReg) (a : AReg) (y : XReg) (s : State) (bs : List Byte),
    let w := (s.rdX y).toNat
    let first := w % 8192
    let n := w / 65536 % 512
    let load (v : Window) : Window := if v.base = s.me.wbase then
      { v with changed := true, entries := v.entries.take first ++
          (List.range n).map (fun i => BitVec.ofNat 384 (leNat ((bs.drop (48 * i)).take 48))) ++ v.entries.drop (first + n) } else v
    performs (.dictld g d a y) g s → s.acts s.meKey = [] → s.gemvBefore = false → shows s (s.ea a 0) (48 * n) bs → s.windowShared s.meKey = false →
      ∃ t, exec (.dictld g d a y) s = .next t ∧
        OnlyMe (s.setCore (s.meKey / 4) { s.core (s.meKey / 4) with windows := (s.core (s.meKey / 4)).windows.map load }) t (withX s.me d 0)

/-- TLBINV. -/
def Sys2Proof.Claims.tlbInvalidationsDropTheirLeaves : Prop :=
  ∀ (g : Guard) (a : AReg) (x : XReg) (s : State), s.walks = [] → s.home = [] →
    (∀ e ∈ s.strands, e.2.withheld = []) →
    let drops (t : State) (p : TlbEnt → Bool) : Prop :=
      { t with clusters := s.clusters } = s ∧ ∀ c, t.cluster c = { s.cluster c with tlb := (s.cluster c).tlb.filter (fun e => !p e) }
    (performs (.tlbinvPage g a) g s → ∃ t, exec (.tlbinvPage g a) s = .next t ∧
      drops t (fun e => e.hc == s.me.hc && (if e.big then e.vpage / 2 ^ 14 == s.ea a 0 / 2 ^ 30 else e.vpage == s.ea a 0 / 2 ^ 16))) ∧
    (performs (.tlbinvHc g x) g s → ∃ t, exec (.tlbinvHc g x) s = .next t ∧ drops t (fun e => e.hc == (s.rdX x).toNat)) ∧
    (performs (.tlbinvAll g) g s → ∃ t, exec (.tlbinvAll g) s = .next t ∧ drops t (fun _ => true))

/-- KVLOOK and KVAPP. -/
def Sys2Proof.Claims.kvLookAndAppendActs : Prop :=
  ∀ (s : State) (h key n : Nat),
    let m := (s.hctx h).med
    let seq := key % 2 ^ 32
    let l := key / 2 ^ 32
    let va (b o : Nat) : XWord := m.arena + BitVec.ofNat 64 (65536 * (b - m.base) + o)
    (∀ b, s.mapped h seq l = some b → s.kvLook h key n = .ok (va b (n % 2 ^ 16))) ∧
    (s.mapped h seq l = none → s.kvLook h key n = .error (.code 1)) ∧
    (n = 0 ∨ 2 ^ m.logtpb < n → s.kvApp h key n = .error (.code 10)) ∧
    (∀ b, 1 ≤ n → n ≤ 2 ^ m.logtpb → s.mapped h seq l = some b → s.mapped h seq (l + 1) = none → (s.blk b).ref = 1 →
      (s.blk b).fill + n ≤ 2 ^ m.logtpb → ∃ t, s.kvApp h key n = .ok (va b ((s.blk b).fill * (65536 / 2 ^ m.logtpb)), t) ∧
        { t with blks := s.blks } = s ∧ t.blk b = { s.blk b with fill := (s.blk b).fill + n } ∧ ∀ c, c ≠ b → t.blk c = s.blk c) ∧
    (1 ≤ n → n ≤ 2 ^ m.logtpb → s.mapped h seq l = none →
      let follows : Prop := l = 0 ∨ ∃ p, s.mapped h seq (l - 1) = some p ∧ 2 ^ m.logtpb ≤ (s.blk p).fill
      (¬ follows → s.kvApp h key n = .error (.code 6)) ∧
      (follows → (s.mapped h seq (l + 1)).isSome = true → s.kvApp h key n = .error (.code 7)) ∧
      (follows → s.mapped h seq (l + 1) = none →
        (s.takeBlock h = none → s.kvApp h key n = .error (.code 2)) ∧
        (∀ b t, s.takeBlock h = some (b, t) →
          (t.insertMap ⟨h, seq, l⟩ b = none → s.kvApp h key n = .error (.code 3)) ∧
          (∀ u, t.insertMap ⟨h, seq, l⟩ b = some u → ∃ v, s.kvApp h key n = .ok (va b 0, v) ∧
            { v with blks := u.blks } = u ∧ v.blk b = { u.blk b with seq := BitVec.ofNat 32 seq, lblk := l, fill := n } ∧
            ∀ c, c ≠ b → v.blk c = u.blk c)))) ∧
    (∀ b, 1 ≤ n → n ≤ 2 ^ m.logtpb → s.mapped h seq l = some b →
      ((s.mapped h seq (l + 1)).isSome = true → s.kvApp h key n = .error (.code 7)) ∧
      (s.mapped h seq (l + 1) = none → 2 ^ m.logtpb < (s.blk b).fill + n → s.kvApp h key n = .error (.code 5)) ∧
      (s.mapped h seq (l + 1) = none → (s.blk b).fill + n ≤ 2 ^ m.logtpb → (s.blk b).ref ≠ 1 →
        (s.takeBlock h = none → s.kvApp h key n = .error (.code 2)) ∧
        (∀ b2 t v, s.takeBlock h = some (b2, t) → b2 ≠ b →
          t.copyBlock h b b2 ((s.blk b).fill * (65536 / 2 ^ m.logtpb)) = .ok v →
          ∃ u, s.kvApp h key n = .ok (va b2 ((s.blk b).fill * (65536 / 2 ^ m.logtpb)), u) ∧
            Copied v u h seq l b b2 ((s.blk b).fill + n)))) ∧
    (m.nfree = 0 → s.takeBlock h = none) ∧
    (m.nfree ≠ 0 → (s.blk m.freehead).st ≠ .retired → ∃ t, s.takeBlock h = some (m.freehead, t) ∧
      t.med h = { m with freehead := (s.blk m.freehead).next, nfree := m.nfree - 1 } ∧
      t.blk m.freehead = { s.blk m.freehead with st := .live, ref := 1, fill := 0, hc := h } ∧
      (∀ c, c ≠ m.freehead → t.blk c = s.blk c) ∧ { t with blks := s.blks, ctxs := s.ctxs } = s)

/-- A mapping inserted is found. -/
def Sys2Proof.Claims.insertedMappingsAreFound : Prop :=
  ∀ (s t : State) (k : MKey) (b : Nat), s.findMap k = none → s.insertMap k b = some t →
    (t.findMap k).map (·.2) = some b ∧ { t with slots := s.slots, cells := s.cells } = s ∧
    ∀ j, j ≠ k → ∀ c, (s.findMap j).map (·.2) = some c → (t.findMap j).map (·.2) = some c

/-- KVTRUNC. -/
def Sys2Proof.Claims.kvTruncKeepsAShortSequence : Prop :=
  ∀ (s : State) (h seq c : Nat),
    let tpb := 2 ^ (s.hctx h).med.logtpb
    let k := c / tpb
    let keep := c % tpb
    let bs := s.blocksOf h seq
    let length := (bs.map (fun b => (s.blk b).fill)).sum
    let first := if keep = 0 then k else k + 1
    let t := withoutBlocks h seq (bs.zipIdx.drop first).reverse s
    let n := bs.length - first
    (length ≤ c → s.kvTrunc h seq c = .ok (0, s)) ∧
    (c < length → (keep = 0 ∨ t.mapped h seq k = none → s.kvTrunc h seq c = .ok (n, t)) ∧
      (∀ b, keep ≠ 0 → t.mapped h seq k = some b →
        ((t.blk b).fill ≤ keep → s.kvTrunc h seq c = .ok (n, t)) ∧
        (keep < (t.blk b).fill → (t.blk b).ref = 1 → ∃ u, s.kvTrunc h seq c = .ok (n, u) ∧ { u with blks := t.blks } = t ∧
          u.blk b = { t.blk b with fill := keep } ∧ ∀ d, d ≠ b → u.blk d = t.blk d) ∧
        (keep < (t.blk b).fill → (t.blk b).ref ≠ 1 →
          (t.takeBlock h = none → s.kvTrunc h seq c = .error (.code 2)) ∧
          (∀ b2 x v, t.takeBlock h = some (b2, x) → b2 ≠ b → x.copyBlock h b b2 (keep * (65536 / tpb)) = .ok v →
            ∃ u, s.kvTrunc h seq c = .ok (n, u) ∧ Copied v u h seq k b b2 keep))))

/-- Sharing, and KVFORK. -/
def Sys2Proof.Claims.sharedBlocksGainOneReferenceEach : Prop :=
  ∀ (s : State) (h seq w : Nat) (bs : List Nat),
    let n := w / 2 ^ 32 % 2 ^ 20
    let parent := s.blocksOf h (w % 2 ^ 32)
    (∀ t, s.share h seq bs = .ok t →
      (∀ b, (t.blk b).ref = (s.blk b).ref + bs.count b ∧ (t.blk b).fill = (s.blk b).fill ∧ (t.blk b).st = (s.blk b).st) ∧
      ((∀ i, s.mapped h seq i = none) → ∀ i b, bs[i]? = some b → t.mapped h seq i = some b) ∧
      { t with blks := s.blks, slots := s.slots, cells := s.cells } = s) ∧
    ((s.mapped h seq 0).isSome = true → s.share h seq bs = .error (.code 7)) ∧
    (s.mapped h seq 0 = none → (∃ b ∈ bs, 65535 ≤ (s.blk b).ref) → s.share h seq bs = .error (.code 4)) ∧
    (n = 0 → s.kvFork h seq w = .error (.code 10)) ∧
    (n ≠ 0 → parent.length < n → s.kvFork h seq w = .error (.code 1)) ∧
    (n ≠ 0 → n ≤ parent.length →
      (∀ t, s.share h seq (parent.take n) = .ok t → s.kvFork h seq w = .ok (low n, t)) ∧
      (∀ e, s.share h seq (parent.take n) = .error e → s.kvFork h seq w = .error e))

/-- Dropping. -/
def Sys2Proof.Claims.droppedBlocksReturnToTheFreeList : Prop :=
  ∀ (s : State) (h b : Nat),
    let e := s.blk b
    let t := s.dropRef h b
    (2 ≤ e.ref → t.blk b = { e with ref := e.ref - 1 } ∧ t.med h = s.med h) ∧
    (e.ref = 1 → e.st = .live → t.blk b = { e with ref := 0, st := .free, next := (s.med h).freehead } ∧
      t.med h = { s.med h with freehead := b, nfree := (s.med h).nfree + 1 }) ∧
    (e.ref = 1 → e.st = .retired → t.blk b = { e with ref := 0 } ∧ t.med h = s.med h) ∧
    (∀ c, c ≠ b → t.blk c = s.blk c)

/-- KVFREE. -/
def Sys2Proof.Claims.kvfreeDropsMappingsHighestFirst : Prop :=
  ∀ (g : Guard) (x y : XReg) (s : State) (b : Nat),
    let i : Instr := .kvfree g x y
    let u := acting i s
    let seq := (s.rdX x).toNat
    performs i g s → tablesReady s i →
      (s.blocksOf s.me.hc seq = [] → exec i s = .next u) ∧
      (s.blocksOf s.me.hc seq = [b] → (s.rdX y).toNat % 2 ^ 20 = 0 →
        exec i s = .next ((u.removeMap ⟨s.me.hc, seq, 0⟩).dropRef s.me.hc b))

/-- On an open, acknowledged stream. -/
def Sys2Proof.Claims.streamActsOnAnAcknowledgedStream : Prop :=
  ∀ (s : State) (h sid c token : Nat) (dh : Word32),
    let e := s.strm sid
    s.streamOpen h sid = true → State.streamBegin h sid s = .ok s → s.dheadOf h sid = .ok dh → (s.hctx h).med.count = 0 →
    s.homeFree (State.medLine h) = true → s.homePoison (State.medLine h) = false →
      (e.g.toNat < c → State.struncAct h sid c s = .error (.code 10)) ∧
      (c ≤ e.g.toNat → c < max e.sbase.toNat (max (e.g.toNat - 64) e.iend.toNat) → State.struncAct h sid c s = .error (.code 11)) ∧
      (c = e.g.toNat → max e.sbase.toNat (max (e.g.toNat - 64) e.iend.toNat) ≤ c →
        ∃ t, State.struncAct h sid c s = .ok (low c, t) ∧ t.strm sid = { e with pend := 0, held := false } ∧
          { t with streams := s.streams, ctxs := s.ctxs } = s) ∧
      (∀ m, c < e.g.toNat → max e.sbase.toNat (max (e.g.toNat - 64) e.iend.toNat) ≤ c →
        State.snapCopy h ((e.snva.toNat + c % 64 * (64 * e.snb)) % 2 ^ 72) e.stva.toNat (64 * e.snb) s = .ok m → m.streams = s.streams →
        let e' : StreamE := { e with pend := 0, held := false, epoch := e.epoch + 1, p := BitVec.ofNat 32 (min e.p.toNat c) }
        let x : State := (m.unhold h sid).modStrm sid (fun _ => e')
        ∀ dh', x.dheadOf h sid = .ok dh' →
        (2 ^ e.dlog - 1 < (e.dtail - dh').toNat → ∃ t, State.struncAct h sid c s = .ok (low c, t) ∧
          t.strm sid = { e' with g := BitVec.ofNat 32 c, prevv := true, prev := BitVec.ofNat 32 (if e.prevv then min e.prev.toNat c else c) } ∧
          { t with streams := x.streams } = x) ∧
        (∀ y z, (e.dtail - dh').toNat ≤ 2 ^ e.dlog - 1 →
          x.actWrite h ((e.dva.toNat + 128 + 16 * (e.dtail.toNat % 2 ^ e.dlog)) % 2 ^ 72) 16 (c * 2 ^ 96 + (e.epoch + 1).toNat * 2 ^ 48 + 2) = .ok y →
          y.streams = x.streams →
          (y.modStrm sid (fun d => { d with dtail := d.dtail + 1 })).actWrite h e.dva.toNat 4 (e.dtail + 1).toNat = .ok z →
          ∃ t, State.struncAct h sid c s = .ok (low c, t) ∧ t = z.modStrm sid (fun d => { d with g := BitVec.ofNat 32 c }))) ∧
      (e.held = true → sid < 4096 → State.scommitAct h sid token s = .error (.code 9)) ∧
      (e.held = false → sid < 4096 → e.holdev = false → e.prevv = true →
        ∃ t, State.scommitAct h sid token s = .ok (low (e.g.toNat + 2 ^ 62), t) ∧
          t.strm sid = { e with pend := BitVec.ofNat 32 token, held := true } ∧
          (t.hctx h).held = (s.hctx h).held + 1 ∧ { t with streams := s.streams, ctxs := s.ctxs } = s) ∧
      (∀ m, e.held = false → sid < 4096 →
        State.snapCopy h e.stva.toNat ((e.snva.toNat + e.g.toNat % 64 * (64 * e.snb)) % 2 ^ 72) (64 * e.snb) s = .ok m →
        m.streams = s.streams →
        ∃ t, State.scommitAct h (sid + 4096) token s = .ok (low e.g.toNat, t) ∧
          t.strm sid = { e with iend := e.g + 1, g := e.g + 1 } ∧ { t with streams := m.streams } = m)

/-- On a closed stream. -/
def Sys2Proof.Claims.closedStreamsReportClosed : Prop :=
  ∀ (s : State) (h sid c token w : Nat), sid < 4096 → s.streamOpen h sid = false →
    State.struncAct h sid c s = .error (.code 12) ∧ State.scommitAct h sid token s = .error (.code 12) ∧
    (w % 4096 = sid → State.sframeAct h w s = .error (.code 12))

/-- SFRAME. -/
def Sys2Proof.Claims.sframeTakesTheFramesThatFit : Prop :=
  ∀ (g : Guard) (d : XReg) (a : AReg) (y : XReg) (s : State) (addr : Nat),
    let i : Instr := .sframe g d a y
    let u := acting i s
    let w := (s.rdX y).toNat
    performs i g s → tablesReady s i → spotOf s.ctx.core (s.ea a 0) = .scr addr →
      (∀ n, State.sframeAct s.me.hc w u = .error (.code n) → ∃ t, exec i s = .next t ∧ OnlyMe u t (withX s.me d (failure n))) ∧
      (∀ ts m, State.sframeAct s.me.hc w u = .ok (ts, m) → m.ctx = s.ctx → m.bankHeld addr (4 * ts.length) = false →
        atOnce m addr → m.ownBank addr = true ∨ ts ≠ [] →
        ∃ v t, exec i s = .next t ∧ Stored m v addr (ts.flatMap (leBytes 4)) none ∧
          OnlyMe v t (withX m.me d (low (ts.length + (m.strm (w % 4096)).g.toNat * 2 ^ 32))))

/-- BTSNAP. -/
def Sys2Proof.Claims.btsnapStoresItsRecordsAndLatchesTheBatch : Prop :=
  ∀ (g : Guard) (a : AReg) (y : XReg) (s : State),
    let i : Instr := .btsnap g a y
    let u := acting i s
    let h := s.me.hc
    let va := s.ea a 0
    let nr := (s.rdX y).toNat
    performs i g s → u.tableReady = true → spotOf s.ctx.core va ≠ .trans → (∀ q ∈ s.home, q.kind ≠ .turn) →
      (∀ (st : Nat → State) (rs : Nat → List Byte), s.ctx.num = 0 → st 0 = u → rs 0 = [] →
        (∀ r, r < nr → (st r).me.hc = h ∧ (∀ q ∈ (st r).home, q.kind ≠ .turn) ∧ rowRan h va r (st r) (rs r) (st (r + 1)) (rs (r + 1))) →
        ∃ t, exec i s = .next t ∧ OnlyMe (st nr) t (latched (st nr).me (rs nr))) ∧
      (∀ o, s.ctx.num ≠ 0 → s.me.ops.find? (fun q => q.num == s.ctx.num) = some o →
        let recs := o.got.getD []
        (nr ≤ o.acts → ∃ t, exec i s = .next t ∧ OnlyMe u t (latched s.me recs)) ∧
        (∀ m, o.acts < nr → State.rowAct h o.acts u = .ok (none, m) → m.ctx = s.ctx →
          ∃ t, exec i s = .next t ∧ OnlyMe m.wait t (oneRowMore m.me s.ctx.num recs)) ∧
        (∀ x dr m addr, o.acts < nr → State.rowAct h o.acts u = .ok (some (x, dr), m) → m.ctx = s.ctx →
          spotOf s.ctx.core (va + recs.length) = .scr addr → m.bankHeld addr 48 = false → atOnce m addr →
          ∃ v t, exec i s = .next t ∧ Stored m v addr (leBytes 48 x) none ∧
            OnlyMe v.wait t (oneRowMore m.me s.ctx.num (recs ++ leBytes 48 x))))

/-- OBSEL. -/
def Sys2Proof.Claims.obselWritesTheBucketsEntry : Prop :=
  ∀ (g : Guard) (d : BReg) (s : State) (im : Image) (bks : List Bucket) (b : Bucket),
    let i : Instr := .obsel g d
    let covers (c : Bucket) : Prop := c.valid = true ∧ s.front.occ.toNat ≤ c.occl ∧ s.front.draft.toNat ≤ c.draftl
    performs i g s → tablesReady s i → s.image? s.me.image = some im → im.buckets = some bks → b ∈ bks → covers b →
      ∃ t c, exec i s = .next t ∧ c ∈ bks ∧ covers c ∧
        (∀ e ∈ bks, covers e → c.occl < e.occl ∨ (c.occl = e.occl ∧ c.draftl ≤ e.draftl)) ∧
        OnlyMe (acting i s) t (withB s.me d c.entry)

/-- The forms that change the strand alone. -/
def Sys2Proof.Claims.counterFormsChangeTheirStrandAlone : Prop :=
  ∀ (i : Instr) (g : Guard) (s : State) (u : Strand),
    i.guard? = some g → counterForm s i = some u → counterFits s i → performs i g s → ∃ t, exec i s = .next t ∧ OnlyMe s t u

/-- CNTRD of thermal time. -/
def Sys2Proof.Claims.counterReadsOfThermalTimeAddAFreeValue : Prop :=
  ∀ (g : Guard) (d x : XReg) (s : State) (n : Nat), (s.rdX x).toNat = 0x90 + n → 1 ≤ n → n ≤ 4 → performs (.cntrd g d x) g s →
    let old := s.plat.thermal.ttime.toList.getD (n - 1) 0
    let v := (Config.freeValue s.fresh).toNat
    let r : BitVec 64 := if s.plat.thermal.level < n then old else if 2 ^ 64 ≤ old.toNat + v then BitVec.allOnes 64 else old + BitVec.ofNat 64 v
    ∃ t, exec (.cntrd g d x) s = .next t ∧ t.me = withX s.me d r ∧ t.plat.thermal.ttime.toList.getD (n - 1) 0 = r ∧
      { t with strands := s.strands, plat := s.plat, fresh := s.fresh } = s

/-- BAR. -/
def Sys2Proof.Claims.barArrivesAndTheLastArrivalEndsTheGeneration : Prop :=
  ∀ (g : Guard) (x : XReg) (s : State) (l : Launch),
    let b := (s.rdX x).toNat
    let old (k : Nat) : Nat × Nat := l.bars.toList.getD k (0, 0)
    let n := (State.liveMembers l).length
    performs (.bar g x) g s → b < 16 → s.launch? s.me.launch = some l → 0 < n → (∀ k, k < 16 → (old k).1 < n) →
      ∃ (t : State) (l' : Launch), exec (.bar g x) s = .next t ∧ t.launch? l.id = some l' ∧
        t.me = { s.me with barWait := some (b, (old b).2) } ∧
        l'.bars.toList.getD b (0, 0) = (if (old b).1 + 1 = n then (0, ((old b).2 + 1) % 65536) else ((old b).1 + 1, (old b).2)) ∧
        (∀ k, k < 16 → k ≠ b → l'.bars.toList.getD k (0, 0) = old k) ∧
        { t with strands := s.strands, launches := s.launches } = s

/-- LNSRUN. -/
def Sys2Proof.Claims.loopLevelsRunOrSkipTheirBody : Prop :=
  ∀ (g : Guard) (x : XReg) (s : State),
    let k := (s.rdX x).toNat
    let c := (levelOf s.me k).ctl.toNat
    let first := stepsOn s.stream 1 s.me.pc
    let last := stepsOn s.stream (c % 512) s.me.pc
    let div := 2 ^ (c / 2 ^ 39 % 16)
    let n := if (levelOf s.me k).ctl.getLsbD 43 then (s.front.seqlen.toNat + div - 1) / div else c / 2 ^ 44
    performs (.lnsrun g x) g s → k < 6 → 1 ≤ c % 512 →
      (n = 0 → ∃ t, exec (.lnsrun g x) s = .next t ∧ OnlyMe s t { s.me with pc := stepsOn s.stream (c % 512 + 1) s.me.pc }) ∧
      (n ≠ 0 → ∃ t, exec (.lnsrun g x) s = .next t ∧ OnlyMe s t (withLevel s.me k (fun l =>
        { l with run := true, brk := false, iter := 0, trip := BitVec.ofNat 20 n, first := first, last := last })))

/-- TRAP. -/
def Sys2Proof.Claims.trapHoldsTheStrandAndRaisesItsRecord : Prop :=
  ∀ (g : Guard) (n : Imm) (s : State), s.ctx.admitted = false → s.pendingWait false (.trap g n) = false → s.holds g = true →
    ∃ t, exec (.trap g n) s = .next t ∧
      t.me = { s.me with trap := some ⟨8, naturalImm n, 0, s.ctx.slot⟩, holds := s.me.holds + 1 } ∧ t.ctx = { s.ctx with res := .stopped } ∧
      (∀ k, k ≠ s.meKey → t.strand k = s.strand k) ∧
      ((s.hctx s.me.hc).waiting ≠ [] → ∃ r, (t.hctx s.me.hc).waiting = (s.hctx s.me.hc).waiting ++ [r] ∧
        r.code = 8 ∧ r.aux = naturalImm n ∧ r.cls = 2 ∧ r.bundle = s.ctx.bundle.toNat ∧ r.slot = s.ctx.slot)

/-- RESUME. -/
def Sys2Proof.Claims.resumeReturnsFromATrapOrAHeldFault : Prop :=
  ∀ (g : Guard) (x : XReg) (s : State) (p : PendFault) (c n : Nat),
    let i : Instr := .resume g x
    let w := s.rdX x
    let h := s.me.hc
    let k := strandKey c n
    let freed := s.setHctx h { s.hctx h with pend := (s.hctx h).pend.filter (fun q => q.entry != p.entry) }
    performs i g s →
      ((s.hctx h).pend.find? (fun q => q.handle == w.toNat % 2 ^ 32) = none → exec i s = .next s) ∧
      ((s.hctx h).pend.find? (fun q => q.handle == w.toNat % 2 ^ 32) = some p → (s.core c).halt = 0 → w.getLsbD 32 = false →
        (p.subj = .trap c n → exec i s = .next (freed.setStrand k { s.strand k with
          trap := none, skipNext := w.getLsbD 33, holds := (s.strand k).holds - 1 })) ∧
        (∀ num o, p.subj = .op c n num → w.getLsbD 33 = false → (s.strand k).ops.find? (fun q => q.num == num) = some o →
          let es := extents (freed.forOp k o) o.instr
          let forgotten (e : TlbEnt) : Bool := e.hc == (s.strand k).hc &&
            (es.isEmpty || es.any (fun x => (State.pagesOf x.va x.len).any (fun a => State.leafCovers e (s.strand k).hc a.1)))
          ∃ t, exec i s = .next t ∧ { t with clusters := s.clusters } = freed.setStrand k { s.strand k with
            ops := (s.strand k).ops.map (fun o => if o.num = num then { o with stage := .queued } else o)
            holds := (s.strand k).holds - 1 } ∧
            ∀ cl, t.cluster cl = if cl = k / 16 then { s.cluster cl with tlb := (s.cluster cl).tlb.filter (fun e => !forgotten e) }
              else s.cluster cl))

/-- Starting and completing at an engine. -/
def Sys2Proof.Claims.enginesStartAndComplete : Prop :=
  ∀ (c : Fin 128) (n : Fin 4) (e : Engine) (defer : Bool) (s : State) (o : QOp),
    let k := strandKey c.val n.val
    let u := s.strand k
    let o' : QOp := { o with cap := if (State.engineRefs (·.rd) o.instr).isEmpty || o.cap.isSome then o.cap else some u.eng }
    let y := (s.setStrand k { u with ops := [o'] }).forOp k o'
    let z : State := { y with ctx := { y.ctx with defer := defer } }
    let left (m : State) : Strand := { m.strand k with ops := (m.strand k).ops.filter (fun q => q.num != o.num) }
    u.ops = [o] → o.eng = e → u.vland = [] → (encode o.instr).isSome = true → o.instr.tile? = none → State.isSuspend o = false →
      (o.stage = .queued → o.guard = some true → (s.core c.val).halt = 0 → State.ordered o = false → readsMem o.instr = false → laneEngine e →
        ∃ t, exec (.engineOpStart c n e defer) s = .next t ∧
          OnlyStrand s.idle t k { u with ops := [{ o with cap := some (o.cap.getD u.eng), stage := .started }] }) ∧
      (∀ g, o.stage = .queued → o.guard = none → o.instr.guard? = some g → (s.core c.val).halt = 0 → s.mmas = [] →
        State.isPending u (.p g.p.val) = false → ((g.p == 0 || u.front.p[g.p.val]) != g.neg) = false →
        ∃ t, exec (.engineOpStart c n e defer) s = .next t ∧ (t.strand k).ops = [] ∧
          (t.strand k).front = u.front ∧ (t.strand k).eng = u.eng ∧ t.mem = s.mem ∧ ∀ j, j ≠ k → t.strand j = s.strand j) ∧
      (∀ m, o.stage = .queued → o.guard = some true → (s.core c.val).halt = 0 → s.copies = [] → s.gemvs = [] →
        (∀ r ∈ s.home, State.sentAct k r = none) → e = .a ∨ e = .c ∨ e = .q →
        State.isBankmode o.instr = false → exec o.instr (z.noteSide o.instr) = .next m → (m.strand k).vland = [] →
        (m.ctx.res = .done → ∃ t, exec (.engineOpStart c n e defer) s = .next t ∧ OnlyStrand m.idle t k (left m)) ∧
        (m.ctx.res = .waiting → ∃ t, exec (.engineOpStart c n e defer) s = .next t ∧
          OnlyStrand m.idle t k { m.strand k with ops := (m.strand k).ops.map (fun q =>
            if q.num ≠ o.num then q
            else if State.sendsOn o.instr && m.readsAway k o.num then { q with stage := .sent }
            else if q.stage = .sent then { q with stage := .queued } else q) }) ∧
        (m.ctx.res ≠ .done → m.ctx.res ≠ .waiting → exec (.engineOpStart c n e defer) s = .next m.idle)) ∧
      (∀ m, o.stage = .started → laneEngine e → s.mmas = [] → s.writesHeld k (s.actOf k o) = false →
        exec o.instr (s.forOp k o) = .next m → m.ctx.res = .done → (m.strand k).vland = [] →
        ∃ t, exec (.engineOpComplete c n e) s = .next t ∧ OnlyStrand m.idle t k (left m))

/-- Arrival of landing data, the end of a walk, a request at its home, the end of a bank-mode change. -/
def Sys2Proof.Claims.dataWalksAndHomesArrive : Prop :=
  ∀ (c : Fin 128) (n : Fin 4) (cl : Fin 32) (b : Fin 128) (num line : Nat) (s : State),
    let k := strandKey c.val n.val
    (∃ t, exec (.landingDataArrival c n num) s = .next t ∧ OnlyStrand s t k { s.strand k with
      landings := (s.strand k).landings.map (fun l => if l.num = num ∧ l.data.isSome = true then { l with arrived := true } else l) }) ∧
    (∀ w e, s.walks = [w] → s.walk w.hc w.va = some e → (s.cluster w.cluster).tlb = [] →
      ∃ t, exec (.tlbWalkComplete 0) s = .next t ∧ t.walks = [] ∧ t.cluster w.cluster = { s.cluster w.cluster with tlb := [e] } ∧
        (∀ j, j ≠ strandKey w.core w.strand → t.strand j = s.strand j) ∧
        (t.strand (strandKey w.core w.strand)).ops = (s.strand (strandKey w.core w.strand)).ops.map (fun o =>
          if o.num = w.num ∧ o.stage = .walking then { o with stage := .queued } else o) ∧
        { t with walks := s.walks, clusters := s.clusters, strands := s.strands } = s) ∧
    (∀ w o, s.walks = [w] → s.walk w.hc w.va = none → (s.strand (strandKey w.core w.strand)).ops = [o] → o.num = w.num →
      o.stage = .walking → w.strand < 4 →
      (∀ g tk d a t, o.instr ≠ .gemv g tk d a t) →
      ∃ t, exec (.tlbWalkComplete 0) s = .next t ∧ t.walks = [] ∧ (t.strand (strandKey w.core w.strand)).ops = [{ o with stage := .faulted }] ∧
        (t.strand (strandKey w.core w.strand)).holds = (s.strand (strandKey w.core w.strand)).holds + 1) ∧
    (∀ q bs, s.home = [q] → q.kind = .write bs false → q.addr / 64 = line → q.addr % 64 + bs.length ≤ 64 → s.agent = [] → q.pclass ≠ 1 →
      State.pkind (line * 64) ≠ .host → s.copies = [] → s.gemvs = [] →
      (s.busyLines.mem line = false → ∃ m, exec (.homeRequestRun line) s = .next (m.noteWrite q.addr bs.length) ∧
        OnlyMem { s with home := [] } m q.addr bs) ∧
      (s.busyLines.mem line = true → exec (.homeRequestRun line) s = .next s)) ∧
    (∀ x, (s.bank cl.val b.val).chg = some x → x.strand = none → (s.bank cl.val b.val).mode ≠ 1 → (s.bank cl.val b.val).mode ≠ x.mode →
      s.bankInUse cl.val b.val x = false →
      let base := bankAddr cl.val (b.val * 65536)
      ∃ t, exec (.bankModeChange cl b) s = .next t ∧
        t.bank cl.val b.val = { s.bank cl.val b.val with
          mode := x.mode, owner := if x.mode = 1 then none else x.owner, chg := none, fhead := 0, ftail := 0 } ∧
        (∀ a, t.mem.read a = if base ≤ a ∧ a < base + 65536 then 0 else s.mem.read a) ∧
        (∀ g, t.full.mem g = (s.full.mem g && !decide (base / 16 ≤ g ∧ g < base / 16 + 4096))) ∧
        (∀ g, t.poison.mem g = (s.poison.mem g && !decide (base / 16 ≤ g ∧ g < base / 16 + 4096))))

/-- Copies, GEMVs and the copy schedule. -/
def Sys2Proof.Claims.copyEvents : Prop :=
  ∀ (s : State) (core : Fin 128) (strand : Fin 4),
    let k := strandKey core.val strand.val
    let u := s.strand k
    let z := asStrand s k
    let home (o : Nat) : Nat := bankAddr (core.val / 4) (32 * (core.val % 4) * 65536 + o)
    (∀ x, (s.core x).halt = 0) → s.mmas = [] → s.home = [] → s.replies = [] → s.poison = [] → u.withheld = [] →
    (∀ c so do_, s.copies = [c] → c.core = core.val → c.strand = strand.val → c.faulted = false → s.copyWaits c = false → s.copyHeld c = false →
      c.kind = .plain → c.next = 0 → c.missing = [] → c.carry = [] → c.halves = [] → c.bytes = 0 → c.data = none → c.addw = false → 1 ≤ c.len → c.len ≤ 4096 →
      c.src.toNat = spadVa + so → c.dst.toNat = spadVa + do_ → so + c.len ≤ 2 ^ 21 → do_ + c.len ≤ 2 ^ 21 →
      ∃ t, exec (.copyComplete c.id) s = .next t ∧ t.copies = [] ∧
        (∀ x, t.mem.read x = if home do_ ≤ x ∧ x < home do_ + c.len then s.mem.read (home so + (x - home do_)) else s.mem.read x) ∧
        (∀ g, t.full.mem g = (s.full.mem g || decide (home do_ / 16 ≤ g ∧ 16 * g < home do_ + c.len))) ∧
        OnlyStrand { s with mem := t.mem, full := t.full, poison := t.poison, copies := [], ctx := t.ctx } t k
          (withFlags (withTok u c.tok .done c.len) c.fl)) ∧
    (∀ c w x y do_, s.gemvs = [c] → c.core = core.val → c.strand = strand.val → c.faulted = false →
      s.blocked k (s.gemvAct c) = false → 1 ≤ c.n → c.dst.toNat = spadVa + do_ → do_ + 4 * c.n ≤ 2 ^ 21 →
      (c.out = none → 1 ≤ c.k →
        shows z c.wva.toNat (c.n * c.k) w → shows z c.sva.toNat (c.n * (c.k / 32)) x → shows z c.input.toNat (c.k + c.k / 32) y →
        spotOf core.val c.wva.toNat = .trans → spotOf core.val c.sva.toNat = .trans → (∃ a, spotOf core.val c.input.toNat = .scr a) →
        let row (r : Nat) : Word32 × Fl := gemvRow z c w x y r
        ∃ t, exec (.gemvComplete c.id) s = .next t ∧ { t with gemvs := s.gemvs, ctx := s.ctx } = s ∧
          t.gemvs = [{ c with out := some ((List.range c.n).flatMap (fun r => leBytes 4 (row r).1.toNat),
            (List.range c.n).foldl (fun f r => f ||| (row r).2) 0) }]) ∧
      (∀ bs fl, c.out = some (bs, fl) → bs.length = 4 * c.n → s.writesHeld k (s.gemvAct c) = false →
        ∃ t, exec (.gemvComplete c.id) s = .next t ∧ t.gemvs = [{ c with out := some ([], fl) }] ∧
          (∀ b, t.mem.read b = if home do_ ≤ b ∧ b < home do_ + 4 * c.n then bs.getD (b - home do_) 0 else s.mem.read b) ∧
          OnlyStrand { s with gemvs := t.gemvs, mem := t.mem, full := t.full, poison := t.poison, ctx := t.ctx } t k
            (match c.tok with
              | some i => if u.tokens[i].st = .armed then withTok u c.tok .armed (4 * c.n) else u
              | none => u)) ∧
      (∀ fl, c.out = some ([], fl) → ∃ t, exec (.gemvComplete c.id) s = .next t ∧
        OnlyStrand { s with gemvs := [] } t k (withTok (withFlags u fl) c.tok .done (4 * c.n)))) ∧
    (∀ e, s.schedEntry k = some e → u.life = .running →
      (u.schedOcArm = none → u.front.scnt.toNat < e.stage → exec (.copyschedEntryStart core strand) s = .next s) ∧
      (u.schedOcArm = some [] → u.schedTok = true → e.len ≠ 0 →
        (entering s k).copyStop State.copyReach (s.schedSpan k e).1 (s.schedSpan k e).2 e.len e.len e.len e.port.toNat e.addw = none →
        ∃ t c, exec (.copyschedEntryStart core strand) s = .next t ∧ t.copies = s.copies ++ [c] ∧ c.kind = .plain ∧ c.len = e.len ∧
          c.src = BitVec.ofNat 72 (s.schedSpan k e).1 ∧ c.dst = BitVec.ofNat 72 (s.schedSpan k e).2 ∧ c.tok = e.tok ∧ c.slot = 9 ∧
          c.port = e.port.toNat ∧ c.addw = e.addw ∧ c.launch = u.launch ∧
          ((entering s k).schedReleased k = false → (t.strand k).tokens = (withTok u e.tok .armed 0).tokens) ∧
          (t.strand k).schedNext = u.schedNext + 1 ∧ (t.strand k).front = u.front ∧ t.mem = s.mem))

/-- The two events of a matrix operation, and the delivery of a push entry. -/
def Sys2Proof.Claims.matrixAndPushEvents : Prop :=
  ∀ (s : State),
    (∀ m, s.mmas = [m] → m.consumed = false → s.mmaStarted m = true →
      ∃ t, exec (.mmaOperandsConsumed m.id) s = .next t ∧ t.mmas = [{ m with consumed := true }] ∧
        (∀ cl b, b < 128 → t.bank cl b = { s.bank cl b with lock := (s.bank cl b).lock - m.banks.count (cl * 128 + b) }) ∧
        (∀ k, { t.strand k with schedOcArm := (s.strand k).schedOcArm } = s.strand k) ∧
        { t with mmas := s.mmas, clusters := s.clusters, strands := s.strands } = s) ∧
    (∀ (m : Mma) (c : Fin 128) (n : Fin 4) (q : QOp), s.mmas = [m] → m.width ≤ 4 → m.m ≤ 64 → m.n ≤ 64 * m.width → m.core = c.val → m.strand = n.val →
      (s.strand (strandKey c.val n.val)).ops = [q] → q.eng = .m → q.stage = .started → q.num = m.num → s.mmaHeld m = false →
      m.chunk + 1 < m.fmt.chunks m.k →
      let o : MatOp := ⟨m.width, m.trans, m.fmt, m.k, m.opA, m.opB⟩
      let new (r c : Nat) : Word32 × Fl := o.element m.chunk (m.chunk + 1) r c (BitVec.ofNat 32 (leNat (s.mem.readN (accAddr m.core m.tile r c) 4)))
      ∃ t, exec (.engineOpComplete c n .m) s = .next t ∧ OnlyElements s t m.core m.tile m.m m.n (fun r c => (new r c).1) ∧
        t.mmas = [{ m with chunk := m.chunk + 1, fl := m.fl ||| (List.range m.m).foldl (fun x r => (List.range m.n).foldl (fun y c => y ||| (new r c).2) x) 0 }] ∧
        { t with mem := s.mem, mmas := s.mmas } = s) ∧
    (∀ m, s.mmas = [m] → m.consumed = true → m.width ≤ 4 → m.m ≤ 64 → m.n ≤ 64 * m.width → s.mmaHeld m = false →
      let o : MatOp := ⟨m.width, m.trans, m.fmt, m.k, m.opA, m.opB⟩
      let k := strandKey m.core m.strand
      let new (r c : Nat) : Word32 × Fl := o.element m.chunk (m.fmt.chunks m.k) r c (BitVec.ofNat 32 (leNat (s.mem.readN (accAddr m.core m.tile r c) 4)))
      let fl := (List.range m.m).foldl (fun x r => (List.range m.n).foldl (fun y c => y ||| (new r c).2) x) (0 : Fl)
      ∃ t, exec (.mmaComplete m.id) s = .next t ∧ OnlyElements s t m.core m.tile m.m m.n (fun r c => (new r c).1) ∧ t.mmas = [] ∧
        t.core m.core = { s.core m.core with busy := (s.core m.core).busy.filter (fun x => x != m.tile) } ∧
        OnlyStrand { s with mem := t.mem, mmas := [], cores := t.cores } t k
          { withFlags (s.strand k) (m.fl ||| fl) with ops := (s.strand k).ops.filter (fun q => q.num != m.num) }) ∧
    (∀ e l im p a, s.pushes = [e] → s.launch? e.launch = some l → s.image? l.image = some im → im.push[e.queue]? = some (some p) →
      State.ringSlot l p e.slot = some a → s.pushWithheld e = false → s.mmas = [] → (∀ c, (s.core c).halt = 0) →
      e.bytes.length = 16 → e.poison = false →
      ∃ v, OnlyBytes { s with pushes := [] } v a e.bytes (some true) ∧
        exec (.pushDelivery e.id) s = .next (withQueue v e.launch e.queue (fun c => { c with tail := c.tail + 1, tailc := c.tailc + 1 })))

/-- One cycle of a core's selector in which no bundle issues (R22, R427, R460). -/
def Sys2Proof.Claims.cyclesWithoutIssue : Prop :=
  ∀ (c : Fin 128) (s : State),
    let at_ (k : Core) : State := s.setCore c.val k
    let k := s.core c.val
    (s.active c.val = false → exec (.selectorCycle c) s = .next s) ∧
    (s.active c.val = true → k.halt ≠ 0 → (∀ i, i < 4 → (s.strand (strandKey c.val i)).yielded = false) →
      exec (.selectorCycle c) s = .next (at_ { k with cycle := k.cycle + 1, frzcyc := k.frzcyc + 1 })) ∧
    (s.active c.val = true → k.halt = 0 → k.cur < 4 → (∀ i, i < 4 → s.strand (strandKey c.val i) = State.freedStrand (strandKey c.val i) (s.strand (strandKey c.val i))) →
      ∃ t, exec (.selectorCycle c) s = .next t ∧ t.core c.val = { k with freeze := false, cycle := k.cycle + 1, idlecyc := k.idlecyc + 1 } ∧
        (∀ d, d ≠ c.val → t.core d = s.core d) ∧ { t with cores := s.cores, ctx := s.ctx } = s)

/-- ECC errors and a pool head's failure (R246, R428, R431, R466). -/
def Sys2Proof.Claims.errorEvents : Prop :=
  ∀ (s : State) (cl : Fin 32) (b : Fin 128) (gr : BitVec 12) (line : Nat) (d : Fin 16) (h : Fin 2),
    let life := s.plat.life
    let lived (l : Lifetime) : Plat := { s.plat with life := l }
    let c := s.cluster cl.val
    exec (.sramEccError cl b gr false) s = .next { s.setCluster cl.val { c with seccnt := upOne c.seccnt } with
      plat := lived { life with sectot := upOne life.sectot } } ∧
    (∃ t, exec (.sramEccError cl b gr true) s = .next t ∧ t.plat = lived { life with unctot := upOne life.unctot } ∧
      (∀ n, t.poison.mem n = (s.poison.mem n || ((s.bank cl.val b.val).mode != 1 &&
        n == bankAddr cl.val (b.val * 65536) / 16 + gr.toNat))) ∧
      { t with plat := s.plat, poison := s.poison } = s) ∧
    (State.pkind (line * 64) = .hbm →
      exec (.hbmEccFailure line true) s = .next { s with plat := lived { life with sectot := upOne life.sectot } } ∧
      ∃ t, exec (.hbmEccFailure line false) s = .next t ∧ t.plat = lived { life with unctot := upOne life.unctot } ∧
        (∀ n, t.linePoison.mem n = (s.linePoison.mem n || n == line)) ∧ { t with plat := s.plat, linePoison := s.linePoison } = s) ∧
    (∃ t, exec (.poolHeadFailover d h) s = .next t ∧
      t.poolDev d.val = { s.poolDev d.val with
        failed := (s.poolDev d.val).failed.set h true
        primary := if (s.poolDev d.val).primary = h.val then 1 - h.val else (s.poolDev d.val).primary } ∧
      (∀ e, e ≠ d.val → t.poolDev e = s.poolDev e) ∧ { t with pool := s.pool } = s)

/-- Snoops, writes from outside and dynamic capacity (R240, R258, R461, R468). -/
def Sys2Proof.Claims.outsideEvents : Prop :=
  ∀ (s : State) (line pa dpa len : Nat) (bs : List Byte) (d : Fin 16),
    let p := s.poolDev d.val
    (State.pkind (line * 64) = .pool → s.ctx.defer = false → s.homeFree line = true → s.holders line = [] → ∃ m : State,
      exec (.bisnp line) s = .next { m with ctxs := m.ctxs.map (fun e => (e.1, m.signalTails (line * 64) 64 e.1 e.2)) } ∧
      (∀ c n, c < 32 → m.cline c n = (s.cline c n).filter (fun l => n != line || l.dirty != 0)) ∧ { m with clusters := s.clusters } = s) ∧
    (State.pkind (line * 64) = .pool → s.homeFree line = false →
      exec (.bisnp line) s = .next { s with home := s.home ++ [State.outsideReq (line * 64) 130 .bisnp] }) ∧
    (State.pkind (line * 64) = .host → s.ctx.defer = false → s.homeFree line = true → s.plat.bringup.fail = false →
      (∀ a, s.agent.get? line = some a → a.data.length = 64 → (∀ c l, s.cline c line = some l → l.dirty = 0) →
        (∃ t, exec (.hostSnoop line true) s = .next t ∧ t.agent.get? line = none ∧ (∀ c, c < 32 → t.cline c line = none) ∧
          (∀ x, t.mem.read x = if a.st = .m ∧ line * 64 ≤ x ∧ x < line * 64 + 64 then a.data.getD (x - line * 64) 0 else s.mem.read x) ∧
          { t with agent := s.agent, clusters := s.clusters, mem := s.mem } = s) ∧
        (∃ t, exec (.hostSnoop line false) s = .next t ∧ t.agent.get? line = some ⟨.s, a.data⟩ ∧
          (∀ x, t.mem.read x = if a.st = .m ∧ line * 64 ≤ x ∧ x < line * 64 + 64 then a.data.getD (x - line * 64) 0 else s.mem.read x) ∧
          { t with agent := s.agent, mem := s.mem } = s)) ∧
      (s.agent.get? line = none → exec (.hostSnoop line false) s = .next s)) ∧
    (s.plat.bringup.fail = false → 1 ≤ bs.length → pa % 64 + bs.length ≤ 64 → s.outsideMay (pa / 64) = true →
      (s.ctx.defer = false → s.homeFree (pa / 64) = true →
        ∃ m, exec (.hostMemWrite pa bs) s = .next (m.noteWrite pa bs.length) ∧ OnlyMem s m pa bs) ∧
      (State.pkind pa ≠ .pool → s.homeFree (pa / 64) = false →
        exec (.hostMemWrite pa bs) s = .next { s with home := s.home ++ [State.outsideReq pa 131 (.outside bs)] }) ∧
      (State.pkind pa = .pool → ∃ m, exec (.hostMemWrite pa bs) s = .next (m.noteWrite pa bs.length) ∧ OnlyMem s m pa bs)) ∧
    (s.plat.bringup.fail = true → exec (.hostMemWrite pa bs) s = .next s) ∧
    (dpa % 65536 = 0 → len % 65536 = 0 → len ≠ 0 → dpa + len ≤ 2 ^ 42 →
      exec (.dcAddEvent d dpa len) s = .next { s with pool := s.pool.set d.val { p with offered := p.offered ++ [(dpa, len)] } } ∧
      (s.leafNames d.val dpa len = true → exec (.dcReleaseRequest d dpa len) s = .next s) ∧
      (s.leafNames d.val dpa len = false → ∃ t, exec (.dcReleaseRequest d dpa len) s = .next t ∧
        (t.poolDev d.val).answered = p.answered ++ [(dpa, len)] ∧
        (∀ x, (t.poolDev d.val).extents.any (fun e => decide (e.1 ≤ x ∧ x < e.1 + e.2)) =
          (p.extents.any (fun e => decide (e.1 ≤ x ∧ x < e.1 + e.2)) && !decide (dpa ≤ x ∧ x < dpa + len))) ∧
        { t with pool := s.pool } = s))

/-- What the scheduler takes from streams and notify queues (R329, R330, R336). -/
def Sys2Proof.Claims.recordsAreTaken : Prop :=
  ∀ (s : State) (h : Fin 64) (i : Fin 4) (bs : List Byte),
    let k := s.hctx h.val
    let d := k.streams[i]
    let tail := BitVec.ofNat 32 (leNat bs)
    let at_ (d : StreamD) : State := s.setHctx h.val { k with streams := k.streams.set i d }
    let read (d : StreamD) : StreamD := { d with lastTail := tail, signal := false, stalled := false }
    s.home = [] → s.busyLines = [] → s.replies = [] →
    (s.serves h.val = false → exec (.tailWordSignal h i) s = .next s ∧ exec (.notifySignal h i) s = .next s) ∧
    (d.stopping = false → d.signal = false → d.head = d.lastTail →
      exec (.tailWordSignal h i) s = .next s ∧ exec (.notifySignal h i) s = .next s) ∧
    (s.serves h.val = true → d.stopping = false → d.signal = true → d.mode = 1 → s.sysRead h.val d.tailva.toNat 4 = some bs →
      (2 ^ d.logd < (tail - d.head).toNat → ∃ t, exec (.tailWordSignal h i) s = .next t ∧ (t.hctx h.val).streams[i].mode = 0) ∧
      (tail = d.head → exec (.tailWordSignal h i) s = .next (at_ (read d))) ∧
      (∀ r m, tail = d.head + 1 → s.owesAdmin h.val i = false →
        (at_ (read d)).sysRead h.val ((d.ringva.toNat + 128 * (d.head.toNat % 2 ^ d.logd)) % 2 ^ 72) 128 = some r →
        (at_ (read d)).takeRecord h.val i.val (leNat r) false = some m →
        (m.hctx h.val).streams[i].head = d.head → (m.hctx h.val).streams[i].lastTail = tail →
        ∃ t, exec (.tailWordSignal h i) s = .next t ∧ t.launches = m.launches ∧ (t.hctx h.val).streams[i].head = d.head + 1)) ∧
    (s.serves h.val = true → d.stopping = false → d.signal = true → d.mode = 3 → s.sysRead h.val d.ringva.toNat 8 = some bs →
      (2 ^ d.logd < (tail - d.head).toNat → ∃ t, exec (.notifySignal h i) s = .next t ∧ (t.hctx h.val).streams[i].mode = 0) ∧
      (tail = d.head → exec (.notifySignal h i) s = .next (at_ (read d))) ∧
      (∀ r, tail ≠ d.head → (tail - d.head).toNat ≤ 2 ^ d.logd → s.owesAdmin h.val i = false →
        (at_ (read d)).sysRead h.val (d.ringva.toNat + 128 + 64 * (d.head.toNat % 2 ^ d.logd)) 64 = some r →
        leNat r / 2 ^ 64 % 2 ^ 32 ≠ d.head.toNat →
        exec (.notifySignal h i) s = .next (at_ { read d with stalled := true })) ∧
      (∀ r tm m w, tail = d.head + 1 → s.owesAdmin h.val i = false →
        (at_ (read d)).sysRead h.val (d.ringva.toNat + 128 + 64 * (d.head.toNat % 2 ^ d.logd)) 64 = some r →
        (at_ (read d)).sysRead h.val d.tmplva.toNat 128 = some tm → leNat r / 2 ^ 64 % 2 ^ 32 = d.head.toNat →
        (at_ (read d)).takeRecord h.val i.val (State.buildRecord (leNat tm) (leNat r % 2 ^ 64)) true = some m →
        (m.hctx h.val).streams[i].head = d.head → (m.hctx h.val).streams[i].lastTail = tail →
        (m.modStream h.val i (fun d => { d with head := d.head + 1 })).sysWrite h.val (d.ringva.toNat + 64) (leBytes 8 (d.head + 1).toNat) = some w →
        ∃ t, exec (.notifySignal h i) s = .next t ∧ t.launches = w.launches ∧ (t.hctx h.val).streams[i].head = d.head + 1))

/-- Completion records, waiting fault records, the watchdog and uncorrectable errors (R42, R43, R429, R437, R446, R451). -/
def Sys2Proof.Claims.recordsAreWritten : Prop :=
  ∀ (s : State) (h : Fin 64) (i : Fin 4) (l : Launch),
    (s.nextOfStream h.val i.val = none → exec (.launchComplete h i) s = .next s) ∧
    (∀ v m, s.nextOfStream h.val i.val = some l → l.status = some v → s.unperformed l = false → (s.hctx h.val).waiting = [] → homesFree s →
      s.ringPut h.val ⟨l.cring % 4, by omega⟩ (State.completionBytes l v) = some m →
      ∃ t, exec (.launchComplete h i) s = .next t ∧
        t.launches = m.launches.map (fun e =>
          let e := if e.id = l.id then { e with st := .complete, edges := [], areas := [] } else e
          { e with edges := e.edges.erase l.id, st := if e.st = .waiting ∧ e.edges.erase l.id = [] then .ready else e.st }) ∧
        (∀ j : Fin 9, (t.hctx h.val).acct[j] =
          if j.val = (match v with | .done => 1 | .replayedDone => 2 | .failed _ => 3 | .lost => 4)
          then (m.hctx h.val).acct[j] + 1 else (m.hctx h.val).acct[j]) ∧
        t.mem = m.mem ∧ t.strands = m.strands) ∧
    ((s.hctx h.val).waiting = [] → exec (.faultRecordWrite h) s = .next s) ∧
    (∀ r rs m, homesFree s → (s.hctx h.val).waiting = r :: rs → s.writeFault h.val r = some m → r.launch = none →
      exec (.faultRecordWrite h) s = .next (m.setHctx h.val { m.hctx h.val with waiting := rs })) ∧
    (∀ r rs, homesFree s → (s.hctx h.val).waiting = r :: rs → s.writeFault h.val r = none → exec (.faultRecordWrite h) s = .next s) ∧
    (s.launch? l.id = some l → l.st = .running → l.status = none → (∀ e ∈ State.liveMembers l, (s.core e.2.core).halt = 0) →
      ∃ t k, exec (.watchdog l.id) s = .next t ∧
      t.launch? l.id = some k ∧ k.status = some (.failed 0x11) ∧ t.launchStrands l.id = []) ∧
    (s.launch? l.id = some l → l.st ≠ .running ∨ (∃ e ∈ State.liveMembers l, (s.core e.2.core).halt ≠ 0) →
      exec (.watchdog l.id) s = .next s) ∧
    ((s.hctx h.val).st = .live → ∃ t, exec (.uncorrectableError h) s = .next t ∧ (t.hctx h.val).st = .killed ∧
      t.plat.life.unctot = upOne s.plat.life.unctot ∧
      ∀ e ∈ t.launches, e.hc = h.val → e.st ≠ .complete → e.status = some .lost) ∧
    ((s.hctx h.val).st ≠ .live → exec (.uncorrectableError h) s = .next s)

/-- What the start of a launch gives a member's strand and core: the registers of R50, accumulator tiles of zero in its window, and zeroed buffers of its scratchpad plan (R50, R248, R415). -/
structure Sys2Proof.Claims.Started (s t : State) (l : Launch) (i : Nat) (m : Member) : Prop where
  runs : let u := t.strand (State.Member.key m)
    u.life = .running ∧ u.pc = l.starts.getD i 0 ∧ u.count = 0 ∧ u.ops = [] ∧ u.landings = [] ∧ u.redirects = []
  x : (t.strand (State.Member.key m)).front.x = Vector.replicate 64 0
  b : (t.strand (State.Member.key m)).front.b = Vector.replicate 8 0
  p : ∀ j : Fin 16, (t.strand (State.Member.key m)).front.p[j] = decide (j = 0)
  a : ∀ j : Fin 16, (t.strand (State.Member.key m)).front.a[j] =
    (match l.regions[j.val]? with | some r => if j.val < 6 ∧ r.present then r.base else 0 | none => 0)
  special : let f := (t.strand (State.Member.key m)).front
    f.fstat = 0 ∧ f.fmode = 0 ∧ f.scnt = 0 ∧ f.seqlen = 0 ∧ f.occ = 0 ∧ f.draft = 0 ∧ f.bindsel = BitVec.ofNat 7 m.core
  eng : (t.strand (State.Member.key m)).eng = EngineRegs.reset
  levels : (t.strand (State.Member.key m)).levels = Vector.replicate 6 Level.reset
  tokens : l.csched = false → (t.strand (State.Member.key m)).tokens = Vector.replicate 8 ⟨.clear, 0⟩
  tiles : ∀ i r c, i < (s.strand (State.Member.key m)).tn → r < 64 → c < 64 * s.width m.core →
    t.mem.readN (accAddr m.core ((s.strand (State.Member.key m)).tb + i) r c) 4 = [0, 0, 0, 0]
  plan : ∀ g k p o, s.image? l.image = some g → g.cores[i]? = some k → p ∈ k.spad → o < p.size →
    let a := bankAddr (m.core / 4) ((32 * (m.core % 4) + p.bank) * 65536 + p.off + o)
    t.mem.read a = 0 ∧ t.full.mem (a / 16) = false ∧ t.poison.mem (a / 16) = false

/-- A strand whose next bundle may issue with nothing before it: it is current on its core, the core's other strands are free, and it has nothing pending, queued, landing, looping or marked, and no copy-schedule entry left. -/
structure Sys2Proof.Claims.poised (s : State) (c n : Nat) : Prop where
  sched : s.schedule = []
  power : s.plat.poweredOff = false
  turn : s.nextCore = c
  active : s.active c = true
  core : (s.core c).halt = 0 ∧ (s.core c).freeze = false ∧ (s.core c).cur = n
  others : ∀ i, i < 4 → i ≠ n → s.strand (strandKey c i) = State.freedStrand (strandKey c i) (s.strand (strandKey c i))
  runs : (s.strand (strandKey c n)).life = .running ∧ (s.strand (strandKey c n)).holds = 0 ∧
    (s.strand (strandKey c n)).barWait = none ∧ (s.strand (strandKey c n)).rolling = none ∧ (s.strand (strandKey c n)).marked = none
  still : (s.strand (strandKey c n)).ops = [] ∧ (s.strand (strandKey c n)).landings = [] ∧ (s.strand (strandKey c n)).vland = [] ∧
    (s.strand (strandKey c n)).redirects = [] ∧ (s.strand (strandKey c n)).group = [] ∧ (s.strand (strandKey c n)).pend = PendBits.reset
  plain : (s.strand (strandKey c n)).yielded = false ∧ (s.strand (strandKey c n)).skipNext = false ∧
    (s.strand (strandKey c n)).shadow = none ∧ (s.strand (strandKey c n)).segFresh = false ∧ (s.strand (strandKey c n)).withheld = []
  loops : ∀ l ∈ (s.strand (strandKey c n)).levels.toList, l.run = false
  entries : s.schedEntry (strandKey c n) = none

/-- The machine as the one operation of a strand's next bundle performs at issue: the bundle is counted and the registers are latched (R85, R115). -/
def Sys2Proof.Claims.issuing (s : State) (c n : Nat) (o : SlotOp) : State :=
  let k := strandKey c n
  let u := s.strand k
  { (s.setCore c { s.core c with freeze := false }).setStrand k
      { u with count := u.count + 1, segFresh := false, literal := false, skipNext := false } with
    nextCore := s.nextCore + 1
    ctx := { Ctx.idle with
      core := k / 4, strand := k % 4, slot := o.slot, word := o.word, bundle := u.pc, latch := some u.front, admitted := true } }

/-- A strand after a bundle has issued and its own effects are done: the group, the segment's counts, the performance counter, the next program counter (R77, R84, R426, R427). -/
def Sys2Proof.Claims.passed (u : Strand) (h : Header) (half : Nat) (o : SlotOp) (next : Word32) : Strand :=
  { u with
    group := if h.stop then [] else State.written [o], segcnt := u.segcnt + 1, segsig := crcWord u.segsig h.word half
    perf := { u.perf with issued := u.perf.issued + 1 }, pc := next }

/-- A bundle of one operation of slot S performs it: the step is exec of the decoded instruction, and the strand passes on. -/
def Sys2Proof.Claims.stepPerforms : Prop :=
  ∀ (c : Fin 128) (n : Fin 4) (s m : State) (half : Nat) (b : BitVec 384) (h : Header) (o : SlotOp) (g : Guard),
    let k := strandKey c.val n.val
    let u := s.strand k
    poised s c.val n.val → s.fetch k = .bundle half b → half ≠ 65535 → decodeBundle b = .ok h [o] → h.seg = false → h.yield = false →
      (∀ i, i < 8 → h.waits i = false) → suppressed u h = false →
      engineOf o.slot o.instr = none → o.instr.isCounter = false → o.instr.landing? = none → o.instr.guard? = some g →
      (asStrand s k).holds g = true → (∀ z : State, z.slotWait o.instr = false ∧ z.issueStop o.instr = none) →
      exec o.instr (issuing s c.val n.val o) = .next m →
      (let w := m.strand k
       w.life = .running ∧ w.rolling = none ∧ w.ops = [] ∧ w.redirects = [] ∧ w.vland = [] ∧ w.pc = u.pc ∧ w.marked = none ∧
         w.launch = u.launch ∧ w.image = u.image ∧ w.member = u.member ∧ m.images = s.images ∧ ∀ l ∈ w.levels.toList, l.run = false) →
      ∃ t, step s = .next t ∧ t.strand k = passed (m.strand k) h half o (stepsOn (s.streamOf k) 1 u.pc) ∧
        (∀ j, j ≠ k → t.strand j = m.strand j) ∧ t.core c.val = { m.core c.val with cycle := (m.core c.val).cycle + 1 } ∧
        { t with strands := m.strands, cores := m.cores, ctx := m.ctx } = m

/-- A bundle of one operation for an engine puts it into the engine's queue, with its registers latched. -/
def Sys2Proof.Claims.stepQueues : Prop :=
  ∀ (c : Fin 128) (n : Fin 4) (s : State) (half : Nat) (b : BitVec 384) (h : Header) (o : SlotOp) (g : Guard) (e : Engine),
    let k := strandKey c.val n.val
    let u := s.strand k
    poised s c.val n.val → s.fetch k = .bundle half b → half ≠ 65535 → decodeBundle b = .ok h [o] → h.seg = false → h.yield = false →
      (∀ i, i < 8 → h.waits i = false) → suppressed u h = false →
      engineOf o.slot o.instr = some e → laneEngine e → o.instr.landing? = none → o.instr.token? = none → o.instr.tile? = none →
      o.instr.guard? = some g → (asStrand s k).holds g = true → (∀ z : State, z.slotWait o.instr = false ∧ z.issueStop o.instr = none) →
      unprotects o.instr = false → isExit o.instr = false → (∀ q : QOp, q.instr = o.instr → State.isSuspend q = false) →
      (∀ z : State, z.enterMma (u.opNum + 1) o.instr = z ∧ z.reserve o.instr = z) → writesOcc o.instr = false →
      ∃ t, step s = .next t ∧
        (t.strand k).ops = [{ num := u.opNum + 1, cnt := u.count + 1, eng := e, slot := o.slot, bundle := u.pc, word := o.word, instr := o.instr
                              latch := u.front, guard := some true, stage := .queued, cap := none, tok := none, acts := 0, got := none }] ∧
        (t.strand k).front = u.front ∧ (t.strand k).eng = u.eng ∧ (t.strand k).pc = stepsOn (s.streamOf k) 1 u.pc ∧
        (∀ r ∈ pendDests o.instr, State.isPending (t.strand k) r = true) ∧ t.mem = s.mem ∧ ∀ j, j ≠ k → t.strand j = s.strand j

/-- What every step keeps. -/
structure Sys2Proof.Claims.Keeps (s : State) : Prop where
  mem : s.mem.wf = true
  widths : ∀ c, (s.cluster c).width ≤ 4
  marks : ∀ c w, (s.cluster c).mark = some w → w ≤ 4
  wcodes : ∀ n, (s.bindEnt n).wcode.toNat ≤ 2
  jobs : ∀ d j, (s.deck d).job = some j → ∀ e ∈ j.ents, e.2.wcode.toNat ≤ 2
  launches : ∀ l ∈ s.launches, l.width ≤ 4
  images : ∀ i ∈ s.images, i.width ≤ 4
  idle : s.ctx = Ctx.idle

/-! ### The statements -/

/-- R157 to R159 for the 42 integer forms, with their frame. -/
def Obligations.IntegerFormsWriteTheirResult : Prop :=
  ∀ (i : Instr) (g : Guard) (s : State) (d : XReg) (v : XWord),
    i.guard? = some g → intResult s i = some (d, v) → performs i g s →
      ∃ t, exec i s = .next t ∧ OnlyMe s t (withX s.me d v)

/-- R160 to R163, R167, R177 and R178 for the other forms of slot S that write an x register, with their frame. -/
def Obligations.MoveFormsWriteTheirResult : Prop :=
  ∀ (i : Instr) (g : Guard) (s : State) (d : XReg) (v : XWord),
    i.guard? = some g → moveResult s i = some (d, v) → performs i g s →
      ∃ t, exec i s = .next t ∧ OnlyMe s t (withX s.me d v)

/-- R168 to R170: one rounding by FMODE, flags into FSTAT at issue, with their frame. -/
def Obligations.FloatFormsWriteTheirResult : Prop :=
  ∀ (i : Instr) (g : Guard) (s : State) (d : XReg) (v : XWord) (f : Fl),
    i.guard? = some g → floatResult s i = some (d, v, f) → performs i g s →
      ∃ t, exec i s = .next t ∧ OnlyMe s t (withFlags (withX s.me d v) f)

/-- R164 to R166, with their frame. -/
def Obligations.PredicateFormsWriteTheirResult : Prop :=
  ∀ (i : Instr) (g : Guard) (s : State) (d : PReg) (v : Bool),
    i.guard? = some g → predResult s i = some (d, v) → performs i g s →
      ∃ t, exec i s = .next t ∧ OnlyMe s t (withP s.me d v)

/-- R167, R171 to R173, R177 and R179, with their frame. -/
def Obligations.TargetAddressAndBranchFormsChangeTheStrandAlone : Prop := Claims.targetAddressAndSpecialFormsWriteTheirResult ∧ Claims.takenBranchRedirectsAfterThreeBundles

/-- R183 to R194, R198, R199 and R201, with their frame. -/
def Obligations.LanewiseFormsWriteActiveLanes : Prop :=
  ∀ (i : Instr) (g : Guard) (s : State) (d : VReg) (m : QReg) (f : Nat → Word32 × Fl),
    i.guard? = some g → laneResult s i = some (d, m, f) → performs i g s →
      ∃ t, exec i s = .next t ∧
        OnlyMe s t (withFlags (withV s.me s.lanes d (s.rdQ m) (fun l => (f l).1)) (activeFlags s.lanes (s.rdQ m) f))

/-- R195, R196, R200 and R202, with their frame. The model’s choice, and no rule of the spec: the canonical NaN of a lone child (log entry 50) and the flags and zero codes of VQMX’s blocks (log entry 14). -/
def Obligations.ReductionsScansBlocksAndDraws : Prop :=
  ∀ (i : Instr) (g : Guard) (s : State) (u : Strand),
    i.guard? = some g → wholeResult s i = some u → performs i g s → ∃ t, exec i s = .next t ∧ OnlyMe s t u

/-- R192, R197, R198, R203 and R229 to R232, with their frame. -/
def Obligations.MaskFormsVotesAndSingleLanesWriteTheirDestination : Prop := Claims.maskFormsWriteActiveBits ∧ Claims.votesExtractionsAndFileReads

/-- R224 to R228: what the sorting forms leave, with their frame. -/
def Obligations.SortsMergesAndCandidateMergesOrderTheirEntries : Prop := Claims.sortbSortsItsLanes ∧ Claims.mergeKeepsTheFirstHalf ∧ Claims.cmrgMergesCandidates

/-- R264 and R266: the value a load lands, with its frame. -/
def Obligations.LoadsLandTheBytesOfTheirExtent : Prop :=
  ∀ (i : Instr) (g : Guard) (s : State) (d : Dest) (dist va n : Nat) (v : List Byte → Datum) (bs : List Byte),
    i.guard? = some g → loadForm s i = some (d, dist, va, n, v) → performs i g s → shows s va n bs →
      ∃ t, exec i s = .next t ∧ OnlyMe s t (landed s d dist [(va, n)] (v bs))

/-- R265, R266 and R268 by where the store goes, with the frame of each. -/
def Obligations.StoresWriteTheirExtentOnce : Prop := Claims.storesWriteTheirBankBytes ∧ Claims.protectedStoresThatLeaveTheCoreAreWithheld ∧ Claims.storesToTranslatedMemoryGoToTheHome

/-- R269, with the frame of both forms. -/
def Obligations.GathersAndScattersMoveOneWordForEachLane : Prop := Claims.gathersLandOneWordInEachLane ∧ Claims.scattersStoreLanesInOrder

/-- R267 and R270, with their frame. -/
def Obligations.FullEmptyFormsFollowTheirGranules : Prop := Claims.fullLoadsTakeOrKeepTheirGranules ∧ Claims.setfeAndClrfeChangeFullEmptyBitsAlone

/-- R249, R271, R272 and R366, with their frame. That the places of one tile or strand are taken from the lowest up is log entry 55. -/
def Obligations.SpillFillAndPrefetch : Prop := Claims.spillParksAndFillLandsTheParkedCopy ∧ Claims.prefetchChangesNothing

/-- R274 to R276 at a bank and at the home, with their frame. -/
def Obligations.AtomicsUpdateTheirOperandInOneAct : Prop := Claims.atomicsAtABankSwapInOneAct ∧ Claims.atomicsOnTranslatedMemoryGoToTheHome

/-- R255, R256, R279 and R280 for one line. -/
def Obligations.CheckOutsAskTheHomeAndCheckInsReturn : Prop :=
  ∀ (g : Guard) (d : XReg) (a : AReg) (s : State) (e : TlbEnt) (w : Nat) (r : State),
    let va := s.ea a 0 / 64 * 64
    let pa := State.leafPa e va
    spotOf s.ctx.core va = .trans → s.tlbHit (State.clusterOf s.ctx.core) s.hcid va = some e → s.ctx.defer = true →
    (performs (.chkout g d a) g s → (s.rdX d).toNat = 1 → s.ea a 0 = va → e.w = true → e.pclass = 0 → pa % 64 = 0 →
      pa + 64 ≤ Config.hbmBytes → s.me.held = [] → s.takeWay (State.clusterOf s.ctx.core) (pa / 64) = some (w, r) →
      s.awaitsLine (pa / 64) = false →
      exec (.chkout g d a) s = .next { s with home := s.home ++ [request s pa 0 va false .chkout] }) ∧
    (∀ h tw, performs (.chkin g a) g s → s.me.held = [h] → h.twin = some tw → va % 65536 + 4096 ≤ 65536 →
      pa / 64 ≤ h.line → h.line * 64 < pa + 4096 →
      let m := s.setMe { s.me with held := [] }
      let c := match s.cline (s.meKey / 16) h.line with
        | some l => m.setLine (s.meKey / 16) h.line { l with data := (List.range 64).map (fun i =>
            if h.copy.getD i 0 = tw.getD i 0 then l.data.getD i 0 else h.copy.getD i 0), bad := h.bad || (l.bad && !(differ h.copy tw == BitVec.allOnes 64)) }
        | none => m
      exec (.chkin g a) s = .next { c with home := s.home ++
        [{ addr := h.line * 64, pclass := h.pclass, core := s.meKey / 4, strand := s.meKey % 4, hc := s.me.hc, num := 0, reply := false
           kind := .chkin (differ h.copy tw) h.copy h.bad, launch := s.me.launch, bundle := s.me.pc.toNat }] })

/-- R282 to R289 and R295 at the start of the operation, with their frame. -/
def Obligations.CopyFormsAndGemvStartTheirOperation : Prop := Claims.copyFormsStartTheirCopyAndArmTheToken ∧ Claims.gemvReadsItsDescriptorAndArmsTheToken

/-- R244, R252 and R298 to R300, with their frame. -/
def Obligations.BankModeAndCacheFormsChangeOnlyTheirTarget : Prop := Claims.bankmodeStartsAChange ∧ Claims.flushSendsDirtyBytesHome ∧ Claims.invalDropsTheClustersCopies

/-- R214 to R216, with their frame. The premise on the width is kept by every step (EveryStepKeepsTheInvariant). -/
def Obligations.MatrixOperationsUpdateTheirElements : Prop :=
  ∀ (trans : Bool) (g : Guard) (d : TReg) (a b : AReg) (xm xn xk : XReg) (f : MFmt) (s : State) (opA opB : List Byte),
    let i : Instr := if trans then .mmat g d a b xm xn xk f else .mma g d a b xm xn xk f
    let m := (s.rdX xm).toNat
    let n := (s.rdX xn).toNat
    let k := (s.rdX xk).toNat
    let o : MatOp := ⟨s.g, trans, f, k, opA, opB⟩
    let tile := s.me.tb + d.val
    let new (r c : Nat) : Word32 × Fl := o.element 0 (f.chunks k) r c (tileElem s tile r c)
    performs i g s → s.g ≤ 4 → n ≤ 64 * s.g → m ≤ 64 →
      (m = 0 ∨ n = 0 ∨ k = 0 → exec i s = .next s) ∧
      (m ≠ 0 → n ≠ 0 → k ≠ 0 → shows s (s.ea a 0) (f.extent k) opA → shows s (s.ea b 0) (s.g * f.extent k) opB →
        s.mmas.all (fun r => !(r.core == s.ctx.core && r.strand == s.ctx.strand && r.num == s.ctx.num)) →
        ∃ u t, exec i s = .next t ∧
          OnlyTile s u tile (fun r => decide (r < m)) (fun r c => if c < n then (new r c).1 else tileElem s tile r c) ∧
          OnlyMe u t (withFlags s.me ((List.range m).foldl (fun x r => (List.range n).foldl (fun y c => y ||| (new r c).2) x) 0)))

/-- R217 to R221, with their frame. -/
def Obligations.TileFormsMoveTheirElementsAndImages : Prop := Claims.tileFormsMoveTheirElements ∧ Claims.tileImagesAddAndReturn

/-- R254 and R301 to R305, with their frame. -/
def Obligations.FencesDrainsAndTheirWaits : Prop := Claims.fencesAndDrainsOrderAndAcquire ∧ Claims.barriersWaitForEarlierOperations

/-- R345 to R348, with their frame. -/
def Obligations.QueueFormsMoveTheirEntries : Prop := Claims.pushSendsItsEntriesInRingOrder ∧ Claims.popTakesEntriesAndQstatCountsThem

/-- R350 with R331 to R333, with the frame. The model’s choice: the order of the tests (log entry 53) and the place in the journal (log entry 92). -/
def Obligations.LaunchJournalsItsRecordOrReportsWhy : Prop :=
  ∀ (g : Guard) (d : XReg) (a : AReg) (s : State) (bs : List Byte),
    let i : Instr := .launch g d a
    let u := acting i s
    let h := s.me.hc
    let r := leNat bs
    let stream := r / 2 ^ 78 % 4
    let e := (s.hctx h).streams.toList.getD stream StreamD.reset
    performs i g s → settled s → s.busyLines = [] → s.replies = [] → u.owesAdmin h stream = false → State.load (s.ea a 0) 128 u = .ok bs u →
      (r / 2 ^ 72 % 64 ≠ h → ∃ t, exec i s = .next t ∧
        OnlyMe (u.reject h stream 1) t (withX s.me d 0x8000000000000001)) ∧
      (r / 2 ^ 72 % 64 = h → e.mode = 2 → r / 2 ^ 80 % 2 ^ 48 = 0 →
        (u.journalRoom = false → ∃ t, exec i s = .next t ∧ OnlyMe u t (withX s.me d 0x8000000000000002)) ∧
        (∀ im st as, u.journalRoom = true → u.checkLaunch h stream 0 r = .ok (im, st) → u.freeAreas h im.cores.length = some as →
          let still (ls : List Launch) : List Launch := ls.map (fun k => { k with hostVer := false })
          ∃ (t : State) (ls : List Launch) (l : Launch), exec i s = .next t ∧ t.launches = ls ++ [l] ∧ still ls = still u.launches ∧
            t.me = withX s.me d (low e.nextseq.toNat) ∧
            l.id = s.nextId ∧ l.hc = h ∧ l.stream = stream ∧ l.seq = e.nextseq ∧ l.image = im.handle ∧ l.starts = st ∧ l.areas = as ∧
            (l.st = if l.edges = [] then .ready else .waiting) ∧
            (∀ k ∈ u.launches, k.st ≠ .complete → k.jslot ≠ l.jslot) ∧
            t.mem = ((u.writeJournal l.jslot (State.journalBytes r st e.nextseq)).clearRecords h as).mem ∧
            { t with strands := s.strands, launches := s.launches, ctxs := s.ctxs, nextId := s.nextId, mem := s.mem
                     linePoison := s.linePoison, agent := s.agent, clusters := s.clusters, home := s.home } = s))

/-- R351 and R352: the rendezvous, with the continuation record and the save area of R64 and R456, and the end of a member. That QCNT is saved with the k registers is log entry 24. -/
def Obligations.SuspendAndExitEndTheirMembersRun : Prop := Claims.suspendWaitsForTheRendezvousOrCompletesIt ∧ Claims.exitEndsItsMember

/-- R353 with R326 and R328, with the frame. -/
def Obligations.EvpostPostsOrCountsALostRecord : Prop :=
  ∀ (g : Guard) (x y : XReg) (s : State),
    let u := acting (.evpost g x y) s
    let c := s.hctx s.me.hc
    let l := s.launch? s.me.launch
    let w := (s.rdX y).toNat
    let r := leBytes 32 (State.packBits [((s.rdX x).toNat, 64), ((l.map (fun l => l.seq.toNat)).getD 0, 48),
      ((l.map (fun l => l.stream)).getD 0, 2), (0, 14), (c.lost, 32), (0, 16),
      (if w.testBit 12 then 0 else w % 4096, 12), (if w.testBit 12 then 1 else 0, 1), (0, 59), (1, 8)])
    performs (.evpost g x y) g s →
      (∀ m, u.ringPut s.me.hc 4 r = some m → exec (.evpost g x y) s = .next (m.modHctx s.me.hc (fun c => { c with lost := 0 }))) ∧
      (c.rings[4].logd = 0 → exec (.evpost g x y) s =
        .next (u.setHctx s.me.hc { c with lost := min (c.lost + 1) (2 ^ 32 - 1) }))

/-- R362, R376 and R377, with their frame. -/
def Obligations.DictionaryLoadsAndTlbInvalidations : Prop := Claims.dictldLoadsItsWindow ∧ Claims.tlbInvalidationsDropTheirLeaves

/-- R335 and R349, with the frame in memory. -/
def Obligations.NotifyWritesItsRecordThenTheTails : Prop :=
  ∀ (g : Guard) (a : AReg) (y : XReg) (s : State) (bs hs : List Byte) (e q : TlbEnt),
    let j : Instr := .notify g a y
    let u := acting j s
    let cl := State.clusterOf s.ctx.core
    let va := s.ea a 0
    let d := leNat bs
    let qva := d % 2 ^ 72
    let logd := d / 2 ^ 72 % 2 ^ 4
    let i := d / 2 ^ 224 % 2 ^ 32
    let slot := qva + 128 + 64 * (i % 2 ^ logd)
    let l := s.launch? s.me.launch
    let next := (i + 1) % 2 ^ 32
    let r := leBytes 64 (State.packBits [(s.me.hc, 6), ((l.map (fun l => l.stream)).getD 0, 2), ((l.map (fun l => l.seq.toNat)).getD 0, 48),
      (i, 32), ((s.rdX y).toNat, 64)])
    performs j g s → settled s → s.me.held = [] → (s.cluster cl).lines = [] → s.agent = [] → s.busyLines = [] →
      State.load va 32 u = .ok bs u → State.load (qva + 64) 8 u = .ok hs u →
      va % 32 = 0 → qva % 64 = 0 → 4 ≤ logd → logd ≤ 12 → qva / 2 ^ 56 ≠ 0xFFFF →
      (BitVec.ofNat 32 i - BitVec.ofNat 32 (leNat hs)).toNat < 2 ^ logd → qva % 65536 + 128 + 64 * 2 ^ logd ≤ 65536 →
      s.tlbHit cl s.me.hc va = some e → e.w = true → e.pclass ≠ 2 → e.pclass ≠ 3 → s.tlbHit cl s.me.hc qva = some q → q.w = true → q.pclass = 1 →
      e.frame % 64 = 0 → q.frame % 64 = 0 →
      State.pkind (State.leafPa e va / 64 * 64) ≠ .host → State.pkind (State.leafPa q qva / 64 * 64) ≠ .host →
      State.pkind (State.leafPa q slot / 64 * 64) ≠ .host →
      ∃ t, exec j s = .next t ∧ t.me = s.me ∧ ∀ b, t.mem.read b =
        (let within (at_ n : Nat) : Bool := decide (at_ ≤ b ∧ b < at_ + n)
         if within (State.leafPa e va) 32 then (leBytes 32 (d % 2 ^ 224 + next * 2 ^ 224)).getD (b - State.leafPa e va) 0
         else if within (State.leafPa q qva) 8 then (leBytes 8 next).getD (b - State.leafPa q qva) 0
         else if within (State.leafPa q slot) 64 then r.getD (b - State.leafPa q slot) 0
         else s.mem.read b)

/-- R380 to R382 for the eight table forms. The turns of a waiting act are log entry 94. -/
def Obligations.TableFormsReportTheirAct : Prop :=
  ∀ (i : Instr) (g : Guard) (s : State) (d : XReg) (act : State → Except TErr (XWord × State)),
    i.guard? = some g → actForm s i = some (d, act) → performs i g s → tablesReady s i →
      (∀ v m, act (acting i s) = .ok (v, m) → ∃ t, exec i s = .next t ∧ OnlyMe m t (withX m.me d v)) ∧
      (∀ n, act (acting i s) = .error (.code n) → ∃ t, exec i s = .next t ∧ OnlyMe (acting i s) t (withX s.me d (failure n))) ∧
      (∀ ls, act (acting i s) = .error (.hold ls) → ls ≠ [] →
        exec i s = .next { (acting i s).wait with home := turnsAt s ls })

/-- R386 to R390: mappings, appends and cuts. -/
def Obligations.BlockMappingsAndAppendsFollowTheTables : Prop := Claims.kvLookAndAppendActs ∧ Claims.insertedMappingsAreFound ∧ Claims.kvTruncKeepsAShortSequence

/-- R386, R389 and R391: the reference counts. -/
def Obligations.BlocksGainAndLoseReferences : Prop := Claims.sharedBlocksGainOneReferenceEach ∧ Claims.droppedBlocksReturnToTheFreeList ∧ Claims.kvfreeDropsMappingsHighestFirst

/-- R392 to R394. -/
def Obligations.PrefixActsShareAndRecordBlocks : Prop :=
  ∀ (s : State) (h : Nat) (hash : BitVec 64) (w : Nat),
    let seq := w % 2 ^ 32
    let bs := s.blocksOf h seq
    let len := s.seqLength h seq
    (s.findPfx h hash = none → s.pfxFind h hash seq = .error (.code 1)) ∧
    (∀ n e t, s.findPfx h hash = some (n, e) → s.share h seq e.blks = .ok t →
      s.pfxFind h hash seq = .ok (low e.ntok, t)) ∧
    (s.mapped h (w / 2 ^ 32) 0 = none → bs = [] → s.pfxIns h hash w = .error (.code 1)) ∧
    (s.mapped h (w / 2 ^ 32) 0 = none → 24 < bs.length → s.pfxIns h hash w = .error (.code 10)) ∧
    (∀ n, s.mapped h (w / 2 ^ 32) 0 = none → bs ≠ [] → bs.length ≤ 24 → s.findPfx h hash = none →
      (State.pfxSlots hash).find? (fun n => (s.pfx.get? n).isNone) = some n → (∀ b ∈ bs, (s.blk b).ref < 65535) →
      ∃ t, s.pfxIns h hash w = .ok (low len, t) ∧ t.pfx.get? n = some ⟨hash, h, len, bs⟩ ∧
        ∀ b, (t.blk b).ref = (s.blk b).ref + bs.count b) ∧
    (∀ n e, s.mapped h (w / 2 ^ 32) 0 = none → bs ≠ [] → bs.length ≤ 24 → s.findPfx h hash = some (n, e) →
      (e.ntok ≠ len → s.pfxIns h hash w = .error (.code 8)) ∧
      (∀ t u, e.ntok = len → len < 2 ^ 62 → (∀ b ∈ e.blks, (s.blk b).ref < 65535) →
        s.moveAll h seq (w / 2 ^ 32) 0 bs = some t → t.mapAll h seq 0 e.blks = some u →
        s.pfxIns h hash w = .ok (low (len + 2 ^ 62), u) ∧ u.pfx = s.pfx ∧
        (∀ b, (u.blk b).ref = (s.blk b).ref + e.blks.count b ∧ (u.blk b).fill = (s.blk b).fill) ∧
        (∀ b c, bs = [b] → e.blks = [c] → seq ≠ w / 2 ^ 32 → (s.removeMap ⟨h, seq, 0⟩).mapped h seq 0 = none →
          u.mapped h (w / 2 ^ 32) 0 = some b ∧ u.mapped h seq 0 = some c)))

/-- R395 to R402: the acts on one stream. -/
def Obligations.StreamActsTruncateAndCommit : Prop := Claims.streamActsOnAnAcknowledgedStream ∧ Claims.closedStreamsReportClosed

/-- R402 to R408, with their frame. -/
def Obligations.FrameBatchAndBucketForms : Prop := Claims.sframeTakesTheFramesThatFit ∧ Claims.btsnapStoresItsRecordsAndLatchesTheBatch ∧ Claims.obselWritesTheBucketsEntry

/-- R413 to R433, with their frame. -/
def Obligations.CounterFormsReadSetAndClear : Prop := Claims.counterFormsChangeTheirStrandAlone ∧ Claims.counterReadsOfThermalTimeAddAFreeValue

/-- R415 to R418 and R421, with their frame. -/
def Obligations.BarriersAndLoopLevels : Prop := Claims.barArrivesAndTheLastArrivalEndsTheGeneration ∧ Claims.loopLevelsRunOrSkipTheirBody

/-- R10, R175, R435 to R437 and R443: taking the exception and returning from it. -/
def Obligations.TrapsTakeTheirExceptionAndResumeReturns : Prop := Claims.trapHoldsTheStrandAndRaisesItsRecord ∧ Claims.resumeReturnsFromATrapOrAHeldFault

/-- R444, with the frame. -/
def Obligations.FqpopReportsAnEmptyQueueOrTakesARecord : Prop :=
  ∀ (g : Guard) (d : XReg) (a : AReg) (s : State) (addr : Nat),
    let i : Instr := .fqpop g d a
    let r := (s.hctx s.me.hc).rings[5]
    performs i g s → spotOf s.ctx.core (s.ea a 0) = .scr addr → homesFree s →
      (r.logd = 0 ∨ r.tail = r.head → ∃ t, exec i s = .next t ∧ OnlyMe s t (withX s.me d 0)) ∧
      (∀ v, r.logd ≠ 0 → r.tail ≠ r.head →
        s.actRead s.me.hc ((r.base.toNat + 64 * (r.head.toNat % 2 ^ r.logd)) % 2 ^ 72) 64 = .ok v →
        s.bankHeld addr 64 = false → atOnce s addr →
        ∃ u t, exec i s = .next t ∧
          Stored (s.setHctx s.me.hc { s.hctx s.me.hc with rings := (s.hctx s.me.hc).rings.set 5 { r with head := r.head + 1 } }) u addr
            (leBytes 64 v) none ∧
          OnlyMe u t (withX s.me d (low (1 + v / 2 ^ 192 % 2 ^ 8 * 256 : Nat))))

/-- R118, R119, R375, R13 and R244 as events. -/
def Obligations.EngineLandingWalkHomeAndBankEvents : Prop := Claims.enginesStartAndComplete ∧ Claims.dataWalksAndHomesArrive

/-- ENGINE_OP_COMPLETE (R118, R135): an operation that a vector engine or X has begun, alone in its strand, completes: its lanes, or its vote, extraction or file read, are written, and it leaves its queue. -/
def Obligations.ABegunOperationWritesItsResult : Prop :=
  ∀ (c : Fin 128) (n : Fin 4) (e : Engine) (s : State) (o : QOp),
    let k := strandKey c.val n.val
    let u := s.strand k
    let z := s.forOp k o
    u.ops = [o] → o.eng = e → o.stage = .started → laneEngine e → u.vland = [] → s.mmas = [] → s.copies = [] → s.gemvs = [] →
      (∀ d m f, laneResult z o.instr = some (d, m, f) → ∃ t, exec (.engineOpComplete c n e) s = .next t ∧
        OnlyStrand s.idle t k
          { withFlags (withV u z.lanes d (z.rdQ m) (fun l => (f l).1)) (activeFlags z.lanes (z.rdQ m) f) with ops := [] }) ∧
      (∀ w, voteResult z o.instr = some w → ∃ t, exec (.engineOpComplete c n e) s = .next t ∧
        OnlyStrand s.idle t k { w with ops := [] })

/-- R213, R216, R260, R284, R290, R292, R296 and R411 as events. The model’s choice: a copy of up to 4,096 bytes completes in one COPY_COMPLETE (log entry 20), and one ENGINE_OP_COMPLETE adds one chunk of a matrix operation (log entry 88). -/
def Obligations.CopyGemvMatrixAndPushEvents : Prop := Claims.copyEvents ∧ Claims.matrixAndPushEvents

/-- R60, R343, R427 and R460. -/
def Obligations.CyclesWithoutIssueCountTheirCause : Prop := Claims.cyclesWithoutIssue

/-- R340, R430, R431, R472, R473, R476 and R477. -/
def Obligations.PlatformEventsChangeTheirOwnFields : Prop :=
  ∀ (s : State) (n : Nat) (down : Bool),
    let p := s.plat
    let th := p.thermal
    let top := if p.bringup.cal then 18 else 12
    let with_ (q : Plat) : State := { s with plat := q }
    let clocked (k : Nat) : State := with_ { p with thermal := { th with clock := k } }
    let lower : Nat := if 6 < th.clock then th.clock - 1 else th.clock
    (p.bringup.fail = false →
      exec .stacksTrained s = .next (with_ { p with bringup := { p.bringup with hbm := true } }) ∧
      exec .nearMemoryEnginesTrained s = .next (with_ { p with bringup := { p.bringup with nmt := true } }) ∧
      exec .thermalCalibrationDone s = .next (with_ { p with bringup := { p.bringup with cal := true } })) ∧
    (th.level < 4 → ∃ t, exec .thermalLevelEnter s = .next t ∧
      t.plat = { p with thermal := { th with
        level := th.level + 1
        tenter := Vector.ofFn (fun i : Fin 4 => if i.val = th.level then upOne th.tenter[i] else th.tenter[i]) } } ∧
      t.mem = s.mem ∧ (th.level = 0 → { t with plat := p } = s) ∧
      (1 ≤ th.level → ∀ l ∈ s.launches, s.launch? l.id = some l → l.cls = 2 → l.st = .running → l.status = none →
        ∀ e ∈ State.liveMembers l, (t.strand (State.Member.key e.2)).marked = some true) ∧
      (1 ≤ th.level → ∀ l ∈ s.launches, s.launch? l.id = some l → l.cls = 2 → l.st = .placing → l.status = none →
        ∃ k, t.launch? l.id = some k ∧ k.owed = some true)) ∧
    (1 ≤ th.level → th.level ≤ 4 → ∃ t, exec .thermalLevelLeave s = .next t ∧
      t.plat = { p with thermal := { th with level := th.level - 1, ttime := t.plat.thermal.ttime } } ∧
      (∀ i : Fin 4, i.val + 1 ≠ th.level → t.plat.thermal.ttime[i] = th.ttime[i]) ∧ { t with plat := p, fresh := s.fresh } = s) ∧
    (th.level = 4 → exec (.clockStep true) s = .next (clocked lower)) ∧
    (th.level ≠ 4 → exec (.clockStep true) s = .next s) ∧
    exec (.clockStep false) s = .next (clocked (if th.clock < top then th.clock + 1 else th.clock)) ∧
    exec .powerLimitExceeded s = .next (clocked lower) ∧
    (∃ t, exec .orderlyShutdown s = .next t ∧ t.plat.lifeStored = t.plat.life ∧
      { t.plat.life with temph := p.life.temph, powh := p.life.powh } = p.life ∧
      (∀ i : Fin 16, p.life.temph[i].toNat ≤ t.plat.life.temph[i].toNat ∧ p.life.powh[i].toNat ≤ t.plat.life.powh[i].toNat) ∧
      { t.plat with life := p.life, lifeStored := p.lifeStored } = p ∧ { t with plat := p, fresh := s.fresh } = s) ∧
    (∃ t, exec .lifetimeFlush s = .next t ∧ t.plat.lifeStored = t.plat.life ∧ t.plat.life.powerhrs = upOne p.life.powerhrs ∧
      { t.plat.life with powerhrs := p.life.powerhrs, temph := p.life.temph, powh := p.life.powh } = p.life ∧
      (∀ i : Fin 16, p.life.temph[i].toNat ≤ t.plat.life.temph[i].toNat ∧ p.life.powh[i].toNat ≤ t.plat.life.powh[i].toNat) ∧
      { t.plat with life := p.life, lifeStored := p.lifeStored } = p ∧ { t with plat := p, fresh := s.fresh } = s) ∧
    (1 ≤ n → n ≤ 7 →
      let d := Config.sha3 (s.measured n)
      exec (.spdmRequest n) s = .next (with_ { p with spdm := d ++ Config.ecdsaSign p.flash.identity.deviceKey d }))

/-- R4, R431, R469, R470 and R477. The model’s choice: the fault poweredOff of a step without power and the start from the stored lifetime record (log entry 71), what HBM holds after a reset (log entry 4). -/
def Obligations.ShutdownRemovesPowerAndColdResetReturnsTheResetValues : Prop :=
  ∀ (s : State),
    (∃ t, exec .criticalShutdown s = .next t ∧ t.plat.poweredOff = true ∧ t.plat.lifeStored = t.plat.life ∧
      (∀ h, h < 64 → (s.hctx h).st = .live → (t.hctx h).st = .killed) ∧
      (∀ h, h < 64 → (s.hctx h).st ≠ .live → (t.hctx h).st = (s.hctx h).st)) ∧
    (s.plat.poweredOff = true → step { s with schedule := [] } = .fault .poweredOff ∧
      ∀ i is, i ≠ .coldReset → step { s with schedule := i :: is } = .fault .poweredOff) ∧
    (∃ t, exec .coldReset s = .next t ∧
      { t with mem := [], linePoison := [], schedule := [], nextCore := 0, fresh := 0, nextId := 0, nextGang := 0 } = State.start t.plat ∧
      (∀ a, t.mem.read a = if a < bankBase then s.mem.read a else 0) ∧ t.linePoison = s.linePoison ∧ t.schedule = s.schedule ∧
      t.plat.poweredOff = false ∧ t.plat.thermal = Thermal.reset ∧ t.plat.lifeStored = s.plat.lifeStored ∧
      t.plat.life = (let l := if s.plat.poweredOff then s.plat.lifeStored else s.plat.life; { l with coldrst := upOne l.coldrst }) ∧
      t.plat.bringup = { Bringup.reset with fail := !State.bootOk s.plat.flash } ∧
      (State.bootOk s.plat.flash = false → t.plat.flash = s.plat.flash ∧
        ∀ d : Fin 4, t.plat.decks[d].health = s.plat.decks[d].repair) ∧
      (∀ i r l, State.chainOk s.plat.flash = true → State.blocksInUse s.plat.flash = some (i, r, l) →
        t.plat.flash.highest = #v[i.version, r.version, l.version] ∧ t.plat.flash.identity = i.val ∧ t.plat.flash.limit = l.val ∧
        ∀ d : Fin 4, t.plat.decks[d].health = r.val[d]))

/-- R240, R246, R258, R428, R431, R461, R466, R467 and R468. The model’s choice: a pool module’s write lands at once (log entry 67) and a failed bring-up lets no event change anything (log entry 73). -/
def Obligations.ErrorSnoopAndOutsideEvents : Prop := Claims.errorEvents ∧ Claims.outsideEvents

/-- R364, R368, R373, R377, R463 and R464. The model’s choice: the statuses of HCDESTROY, RESIDE and UNLOAD (log entry 69), the tables HCCREATE reserves (log entry 10), a command that is not rung (log entry 2). -/
def Obligations.ContextImageAndTranslationCommands : Prop :=
  ∀ (s : State),
    let c := State.cmdOf s.mbox
    let k := s.hctx c.hc
    (s.mbox.busy = false → exec .hccreate s = .next s ∧ exec .liferead s = .next s) ∧
    (s.mbox.busy = true → s.mbox.cmd[0].toNat = 0x01 → State.fieldsOk { hc := true } c = false →
      exec .hccreate s = .next (answered s 2 0)) ∧
    (rung s 0x01 { hc := true } → exec .hccreate s = .next (
      if k.st = .free then answered { s.setHctx c.hc (Hctx.fresh .live k.rootpa) with
        reserved := (State.tableBlocks s.mem 3 (State.rootBlock k * 131072)).foldl NSet.add s.reserved } 0 0 else answered s 1 0)) ∧
    (rung s 0x02 { hc := true } →
      (k.st = .free ∨ s.journal.any (fun l => l.hc == c.hc) = true → exec .hcdestroy s = .next (answered s 1 0)) ∧
      (k.st ≠ .free → s.journal.any (fun l => l.hc == c.hc) = false → homesFree s → ∃ t, exec .hcdestroy s = .next t ∧
        t.mbox = (answered s 0 0).mbox ∧ (t.hctx c.hc).st = .free ∧ (t.hctx c.hc).med = MedRec.reset ∧
        t.images = s.images.filter (fun g => g.hc != c.hc) ∧ t.pfx = s.pfx.filter (fun e => e.2.hc != c.hc) ∧
        t.strands = s.strands ∧ t.launches = s.launches ∧ ∀ h, h ≠ c.hc → t.hctx h = s.hctx h)) ∧
    (rung s 0x03 { hc := true } → exec .hcrestart s = .next (
      if k.st = .killed then answered (s.setHctx c.hc { k with st := .live }) 0 0 else answered s 1 0)) ∧
    (rung s 0x10 { hc := true, va1 := true, va2 := true } → c.va1 % 16 = 0 → c.va2 % 8 = 0 →
      (k.st ≠ .live → exec .reside s = .next (answered s 1 0)) ∧
      (∀ i, k.st = .live → s.home = [] → s.busyLines = [] → s.buildImage c.hc c.va1 c.va2 = .ok (i, []) → ∃ t, exec .reside s = .next t ∧
        t.mbox = (answered s 0 (s.nextId % 2 ^ 32)).mbox ∧ t.images = s.images ++ [{ i with handle := s.nextId % 2 ^ 32 }] ∧
        t.nextId = s.nextId + 1 ∧ t.strands = s.strands ∧ t.launches = s.launches)) ∧
    (rung s 0x11 { hc := true, w1 := true } → c.w1 < 2 ^ 32 → k.st ≠ .free →
      let mine (g : Image) : Bool := g.hc == c.hc && g.handle == c.w1
      exec .unload s = .next (
        if s.images.any mine = false then answered s 2 0
        else if s.journal.any (fun l => l.hc == c.hc && l.image == c.w1) = true then answered s 1 0
        else answered { s with images := s.images.filter (fun g => !mine g) } 0 0)) ∧
    (∀ a, rung s 0x20 { hc := true, sub := true, va1 := true, w1 := true } → c.sub < 4 → k.st ≠ .free →
      s.entryAt c.hc c.sub c.va1 = some a →
      (s.entryOk c.sub c.w1 = false → exec .ptewrite s = .next (answered s 2 0)) ∧
      (s.entryOk c.sub c.w1 = true → homesFree s → s.agent = [] → State.pkind (a / 64 * 64) ≠ .host →
        ∃ t, exec .ptewrite s = .next t ∧
        t.mbox = (answered s 0 0).mbox ∧
        (∀ x, t.mem.read x = if a ≤ x ∧ x < a + 8 then (leBytes 8 c.w1).getD (x - a) 0 else s.mem.read x) ∧
        t.reserved = (if c.w1.testBit 63 && !c.w1.testBit 62 then s.reserved.add (bitsAt c.w1 17 35) else s.reserved) ∧
        { t with mem := s.mem, mbox := s.mbox, reserved := s.reserved, ctxs := s.ctxs, launches := s.launches, replies := s.replies } = s)) ∧
    (rung s 0x21 { hc := true, sub := true, va1 := true } → k.st ≠ .free → s.walks = [] → s.home = [] → (∀ e ∈ s.strands, e.2.withheld = []) →
      let drops (p : TlbEnt → Bool) : Prop := ∃ t, exec .tlbdrop s = .next t ∧
        { t with clusters := s.clusters } = answered s 0 0 ∧
        ∀ cl, t.cluster cl = { s.cluster cl with tlb := (s.cluster cl).tlb.filter (fun e => !p e) }
      (c.sub = 0 → drops (fun e => e.hc == c.hc && (if e.big then e.vpage / 2 ^ 14 == c.va1 / 2 ^ 30 else e.vpage == c.va1 / 2 ^ 16))) ∧
      (c.sub = 1 → c.va1 = 0 → drops (fun e => e.hc == c.hc)))

/-- R385, R392, R395, R428, R453, R463, R468 and R475. The model’s choice: status 1 of DCACCEPT for an extent not offered and of DCRELEASE for one not accepted (log entry 69), and the waits at homes that are not free (log entry 94), which the premises exclude. -/
def Obligations.TableStreamAndDeviceCommands : Prop :=
  ∀ (s : State),
    let c := State.cmdOf s.mbox
    let k := s.hctx c.hc
    let p := s.poolDev c.sub
    let base := c.w2 % 2 ^ 22
    let count := c.w2 / 2 ^ 32 % 2 ^ 22
    (∀ ps, rung s 0x30 { hc := true, w1 := true, w2 := true, w3 := true } → c.w1 % 65536 = 0 → c.w1 < 2 ^ 63 →
      c.w2 = base + count * 2 ^ 32 → c.w3 ≤ 8 → 1 ≤ count → base + count ≤ 2 ^ 22 →
      k.st = .live → k.med.count = 0 → s.ctxs.any (fun e => e.1 != c.hc && e.2.med.count != 0) = false → homesFree s →
      s.arenaPages c.hc c.w1 base count = some ps → State.distinct (ps.map (fun p => p.2.1) ++ s.blks.map (fun e => e.2.frame)) = true →
      ∃ t, exec .medreg s = .next t ∧ t.mbox = (answered s 0 0).mbox ∧
        t.med c.hc = ⟨BitVec.ofNat 64 c.w1, base, count, base, count, c.w3⟩ ∧
        (∀ b, base ≤ b → b < base + count → (t.blk b).st = .free ∧ (t.blk b).ref = 0 ∧ (t.blk b).hc = c.hc ∧ (t.blk b).next = (b + 1) % 2 ^ 22) ∧
        (∀ b, b < base ∨ base + count ≤ b → t.blk b = s.blk b)) ∧
    (rung s 0x31 { hc := true, w1 := true } →
      (s.findPfx c.hc (BitVec.ofNat 64 c.w1) = none → exec .pfxremove s = .next (answered s 1 0)) ∧
      (∀ n e, s.findPfx c.hc (BitVec.ofNat 64 c.w1) = some (n, e) → homesFree s → ∃ t, exec .pfxremove s = .next t ∧
        t.mbox = (answered s 0 0).mbox ∧ t.pfx.get? n = none ∧ (∀ m, m ≠ n → t.pfx.get? m = s.pfx.get? m) ∧
        ∀ b, (t.blk b).ref = (s.blk b).ref - e.blks.count b)) ∧
    (∀ bs, rung s 0x32 { hc := true, va1 := true, w1 := true } → c.va1 % 128 = 0 → c.w1 < 4096 → k.st = .live → s.home = [] → s.busyLines = [] →
      s.sysRead c.hc c.va1 128 = some bs → (s.strm c.w1).valid = false →
      let e := State.openEntry (leNat bs)
      (leNat bs / 2 ^ 397 % 2 = 1 → e.hc = c.hc → leNat bs % 2 ^ 397 = 0 → e.snb ≤ 16384 → 4 ≤ e.flog → e.flog ≤ 12 → 4 ≤ e.dlog → e.dlog ≤ 12 →
        e.stva.toNat % 64 = 0 → e.fva.toNat % 128 = 0 → e.dva.toNat % 128 = 0 → ∃ t, exec .streamopen s = .next t ∧
          { t with streams := s.streams } = answered s 0 0 ∧ t.strm c.w1 = e ∧ ∀ n, n ≠ c.w1 → t.strm n = s.strm n)) ∧
    (rung s 0x33 { hc := true, w1 := true } → c.w1 < 4096 →
      let e := s.strm c.w1
      (e.valid = false → exec .streamclose s = .next (answered s 1 0)) ∧
      (e.valid = true → e.hc = c.hc → homesFree s → ∃ t, exec .streamclose s = .next t ∧
        { t with streams := s.streams, ctxs := s.ctxs } = answered s 0 0 ∧ t.strm c.w1 = { e with valid := false, held := false } ∧
        (∀ n, n ≠ c.w1 → t.strm n = s.strm n) ∧
        t.hctx c.hc = { k with held := if e.held then k.held - 1 else k.held })) ∧
    (∀ bs, rung s 0x40 { sub := true, va1 := true } → c.sub < 32 → s.images.any (fun g => g.keySlot == some c.sub) = false →
      s.home = [] → s.busyLines = [] → s.sysRead 0 c.va1 1952 = some bs → exec .keyadd s = .next (answered { s with keys := s.keys.set c.sub bs } 0 0)) ∧
    (rung s 0x50 { w1 := true } → c.w1 < 32 → ∃ t, exec .clusterreset s = .next t ∧ t.mbox = (answered s 0 0).mbox ∧
      (t.cluster c.w1).lines = [] ∧ (∀ b, b < 128 → t.bank c.w1 b = Bank.reset) ∧
      (∀ o, o < 8388608 → t.mem.read (bankAddr c.w1 o) = 0) ∧ ∀ j, j < 4 → (t.core (4 * c.w1 + j)).cur = 0) ∧
    (rung s 0x51 { sub := true, w1 := true, w2 := true } → c.sub < 16 → State.extentOk c.w1 c.w2 = true →
      exec .dcaccept s = .next (if p.offered.contains (c.w1, c.w2) then answered { s with pool := s.pool.set c.sub { p with
        offered := p.offered.erase (c.w1, c.w2), extents := p.extents ++ [(c.w1, c.w2)] } } 0 0 else answered s 1 0)) ∧
    (rung s 0x52 { sub := true, w1 := true, w2 := true } → c.sub < 16 → State.extentOk c.w1 c.w2 = true →
      (State.covers p.extents c.w1 c.w2 = false → exec .dcrelease s = .next (answered s 1 0)) ∧
      (State.covers p.extents c.w1 c.w2 = true → s.leafNames c.sub c.w1 c.w2 = true → exec .dcrelease s = .next (answered s 1 0)) ∧
      (State.covers p.extents c.w1 c.w2 = true → s.leafNames c.sub c.w1 c.w2 = false → ∃ t, exec .dcrelease s = .next t ∧
        (t.poolDev c.sub).answered = p.answered ++ [(c.w1, c.w2)] ∧ { t with pool := s.pool } = answered s 0 0)) ∧
    (rung s 0x60 { va1 := true } → c.va1 % 8 = 0 → homesFree s →
      ∀ m, s.tickMinutes.sysWrite 0 c.va1 (State.lifeBytes s.tickMinutes.plat.life) = some m →
      exec .liferead s = .next (answered m 0 160))

/-- R329, R443, R457, R460, R462 and R463. The model’s choice: command bytes written while BUSY are ignored (log entry 69), and so is a mode write with an unsuitable descriptor (log entry 42). -/
def Obligations.HostRegisterWritesTakeEffect : Prop :=
  ∀ (s : State) (h : Fin 64) (i : Fin 4) (core : Fin 128) (off : Nat) (v : BitVec 64) (b : Bool) (m : BitVec 2),
    let k := s.hctx h.val
    let d := k.streams[i]
    let c := s.core core.val
    (off < 64 → off % 8 = 0 → exec (.hostRegisterWrite off v) s = .next (if s.mbox.busy then s else { s with mbox := { s.mbox with
      cmd := Vector.ofFn (fun j : Fin 64 => if off ≤ j.val ∧ j.val < off + 8
        then BitVec.ofNat 8 (v.toNat / 2 ^ (8 * (j.val - off))) else s.mbox.cmd[j]) } })) ∧
    (exec (.hostRegisterWrite 0xFF8 1) s = .next (if s.mbox.busy then s
      else if s.mbox.cmd[0].toNat ∈ [0x01, 0x02, 0x03, 0x10, 0x11, 0x20, 0x21, 0x30, 0x31, 0x32, 0x33, 0x40, 0x50, 0x51, 0x52, 0x60]
      then { s with mbox := { s.mbox with busy := true } } else answered s 2 0)) ∧
    exec (.hostRegisterWrite (0x4000 + 32 * core.val) v) s = .next (s.setCore core.val { c with policy := v.getLsbD 0 }) ∧
    (v.toNat % 64 = 0 → exec (.hostRegisterWrite (0x20000 + 4096 * h.val + 0x1C8) v) s = .next (s.setHctx h.val { k with btva := v })) ∧
    exec (.hostRegisterWrite (0x20000 + 4096 * h.val + 0x1D8) v) s =
      .next (s.setHctx h.val { k with saven := v.toNat % 2 ^ 32, trust := BitVec.ofNat 32 (v.toNat / 2 ^ 32) }) ∧
    (∃ t, exec (.controlPause h b) s = .next t ∧ (t.hctx h.val).pause = b ∧ (∀ j, j ≠ h.val → t.hctx j = s.hctx j) ∧
      (b = false → t = s.setHctx h.val { k with pause := false }) ∧
      (b = true → ∀ l ∈ s.launches, s.launch? l.id = some l → l.hc = h.val → l.st = .running → l.status = none →
        ∀ e ∈ State.liveMembers l, (t.strand (State.Member.key e.2)).marked ≠ none) ∧
      (b = true → ∀ l ∈ s.launches, s.launch? l.id = some l → l.hc = h.val → l.st = .placing → l.status = none →
        ∃ k, t.launch? l.id = some k ∧ k.owed ≠ none)) ∧
    (k.pend.find? (fun q => q.handle == v.toNat % 2 ^ 32) = none → exec (.resumew h v) s = .next s.idle) ∧
    (∀ q a n, k.pend.find? (fun q => q.handle == v.toNat % 2 ^ 32) = some q → q.subj = .trap a n →
      ((s.core a).halt ≠ 0 → exec (.resumew h v) s = .next (s.setHctx h.val { k with resumes := k.resumes ++ [v] })) ∧
      ((s.core a).halt = 0 → v.getLsbD 32 = false →
        exec (.resumew h v) s = .next ((s.setHctx h.val { k with pend := k.pend.filter (fun e => e.entry != q.entry) }).setStrand (strandKey a n)
          { s.strand (strandKey a n) with
            trap := none, skipNext := v.getLsbD 33, holds := (s.strand (strandKey a n)).holds - 1 }).idle)) ∧
    exec (.haltSoft core) s = .next (s.setCore core.val { c with halt := 1 }) ∧
    exec (.haltHard core) s = .next (s.setCore core.val { c with halt := 2 }) ∧
    ((∀ j, j < 64 → (s.hctx j).resumes = []) → exec (.haltRelease core) s = .next (s.setCore core.val { c with halt := 0 })) ∧
    (m ≠ 0 → d.mode = 0 → State.modeOk d m = true →
      (s.modeReaches h.val d m = true → exec (.streamModeWrite h i m) s = .next (s.setHctx h.val { k with
        streams := k.streams.set i { d with mode := m, lastTail := d.head, stopping := false, signal := false, stalled := false } }))) ∧
    (m ≠ 0 → d.mode ≠ 0 ∨ State.modeOk d m = false → exec (.streamModeWrite h i m) s = .next s) ∧
    (d.mode ≠ 0 → d.mode = 2 ∨ d.head = d.lastTail → ∃ t, exec (.streamModeWrite h i 0) s = .next t ∧
      (t.hctx h.val).streams[i].mode = 0 ∧ (t.hctx h.val).streams[i].stopping = false)

/-- R329, R330, R336, R42, R43, R429, R437, R446 and R451. The model’s choice: the stream fault of a notify queue’s tail beyond the depth (log entry 42). -/
def Obligations.SchedulerServesStreamsAndRecords : Prop := Claims.recordsAreTaken ∧ Claims.recordsAreWritten

/-- R41, R49, R50, R65, R208, R248, R337 to R339 and R351. The model’s choice: the gang number is nextGang (log entry 8). -/
def Obligations.LaunchesArePlacedStartedAndResumed : Prop :=
  ∀ (s : State) (c : Fin 3) (l : Launch),
    (s.launches = [] → exec .placementPass s = .next s ∧ exec (.oldestLaunchWait2Ms c) s = .next s) ∧
    (∀ pl, s.launches = [l] → l.cls = c.val → l.st = .ready → l.status = none → (s.hctx l.hc).pause = false →
      let w : State := { s with launches := [{ l with waited := true }] }
      let placed (t : State) : Prop := ∃ e, t.launches = [e] ∧ e.id = l.id ∧ e.st = .placing ∧ e.gang = BitVec.ofNat 32 s.nextGang ∧
        t.nextGang = s.nextGang + 1
      (s.shed c.val = true → exec .placementPass s = .next s ∧ exec (.oldestLaunchWait2Ms c) s = .next s) ∧
      (s.shed c.val = false → s.findPlace false l = some pl → ∃ t, exec .placementPass s = .next t ∧ placed t) ∧
      (s.shed c.val = false → w.findPlace false { l with waited := true } = some pl →
        ∃ t, exec (.oldestLaunchWait2Ms c) s = .next t ∧ placed t)) ∧
    (s.launch? l.id = some l → l.st = .placing → l.status = none → l.everSusp = false → s.gangReady l = true →
      (∀ e ∈ State.liveMembers l, s.parksUnder (State.Member.key e.2) = []) →
      (∀ a ∈ State.liveMembers l, ∀ b ∈ State.liveMembers l, State.Member.key a.2 = State.Member.key b.2 → a = b) →
      (∀ e ∈ State.liveMembers l, e.2.strand < 4 ∧ (s.strand (State.Member.key e.2)).launch = l.id) →
      ∃ t k, exec (.gangStart l.id) s = .next t ∧ t.launch? l.id = some k ∧ k.st = .running ∧ k.members = l.members ∧
        ∀ e ∈ State.liveMembers l, Started s t l e.1 e.2) ∧
    (s.launch? l.id = some l → l.st = .placing → l.status = none → l.everSusp = true →
      (∀ e ∈ State.liveMembers l, s.parksUnder (State.Member.key e.2) = []) → s.gangReady l = true →
      homesFree s →
      ((∀ e ∈ State.liveMembers l, s.recordKept (State.Member.key e.2) e.2 = true ∧ s.restorePoison l e = none) →
        (∀ a ∈ State.liveMembers l, ∀ b ∈ State.liveMembers l, State.Member.key a.2 = State.Member.key b.2 → a = b) →
        ∃ t k, exec (.gangResume l.id) s = .next t ∧ t.launch? l.id = some k ∧ k.st = .running ∧
          (∀ j : Fin 16, k.bars[j] = (0, l.bars[j].2)) ∧
          ∀ e ∈ State.liveMembers l, let u := t.strand (State.Member.key e.2)
            u.life = .running ∧ u.pc = BitVec.ofNat 32 (leNat e.2.record / 2 ^ 128) ∧ u.count = 0 ∧ u.eng.qcnt = 0 ∧
            u.levels = e.2.levels) ∧
      (∀ e, State.liveMembers l = [e] → s.recordKept (State.Member.key e.2) e.2 = false →
        ∃ t k, exec (.gangResume l.id) s = .next t ∧ t.launch? l.id = some k ∧ k.status = some (.failed 0x13))) ∧
    (s.launch? l.id = some l → l.st = .suspended → l.status = none →
      (l.members.all (s.depMet l) = true → exec (.suspendDependenceMet l.id) s = .next { s with
        launches := s.launches.map (fun e => if e.id = l.id then { e with st := .ready, waited := false } else e) }) ∧
      (l.members.all (s.depMet l) = false → exec (.suspendDependenceMet l.id) s = .next s))

/-- R22 to R24, R26, R29, R30, R34, R36, R356, R357, R431, R453 and R474. The model’s choice: which entries change and what the first write of a rebind keeps (log entry 30), and its two acts (log entry 40). -/
def Obligations.BinderAndHealthEventsFollowTheirRules : Prop :=
  ∀ (s : State) (d : Fin 4) (x : Fin 72) (f : Fin 32) (cl : Fin 32) (ok : Bool),
    let k := s.deck d.val
    let life := s.plat.life
    let at_ (k : Deck) : State := s.modDeck d.val (fun _ => k)
    let half : HealthUnit := .half x
    (k.tests.contains half = true → s.plat.bringup.fail = false →
      let tested : Deck := { k with tests := k.tests.erase half, gated := k.gated.filter (fun n => n != x.val) }
      exec (.wakeTest d half true) s = .next (at_ tested) ∧
      (k.health.halfOk x.val = true → ∃ t, exec (.wakeTest d half false) s = .next t ∧
        (t.deck d.val).health.halfok = k.health.halfok &&& ~~~(1#72 <<< x.val) ∧ (t.deck d.val).health.feok = k.health.feok ∧
        (t.deck d.val).tests = tested.tests ∧ t.plat.life = { life with halfret := upOne life.halfret } ∧ { t with plat := s.plat } = s)) ∧
    (k.tests.contains half = false → exec (.wakeTest d half ok) s = .next s) ∧
    (s.plat.bringup.fail = false → k.job = none → k.reqs = [.bringup] → k.tests = [] → ∃ t, exec (.binderRun d) s = .next t ∧
      t.plat.bringup.decks = s.plat.bringup.decks ||| (1#4 <<< d.val) ∧ (t.deck d.val).reqs = [] ∧ (t.deck d.val).health = k.health ∧
      (∀ b ∈ bindDeck k.health, b.1 < 32 → ((bindDeck k.health).filter (fun e => e.1 == b.1)).length = 1 → b.2.1 < 72 → b.2.2 < 72 →
        t.halvesOf (32 * d.val + b.1) = some b.2) ∧
      (∀ i : Fin 32, (bindDeck k.health).all (fun b => b.1 != i.val) = true →
        (t.bindEnt (32 * d.val + i.val)).role = if k.health.feOk i.val then 2 else 3) ∧
      (∀ h, h < 72 → (t.deck d.val).gated.mem h = (k.gated.mem h || !(t.boundHalves d.val).contains h)) ∧
      ∀ n, n / 32 ≠ d.val → t.bindEnt n = s.bindEnt n) ∧
    (s.plat.bringup.fail = false → k.job = none → k.reqs = [.bringup] → k.tests ≠ [] → exec (.binderRun d) s = .next s) ∧
    (k.health.feOk f.val = true → ∃ t, exec (.partFailure d (.fe f)) s = .next t ∧
      (t.deck d.val).health.feok = k.health.feok &&& ~~~(1#32 <<< f.val) ∧ t.plat.life = { life with feret := upOne life.feret } ∧
      (s.joined d.val = false → { t with plat := s.plat } = s)) ∧
    (k.health.feOk f.val = false → exec (.partFailure d (.fe f)) s = .next s) ∧
    ((s.cluster cl.val).mark = none → exec (.rebind cl none) s = .next s) ∧
    (∀ w, (s.cluster cl.val).mark = some w → w = 1 ∨ w = 2 ∨ w = 4 → s.clusterBusy cl.val = false →
      (s.deck (cl.val / 8)).reqs = [.rebind cl.val] → (s.deck (cl.val / 8)).job = none →
      (∀ j, j < 4 → 2 ^ (s.bindEnt (4 * cl.val + j)).wcode.toNat = (s.cluster cl.val).width) →
      let alive (j : Nat) : Bool := (s.deck (cl.val / 8)).health.feOk ((4 * cl.val + j) % 32)
      let same (t : State) (n : Nat) : Prop := { t.bindEnt n with bgen := (s.bindEnt n).bgen } = s.bindEnt n
      ∃ t u, exec (.rebind cl none) s = .next t ∧ exec (.rebind cl none) t = .next u ∧
        t.cluster cl.val = s.cluster cl.val ∧ (t.deck (cl.val / 8)).reqs = [] ∧
        (∀ j, j < 4 → let n := 4 * cl.val + j
          (same u n → t.bindEnt n = s.bindEnt n ∧ u.bindEnt n = s.bindEnt n) ∧
          (¬ same u n → t.bindEnt n = ⟨(s.bindEnt n).bgen + 1, (s.bindEnt n).wcode, 2, BitVec.ofNat 7 n, false, 0, 0⟩ ∧
            (u.bindEnt n).bgen = (s.bindEnt n).bgen + 2)) ∧
        (u.cluster cl.val).mark = none ∧
        (u.cluster cl.val).width = (if (List.range 4).any (fun j => (s.halvesOf (4 * cl.val + j)).isNone || !alive j) then 1 else w) ∧
        { (u.cluster cl.val) with mark := (s.cluster cl.val).mark, width := (s.cluster cl.val).width } = s.cluster cl.val ∧
        (∀ j, j < 4 → alive j = false → (u.bindEnt (4 * cl.val + j)).halves = none ∧ (u.bindEnt (4 * cl.val + j)).role = 3) ∧
        (∀ j, j < 4 → (s.halvesOf (4 * cl.val + j)).isSome = true → alive j = true →
          (u.bindEnt (4 * cl.val + j)).wcode = BitVec.ofNat 2 (State.wcodeOf (u.cluster cl.val).width) ∧
          (u.bindEnt (4 * cl.val + j)).role = (if j % (u.cluster cl.val).width = 0 then 0 else 1)) ∧
        u.mem = s.mem ∧ u.strands = s.strands) ∧
    (s.joined d.val = true → k.job = none → s.halfUsed d.val x.val = false → ∃ t, exec (.halfPowerGate d x) s = .next t ∧
      { t.deck d.val with gated := k.gated } = k ∧ (∀ n, (t.deck d.val).gated.mem n = (k.gated.mem n || n == x.val)) ∧
      { t with plat := s.plat } = s) ∧
    (s.joined d.val = false ∨ s.halfUsed d.val x.val = true ∨ k.job.isSome = true → exec (.halfPowerGate d x) s = .next s)

/-- A step with an empty schedule issues the bundle at the program counter: exec of the decoded instruction for slot S, the engine’s queue for a lane operation. The order of events is the model’s own (log entry 1). -/
def Obligations.AStepRunsTheDecodedInstruction : Prop := Claims.stepPerforms ∧ Claims.stepQueues

/-- Decode and encode agree on every instruction, every operand at every value its encoding admits. -/
def Obligations.DecodingAnEncodedInstructionGivesItBack : Prop :=
  ∀ i : Instr, Laws.RoundTrip.Statement i

/-- The converse: a slot word that decodes is the encoding of what it decodes to. -/
def Obligations.EveryDecodableWordIsTheEncodingOfItsInstruction : Prop :=
  ∀ (k : SlotKind) (w : Nat) (lim : Option Nat) (i : Instr), w < 2 ^ k.width → decodeSlot k w lim = some i →
    encode i = some (k, w, lim) ∧ i.wf = true

/-- Words as the spec writes them, and words it refuses: a zero operation with another bit set (R106), BR (OP 0x32) under the guard ?!p0 (R102), and an unassigned code of slot Q (R98). -/
def Obligations.WordsDecodeAsTheSpecWritesThem : Prop :=
  decodeSlot .s 0x4100A2FD none = some (.addImm ⟨false, 0⟩ 5 5 (.short (-3))) ∧
  decodeSlot .s 0xC60063E4 none = some (.cmpImm ⟨false, 0⟩ .ltn 3 7 (.short 100)) ∧
  decodeSlot .s 0x1F008000 (some 100) = some (.li ⟨false, 0⟩ 4 (.long 100)) ∧
  decodeSlot .x 0x0300030E none = some (.cmrg ⟨false, 0⟩ 6 7) ∧
  decodeSlot .s 0x00000001 none = none ∧ decodeSlot .s 0x32800000 none = none ∧ decodeSlot .q 0xFF000000 none = none ∧
  decodeBundle 0 = .ok ⟨0⟩ []

/-- What a step does: the next event of its schedule, or of the part’s own order, or nothing. The order is the model’s choice (log entry 1). -/
def Obligations.AStepRunsTheNextEvent : Prop :=
  ∀ (s t : State) (i : Instr) (is : List Instr),
    (s.schedule = i :: is → s.plat.poweredOff = false ∨ i = .coldReset → encode i = none →
      exec i ({ s with schedule := is }).idle = .next t → step s = .next t.idle) ∧
    (s.schedule = i :: is → s.plat.poweredOff = false → (encode i).isSome = true → step s = .next { s with schedule := is }) ∧
    (s.schedule = [] → s.plat.poweredOff = false → s.nextEvent = some i →
      exec i ({ s with nextCore := s.nextCore + 1 }).idle = .next t → step s = .next t.idle) ∧
    (s.schedule = [] → s.plat.poweredOff = false → s.nextEvent = none → step s = .next { s with nextCore := 0 }) ∧
    (∀ c : Fin 128, s.nextCore = c.val → s.nextEvent = some (.selectorCycle c))

/-- A slot operation that does not perform: pending registers, a false guard, a wait, an issue check that stops it. -/
def Obligations.SlotsThatDoNotPerformChangeNoRegister : Prop :=
  ∀ (i : Instr) (g : Guard) (s : State), i.guard? = some g → s.ctx.admitted = false →
    (s.pendingWait false i = true → exec i s = .next s.wait) ∧
    (s.pendingWait false i = false → i.always = false → s.holds g = false → exec i s = .next s) ∧
    (s.pendingWait false i = false → i.always = true ∨ s.holds g = true → s.slotWait i = true → exec i s = .next s.wait) ∧
    (∀ code aux, s.pendingWait false i = false → i.always = true ∨ s.holds g = true → s.slotWait i = false →
      s.issueStop i = some (.trap code aux) → ∃ t, exec i s = .next t ∧
        t.me = { s.me with trap := some ⟨code, aux, s.ctx.word, s.ctx.slot⟩, holds := s.me.holds + 1 } ∧
        (∀ k, k ≠ s.meKey → t.strand k = s.strand k) ∧
        ((s.hctx s.me.hc).waiting ≠ [] → ∃ r, (t.hctx s.me.hc).waiting = (s.hctx s.me.hc).waiting ++ [r] ∧
          r.code = code ∧ r.aux = aux ∧ r.info = s.ctx.word ∧ r.slot = s.ctx.slot ∧ r.bundle = s.ctx.bundle.toNat)) ∧
    (∀ l, s.pendingWait false i = false → i.always = true ∨ s.holds g = true → s.slotWait i = false →
      s.issueStop i = some .violation → s.launch? s.me.launch = some l → ∃ t k, exec i s = .next t ∧
        t.launch? s.me.launch = some k ∧ k.status = some (.failed 0x10) ∧ t.launchStrands s.me.launch = [] ∧
        ∀ j, (t.strand j).front = (s.strand j).front ∧ (t.strand j).eng = (s.strand j).eng)

/-- What cold reset leaves. That device memory reads zero is log entry 4. -/
def Obligations.ResetLeavesTheStatedValues : Prop :=
  let r := State.reset
  (∀ k, let t := r.strand k
    t.life = .free ∧ t.front.x = Vector.replicate 64 0 ∧ t.front.a = Vector.replicate 16 0 ∧ t.front.b = Vector.replicate 8 0 ∧
    (∀ i : Fin 16, t.front.p[i] = decide (i = 0)) ∧ (∀ i : Fin 8, t.eng.q[i] = if i = 0 then BitVec.allOnes 512 else 0) ∧
    t.eng.v = Vector.replicate 32 (Vector.replicate 512 0) ∧ t.eng.k = Vector.replicate 64 ⟨0xFF800000, 0xFFFFFFFF⟩ ∧ t.eng.qcnt = 0 ∧
    t.front.fstat = 0 ∧ t.front.fmode = 0 ∧ t.front.seqlen = 0 ∧ t.front.occ = 0 ∧ t.front.draft = 0 ∧ t.front.scnt = 0 ∧
    t.front.bindsel = BitVec.ofNat 7 (k / 4) ∧ t.tokens = Vector.replicate 8 ⟨.clear, 0⟩ ∧ (∀ l ∈ t.levels.toList, l.run = false ∧ l.ctl = 0)) ∧
  (∀ c, (r.core c).cycle = 0 ∧ (r.core c).halt = 0 ∧ (r.core c).policy = false ∧ (r.core c).cur = 0) ∧
  (∀ c, (r.cluster c).width = 1 ∧ (r.cluster c).lines = [] ∧ (r.cluster c).tlb = [] ∧ (r.cluster c).seccnt = 0) ∧
  (∀ c b, r.bank c b = ⟨0, none, none, 0, 0, 0⟩) ∧
  (∀ a, r.mem.read a = 0) ∧ r.full = [] ∧ r.poison = [] ∧ r.linePoison = [] ∧
  (∀ n, r.bindEnt n = ⟨0, 0, 2, BitVec.ofNat 7 n, false, 0, 0⟩) ∧
  (∀ h, (r.hctx h).st = .free ∧ (r.hctx h).preempt = 20 ∧ (r.hctx h).wdog = 1000 ∧ (r.hctx h).pause = false ∧ (r.hctx h).saven = 0) ∧
  r.launches = [] ∧ r.images = [] ∧ r.home = [] ∧ r.replies = [] ∧ r.mbox = ⟨Vector.replicate 64 0, false, 0⟩ ∧
  r.plat.bringup = ⟨false, false, false, false, 0⟩ ∧ r.plat.thermal.level = 0 ∧ r.plat.thermal.clock = 12 ∧ r.plat.poweredOff = false ∧
  ∀ d : Fin 4, r.plat.decks[d].reqs = [.bringup] ∧ r.plat.decks[d].tests.length = 104

/-- Every step keeps memory in its canonical form, every width at most 4, and nothing half done. -/
def Obligations.EveryStepKeepsTheInvariant : Prop := ∀ s t : State, Keeps s → step s = .next t → Keeps t

/-- The invariant holds at reset. -/
def Obligations.TheInvariantHoldsAtReset : Prop := Keeps State.reset

/-- Memory: a read after a write, zeroing, the canonical form, and its uniqueness. -/
def Obligations.MemoryReadsBackAndIsCanonical : Prop :=
  ∀ (m n : Mem) (a k : Nat) (bs : List Byte), m.wf = true →
    (m.write a bs).wf = true ∧ (m.zero a k).wf = true ∧
    (∀ x, (m.write a bs).read x = if a ≤ x ∧ x < a + bs.length then bs.getD (x - a) 0 else m.read x) ∧
    (∀ x, (m.zero a k).read x = if a ≤ x ∧ x < a + k then 0 else m.read x) ∧
    (m.write a bs).readN a bs.length = bs ∧
    (n.wf = true → (∀ x, m.read x = n.read x) → m = n)
end

