-- ==== Sys2Proof/Laws/Map.lean ====
section
/-! SUPPORT. Sparse maps: what is read after an entry is replaced or erased. -/

namespace Sys2Proof.Machine.Map

variable {α : Type}

/-- A filter that keeps every entry of a key does not change what the key reads as. -/
theorem get?_filter (m : Map α) (k : Nat) (p : Nat × α → Bool) (h : ∀ v, p (k, v) = true) :
    get? (m.filter p) k = get? m k := by
  induction m with
  | nil => rfl
  | cons e m ih =>
      obtain ⟨a, v⟩ := e
      by_cases hp : p (a, v) = true
      · rw [List.filter_cons_of_pos hp]
        by_cases ha : a = k
        · simp [get?, ha]
        · simpa [get?, List.find?_cons, ha] using ih
      · have ha : a ≠ k := fun e => hp (e ▸ h v)
        rw [List.filter_cons_of_neg (by simpa using hp), ih]
        simp [get?, ha]

/-- A filter that drops every entry of a key leaves nothing at it. -/
theorem get?_filter_none (m : Map α) (k : Nat) (p : Nat × α → Bool) (h : ∀ v, p (k, v) = false) :
    get? (m.filter p) k = none := by
  have : (m.filter p).find? (fun e => e.1 == k) = none := by
    rw [List.find?_eq_none]
    rintro ⟨a, v⟩ hm
    have := (List.mem_filter.mp hm).2
    intro e
    simp only [beq_iff_eq] at e
    subst e
    simp [h v] at this
  simp [get?, this]

theorem get?_append (m n : Map α) (k : Nat) : get? (m ++ n) k = (get? m k).or (get? n k) := by
  simp only [get?, List.find?_append]
  cases m.find? (fun e => e.1 == k) <;> simp

theorem get?_cons (e : Nat × α) (m : Map α) (k : Nat) : get? (e :: m) k = if e.1 = k then some e.2 else get? m k := by
  by_cases h : e.1 = k <;> simp [get?, h]

/-- The replaced entry reads as what it was given, every other as before. -/
theorem get?_set (m : Map α) (k j : Nat) (v : α) : get? (set m k v) j = if j = k then some v else get? m j := by
  rw [set, get?_append, get?_cons]
  rcases Nat.lt_trichotomy j k with h | h | h
  · have h' : ¬ k = j := by omega
    have h2 : ¬ j = k := by omega
    rw [get?_filter _ _ _ (fun _ => by simpa using h), get?_filter_none m j _ (fun _ => by simp; omega)]
    simp [h', h2]
  · subst h
    rw [get?_filter_none m j _ (fun _ => by simp)]
    simp
  · have h' : ¬ k = j := by omega
    have h2 : ¬ j = k := by omega
    rw [get?_filter_none m j _ (fun _ => by simp; omega), get?_filter _ _ _ (fun _ => by simpa using h)]
    simp [h', h2]

theorem getD_set (m : Map α) (k j : Nat) (v d : α) : getD (set m k v) j d = if j = k then v else getD m j d := by
  by_cases h : j = k <;> simp [getD, get?_set, h]

@[simp] theorem getD_set_self (m : Map α) (k : Nat) (v d : α) : getD (set m k v) k d = v := by simp [getD_set]

/-- Replacing an entry twice leaves the second. -/
@[simp] theorem set_set (m : Map α) (k : Nat) (u v : α) : set (set m k u) k v = set m k v := by
  simp only [set, List.filter_append, List.filter_cons, List.filter_filter]
  have a : ∀ x : Nat, (decide (x < k) && decide (k < x)) = false := by intro x; simp; omega
  have b : ∀ x : Nat, (decide (k < x) && decide (x < k)) = false := by intro x; simp; omega
  simp [a, b]

/-- The entry of an erased key is gone, every other is as before. -/
theorem get?_erase (m : Map α) (k j : Nat) : get? (erase m k) j = if j = k then none else get? m j := by
  by_cases h : j = k
  · subst h; rw [erase, get?_filter_none m j _ (fun _ => by simp)]; simp
  · rw [erase, get?_filter m j _ (fun _ => by simpa using h)]; simp [h]

end Sys2Proof.Machine.Map
end

