-- ==== Sys2Proof/Laws/Memory.lean ====
section
/-! SUPPORT. Memory: a byte reads as last written, every other byte as before, and every operation keeps the canonical form. -/

namespace Sys2Proof.Machine

namespace Mem

theorem read_nil (a : Nat) : read [] a = unlisted := rfl

theorem read_cons (c : Host.Cell) (m : Mem) (a : Nat) : read (c :: m) a = if c.1 = a then c.2 else read m a := by
  by_cases h : c.1 = a <;> simp [read, h]

/-- Whether some cell of a list names an address. -/
def lists (m : Mem) (a : Nat) : Bool := m.any (fun c => c.1 == a)

theorem read_append (m n : Mem) (a : Nat) : read (m ++ n) a = if m.lists a then read m a else read n a := by
  induction m with
  | nil => simp [lists]
  | cons c m ih =>
      rw [List.cons_append, read_cons, read_cons, ih]
      by_cases h : c.1 = a <;> simp [lists, h]

theorem read_not_listed (m : Mem) (a : Nat) (h : m.lists a = false) : read m a = unlisted := by
  induction m with
  | nil => rfl
  | cons c m ih =>
      simp only [lists, List.any_cons, Bool.or_eq_false_iff, beq_eq_false_iff_ne] at h
      rw [read_cons, if_neg h.1, ih h.2]

/-- A filter by address reads as before where it keeps, as nothing where it drops. -/
theorem read_filter (m : Mem) (p : Nat → Bool) (a : Nat) :
    read (m.filter (fun c => p c.1)) a = if p a then read m a else unlisted := by
  induction m with
  | nil => simp [read_nil]
  | cons c m ih =>
      rw [List.filter_cons]
      by_cases hc : c.1 = a
      · subst hc; by_cases hp : p c.1 = true <;> simp [hp, read_cons, ih]
      · by_cases hp : p c.1 = true <;> simp [hp, read_cons, ih, hc]

theorem lists_filter (m : Mem) (p : Nat → Bool) (a : Nat) (h : p a = false) :
    lists (m.filter (fun c => p c.1)) a = false := by
  simp only [lists, List.any_eq_false, List.mem_filter, beq_iff_eq, and_imp, Prod.forall]
  rintro b v _ hb rfl
  simp [h] at hb

theorem lists_cells_lt (bs : List Byte) (a b : Nat) (h : b < a) : lists (cells a bs) b = false := by
  induction bs generalizing a with
  | nil => rfl
  | cons x bs ih =>
      simp only [cells]
      split
      · exact ih (a + 1) (by omega)
      · have := ih (a + 1) (by omega)
        simp only [lists, List.any_cons, Bool.or_eq_false_iff, beq_eq_false_iff_ne] at this ⊢
        exact ⟨by omega, this⟩

theorem lists_cells_ge (bs : List Byte) (a b : Nat) (h : a + bs.length ≤ b) : lists (cells a bs) b = false := by
  induction bs generalizing a with
  | nil => rfl
  | cons x bs ih =>
      simp only [List.length_cons] at h
      simp only [cells]
      split
      · exact ih (a + 1) (by omega)
      · have := ih (a + 1) (by omega)
        simp only [lists, List.any_cons, Bool.or_eq_false_iff, beq_eq_false_iff_ne] at this ⊢
        exact ⟨by omega, this⟩

theorem read_cells (bs : List Byte) (a b : Nat) :
    read (cells a bs) b = if a ≤ b ∧ b < a + bs.length then bs.getD (b - a) 0 else unlisted := by
  induction bs generalizing a with
  | nil => rw [if_neg (by simp)]; rfl
  | cons x bs ih =>
      simp only [cells, List.length_cons]
      by_cases hb : a = b
      · subst hb
        by_cases hx : x = unlisted
        · rw [if_pos hx, read_not_listed _ _ (lists_cells_lt bs (a + 1) a (by omega))]
          simp [hx]
        · rw [if_neg hx, read_cons, if_pos rfl]
          simp
      · have e : read (cells (a + 1) bs) b =
            if a ≤ b ∧ b < a + (bs.length + 1) then (x :: bs).getD (b - a) 0 else unlisted := by
          rw [ih (a + 1)]
          by_cases h : a + 1 ≤ b ∧ b < a + 1 + bs.length
          · rw [if_pos h, if_pos (by omega)]
            obtain ⟨n, rfl⟩ : ∃ n, b = a + 1 + n := ⟨b - (a + 1), by omega⟩
            rw [show a + 1 + n - (a + 1) = n by omega, show a + 1 + n - a = n + 1 by omega]
            simp
          · rw [if_neg h, if_neg (by omega)]
        split
        · exact e
        · rw [read_cons, if_neg hb]; exact e

/-- A byte of a written extent reads as it was written, every other as before. -/
theorem read_write (m : Mem) (a : Nat) (bs : List Byte) (b : Nat) :
    read (m.write a bs) b = if a ≤ b ∧ b < a + bs.length then bs.getD (b - a) 0 else m.read b := by
  rw [write, read_append, read_append]
  by_cases h1 : b < a
  · have l1 : lists (cells a bs) b = false := lists_cells_lt bs a b h1
    have e1 : read (m.filter (fun c => decide (c.1 < a))) b = m.read b := by
      rw [read_filter m (fun x => decide (x < a))]; simp [h1]
    have e3 : read (m.filter (fun c => decide (a + bs.length ≤ c.1))) b = unlisted := by
      rw [read_filter m (fun x => decide (a + bs.length ≤ x))]; simp; omega
    rw [if_neg (show ¬(a ≤ b ∧ b < a + bs.length) by omega)]
    have l1' : lists (m.filter (fun c => decide (c.1 < a)) ++ cells a bs) b = lists (m.filter (fun c => decide (c.1 < a))) b := by
      simp only [lists, List.any_append] at l1 ⊢; simp [l1]
    rw [l1']
    by_cases hl : lists (m.filter (fun c => decide (c.1 < a))) b = true
    · simp [hl, e1]
    · simp only [Bool.not_eq_true] at hl
      rw [read_not_listed _ _ hl] at e1
      simp [hl, e3, e1]
  · have l0 : lists (m.filter (fun c => decide (c.1 < a))) b = false :=
      lists_filter m (fun x => decide (x < a)) b (by simpa using h1)
    have l0' : lists (m.filter (fun c => decide (c.1 < a)) ++ cells a bs) b = lists (cells a bs) b := by
      simp only [lists, List.any_append] at l0 ⊢; simp [l0]
    rw [l0', l0]
    have e3 : read (m.filter (fun c => decide (a + bs.length ≤ c.1))) b = if a + bs.length ≤ b then m.read b else unlisted := by
      rw [read_filter m (fun x => decide (a + bs.length ≤ x))]; simp
    by_cases h2 : b < a + bs.length
    · have c := read_cells bs a b
      rw [if_pos (show a ≤ b ∧ b < a + bs.length by omega)] at c
      rw [show (if a ≤ b ∧ b < a + bs.length then bs.getD (b - a) 0 else m.read b) = bs.getD (b - a) 0 from
        if_pos (by omega), ← c, e3, if_neg (show ¬ a + bs.length ≤ b by omega)]
      by_cases hl : lists (cells a bs) b = true
      · simp [hl]
      · simp only [Bool.not_eq_true] at hl
        simp [hl, read_not_listed _ _ hl]
    · rw [show (if a ≤ b ∧ b < a + bs.length then bs.getD (b - a) 0 else m.read b) = m.read b from if_neg (by omega),
        lists_cells_ge bs a b (by omega), e3, if_pos (show a + bs.length ≤ b by omega)]
      simp

/-- A range set to zero reads as zero, every other byte as before. -/
theorem read_zero (m : Mem) (a n b : Nat) :
    read (m.zero a n) b = if a ≤ b ∧ b < a + n then unlisted else m.read b := by
  rw [zero, read_filter m (fun x => decide (x < a) || decide (a + n ≤ x))]
  by_cases h : a ≤ b ∧ b < a + n
  · simp [h]
  · rw [if_neg h, if_pos (by simp; omega)]

/-- The bytes just written are read back. -/
theorem readN_write (m : Mem) (a : Nat) (bs : List Byte) : (m.write a bs).readN a bs.length = bs := by
  apply List.ext_getElem
  · simp [readN]
  · intro i h1 h2
    simp [readN, read_write, h2, List.getD_eq_getElem?_getD]

/-- Bytes outside a written extent are read as before. -/
theorem readN_write_apart (m : Mem) (a : Nat) (bs : List Byte) (b n : Nat) (h : b + n ≤ a ∨ a + bs.length ≤ b) :
    (m.write a bs).readN b n = m.readN b n := by
  simp only [readN, List.map_inj_left, List.mem_range]
  intro i hi
  rw [read_write, if_neg (by omega)]

@[simp] theorem length_readN (m : Mem) (a n : Nat) : (m.readN a n).length = n := by simp [readN]

/-! ### The canonical form -/

theorem wfFrom_mono {lo hi : Nat} (h : lo ≤ hi) (m : Mem) (w : wfFrom hi m = true) : wfFrom lo m = true := by
  cases m with
  | nil => rfl
  | cons c m => simp only [wfFrom, Bool.and_eq_true, decide_eq_true_eq] at w ⊢; exact ⟨⟨by omega, w.1.2⟩, w.2⟩

theorem wfFrom_filter (p : Host.Cell → Bool) (m : Mem) (lo : Nat) (w : wfFrom lo m = true) :
    wfFrom lo (m.filter p) = true := by
  induction m generalizing lo with
  | nil => rfl
  | cons c m ih =>
      simp only [wfFrom, Bool.and_eq_true, decide_eq_true_eq] at w
      rw [List.filter_cons]
      split
      · simp only [wfFrom, Bool.and_eq_true, decide_eq_true_eq]
        exact ⟨w.1, ih _ w.2⟩
      · exact wfFrom_mono (by omega) _ (ih _ w.2)

/-- Cells below a bound, followed by cells from the bound up. -/
theorem wfFrom_append (m n : Mem) (lo mid : Nat) (hm : wfFrom lo m = true) (hb : ∀ c ∈ m, c.1 < mid) (hlo : lo ≤ mid)
    (hn : wfFrom mid n = true) : wfFrom lo (m ++ n) = true := by
  induction m generalizing lo with
  | nil => exact wfFrom_mono hlo n hn
  | cons c m ih =>
      simp only [List.cons_append, wfFrom, Bool.and_eq_true, decide_eq_true_eq] at hm ⊢
      have := hb c (by simp)
      exact ⟨hm.1, ih _ hm.2 (fun x hx => hb x (by simp [hx])) (by omega)⟩

theorem wfFrom_cells (bs : List Byte) (a : Nat) : wfFrom a (cells a bs) = true := by
  induction bs generalizing a with
  | nil => rfl
  | cons b bs ih =>
      simp only [cells]
      split
      · exact wfFrom_mono (by omega) _ (ih (a + 1))
      · rename_i h
        simp [wfFrom, ih (a + 1), h]

theorem cells_lt (bs : List Byte) (a : Nat) : ∀ c ∈ cells a bs, c.1 < a + bs.length := by
  induction bs generalizing a with
  | nil => simp [cells]
  | cons b bs ih =>
      intro c hc
      simp only [cells] at hc
      split at hc
      · have := ih (a + 1) c hc; simp only [List.length_cons]; omega
      · rcases List.mem_cons.mp hc with rfl | hc
        · simp
        · have := ih (a + 1) c hc; simp only [List.length_cons]; omega

/-- Cells whose addresses are at least a bound. -/
theorem wfFrom_filter_ge (m : Mem) (lo hi : Nat) (w : wfFrom lo m = true) :
    wfFrom hi (m.filter (fun c => decide (hi ≤ c.1))) = true := by
  induction m generalizing lo with
  | nil => rfl
  | cons c m ih =>
      simp only [wfFrom, Bool.and_eq_true, decide_eq_true_eq] at w
      rw [List.filter_cons]
      split
      · rename_i h
        simp only [decide_eq_true_eq] at h
        simp only [wfFrom, Bool.and_eq_true, decide_eq_true_eq]
        exact ⟨⟨h, w.1.2⟩, wfFrom_filter _ m _ w.2⟩
      · exact ih _ w.2

/-- A write keeps the canonical form. -/
theorem wf_write (m : Mem) (a : Nat) (bs : List Byte) (w : m.wf = true) : (m.write a bs).wf = true := by
  unfold wf at w ⊢
  refine wfFrom_append _ _ 0 (a + bs.length) (wfFrom_append _ _ 0 a (wfFrom_filter _ m 0 w) ?_ (by omega) (wfFrom_cells bs a)) ?_
    (by omega) (wfFrom_filter_ge m 0 _ w)
  · intro c hc; simpa using (List.mem_filter.mp hc).2
  · intro c hc
    rcases List.mem_append.mp hc with hc | hc
    · have := (List.mem_filter.mp hc).2; simp at this; omega
    · exact cells_lt bs a c hc

/-- A range set to zero keeps the canonical form. -/
theorem wf_zero (m : Mem) (a n : Nat) (w : m.wf = true) : (m.zero a n).wf = true := wfFrom_filter _ m 0 w

/-- A filter keeps the canonical form. -/
theorem wf_filter (m : Mem) (p : Host.Cell → Bool) (w : m.wf = true) : wf (m.filter p) = true := wfFrom_filter p m 0 w

theorem read_below (m : Mem) (lo a : Nat) (w : wfFrom lo m = true) (h : a < lo) : read m a = unlisted := by
  induction m generalizing lo with
  | nil => rfl
  | cons c m ih =>
      simp only [wfFrom, Bool.and_eq_true, decide_eq_true_eq] at w
      rw [read_cons, if_neg (by omega), ih (c.1 + 1) w.2 (by omega)]

theorem ext_from (lo : Nat) (m n : Mem) (hm : wfFrom lo m = true) (hn : wfFrom lo n = true)
    (h : ∀ a, lo ≤ a → m.read a = n.read a) : m = n := by
  induction m generalizing lo n with
  | nil =>
      cases n with
      | nil => rfl
      | cons d n =>
          simp only [wfFrom, Bool.and_eq_true, decide_eq_true_eq, bne_iff_ne] at hn
          have := h d.1 hn.1.1
          rw [read_cons, if_pos rfl, read_nil] at this
          exact absurd this.symm hn.1.2
  | cons c m ih =>
      simp only [wfFrom, Bool.and_eq_true, decide_eq_true_eq, bne_iff_ne] at hm
      cases n with
      | nil =>
          have := h c.1 hm.1.1
          rw [read_cons, if_pos rfl, read_nil] at this
          exact absurd this hm.1.2
      | cons d n =>
          simp only [wfFrom, Bool.and_eq_true, decide_eq_true_eq, bne_iff_ne] at hn
          have hc := h c.1 hm.1.1
          have hd := h d.1 hn.1.1
          rw [read_cons, if_pos rfl] at hc
          rw [read_cons (c := d), if_pos rfl] at hd
          have e : c.1 = d.1 := by
            rcases Nat.lt_trichotomy c.1 d.1 with q | q | q
            · rw [read_cons, if_neg (by omega), read_below n (d.1 + 1) _ hn.2 (by omega)] at hc
              exact absurd hc hm.1.2
            · exact q
            · rw [read_cons, if_neg (by omega), read_below m (c.1 + 1) _ hm.2 (by omega)] at hd
              exact absurd hd.symm hn.1.2
          rw [read_cons, if_pos e.symm] at hc
          have hcd : c = d := Prod.ext e hc
          subst hcd
          congr 1
          refine ih (c.1 + 1) n hm.2 hn.2 (fun a ha => ?_)
          have := h a (by omega)
          rwa [read_cons, read_cons, if_neg (by omega), if_neg (by omega)] at this

/-- Memories in canonical form that read the same everywhere are the same. -/
theorem ext_wf (m n : Mem) (hm : m.wf = true) (hn : n.wf = true) (h : ∀ a, m.read a = n.read a) : m = n :=
  ext_from 0 m n hm hn (fun a _ => h a)

end Mem

/-! ### Little-endian numbers (R1) -/

@[simp] theorem length_leBytes (n v : Nat) : (leBytes n v).length = n := by
  induction n generalizing v with
  | zero => rfl
  | succ n ih => simp [leBytes, ih]

/-- The bytes of a number give back the number, wrapped to their width. -/
theorem leNat_leBytes (n v : Nat) : leNat (leBytes n v) = v % 256 ^ n := by
  induction n generalizing v with
  | zero => simp [leBytes, leNat, Nat.mod_one]
  | succ n ih =>
      have e : v % (256 * 256 ^ n) = v % 256 + 256 * (v / 256 % 256 ^ n) := Nat.mod_mul
      rw [leBytes, leNat, ih, BitVec.toNat_ofNat, show 256 ^ (n + 1) = 256 * 256 ^ n from Nat.pow_succ', e]

end Sys2Proof.Machine
end

