-- ==== Sys2Proof/Laws/State.lean ====
section
/-! SUPPORT. One field after one update of the state. -/

namespace Sys2Proof.Machine.State

variable (s : State)

@[simp] theorem setStrand_cores (k : Nat) (t : Strand) : (s.setStrand k t).cores = s.cores := rfl
@[simp] theorem setStrand_clusters (k : Nat) (t : Strand) : (s.setStrand k t).clusters = s.clusters := rfl
@[simp] theorem setStrand_ctxs (k : Nat) (t : Strand) : (s.setStrand k t).ctxs = s.ctxs := rfl
@[simp] theorem setStrand_mem (k : Nat) (t : Strand) : (s.setStrand k t).mem = s.mem := rfl
@[simp] theorem setStrand_full (k : Nat) (t : Strand) : (s.setStrand k t).full = s.full := rfl
@[simp] theorem setStrand_poison (k : Nat) (t : Strand) : (s.setStrand k t).poison = s.poison := rfl
@[simp] theorem setStrand_linePoison (k : Nat) (t : Strand) : (s.setStrand k t).linePoison = s.linePoison := rfl
@[simp] theorem setStrand_agent (k : Nat) (t : Strand) : (s.setStrand k t).agent = s.agent := rfl
@[simp] theorem setStrand_busyLines (k : Nat) (t : Strand) : (s.setStrand k t).busyLines = s.busyLines := rfl
@[simp] theorem setStrand_home (k : Nat) (t : Strand) : (s.setStrand k t).home = s.home := rfl
@[simp] theorem setStrand_replies (k : Nat) (t : Strand) : (s.setStrand k t).replies = s.replies := rfl
@[simp] theorem setStrand_launches (k : Nat) (t : Strand) : (s.setStrand k t).launches = s.launches := rfl
@[simp] theorem setStrand_images (k : Nat) (t : Strand) : (s.setStrand k t).images = s.images := rfl
@[simp] theorem setStrand_copies (k : Nat) (t : Strand) : (s.setStrand k t).copies = s.copies := rfl
@[simp] theorem setStrand_gemvs (k : Nat) (t : Strand) : (s.setStrand k t).gemvs = s.gemvs := rfl
@[simp] theorem setStrand_mmas (k : Nat) (t : Strand) : (s.setStrand k t).mmas = s.mmas := rfl
@[simp] theorem setStrand_pushes (k : Nat) (t : Strand) : (s.setStrand k t).pushes = s.pushes := rfl
@[simp] theorem setStrand_walks (k : Nat) (t : Strand) : (s.setStrand k t).walks = s.walks := rfl
@[simp] theorem setStrand_blks (k : Nat) (t : Strand) : (s.setStrand k t).blks = s.blks := rfl
@[simp] theorem setStrand_slots (k : Nat) (t : Strand) : (s.setStrand k t).slots = s.slots := rfl
@[simp] theorem setStrand_cells (k : Nat) (t : Strand) : (s.setStrand k t).cells = s.cells := rfl
@[simp] theorem setStrand_pfx (k : Nat) (t : Strand) : (s.setStrand k t).pfx = s.pfx := rfl
@[simp] theorem setStrand_streams (k : Nat) (t : Strand) : (s.setStrand k t).streams = s.streams := rfl
@[simp] theorem setStrand_binding (k : Nat) (t : Strand) : (s.setStrand k t).binding = s.binding := rfl
@[simp] theorem setStrand_pool (k : Nat) (t : Strand) : (s.setStrand k t).pool = s.pool := rfl
@[simp] theorem setStrand_mbox (k : Nat) (t : Strand) : (s.setStrand k t).mbox = s.mbox := rfl
@[simp] theorem setStrand_keys (k : Nat) (t : Strand) : (s.setStrand k t).keys = s.keys := rfl
@[simp] theorem setStrand_reserved (k : Nat) (t : Strand) : (s.setStrand k t).reserved = s.reserved := rfl
@[simp] theorem setStrand_retired (k : Nat) (t : Strand) : (s.setStrand k t).retired = s.retired := rfl
@[simp] theorem setStrand_plat (k : Nat) (t : Strand) : (s.setStrand k t).plat = s.plat := rfl
@[simp] theorem setStrand_ctx (k : Nat) (t : Strand) : (s.setStrand k t).ctx = s.ctx := rfl
@[simp] theorem setStrand_schedule (k : Nat) (t : Strand) : (s.setStrand k t).schedule = s.schedule := rfl
@[simp] theorem setStrand_nextCore (k : Nat) (t : Strand) : (s.setStrand k t).nextCore = s.nextCore := rfl
@[simp] theorem setStrand_fresh (k : Nat) (t : Strand) : (s.setStrand k t).fresh = s.fresh := rfl
@[simp] theorem setStrand_nextId (k : Nat) (t : Strand) : (s.setStrand k t).nextId = s.nextId := rfl
@[simp] theorem setStrand_nextGang (k : Nat) (t : Strand) : (s.setStrand k t).nextGang = s.nextGang := rfl

@[simp] theorem modStrand_cores (k : Nat) (f : Strand → Strand) : (s.modStrand k f).cores = s.cores := rfl
@[simp] theorem modStrand_clusters (k : Nat) (f : Strand → Strand) : (s.modStrand k f).clusters = s.clusters := rfl
@[simp] theorem modStrand_ctxs (k : Nat) (f : Strand → Strand) : (s.modStrand k f).ctxs = s.ctxs := rfl
@[simp] theorem modStrand_mem (k : Nat) (f : Strand → Strand) : (s.modStrand k f).mem = s.mem := rfl
@[simp] theorem modStrand_full (k : Nat) (f : Strand → Strand) : (s.modStrand k f).full = s.full := rfl
@[simp] theorem modStrand_poison (k : Nat) (f : Strand → Strand) : (s.modStrand k f).poison = s.poison := rfl
@[simp] theorem modStrand_linePoison (k : Nat) (f : Strand → Strand) : (s.modStrand k f).linePoison = s.linePoison := rfl
@[simp] theorem modStrand_agent (k : Nat) (f : Strand → Strand) : (s.modStrand k f).agent = s.agent := rfl
@[simp] theorem modStrand_busyLines (k : Nat) (f : Strand → Strand) : (s.modStrand k f).busyLines = s.busyLines := rfl
@[simp] theorem modStrand_home (k : Nat) (f : Strand → Strand) : (s.modStrand k f).home = s.home := rfl
@[simp] theorem modStrand_replies (k : Nat) (f : Strand → Strand) : (s.modStrand k f).replies = s.replies := rfl
@[simp] theorem modStrand_launches (k : Nat) (f : Strand → Strand) : (s.modStrand k f).launches = s.launches := rfl
@[simp] theorem modStrand_images (k : Nat) (f : Strand → Strand) : (s.modStrand k f).images = s.images := rfl
@[simp] theorem modStrand_copies (k : Nat) (f : Strand → Strand) : (s.modStrand k f).copies = s.copies := rfl
@[simp] theorem modStrand_gemvs (k : Nat) (f : Strand → Strand) : (s.modStrand k f).gemvs = s.gemvs := rfl
@[simp] theorem modStrand_mmas (k : Nat) (f : Strand → Strand) : (s.modStrand k f).mmas = s.mmas := rfl
@[simp] theorem modStrand_pushes (k : Nat) (f : Strand → Strand) : (s.modStrand k f).pushes = s.pushes := rfl
@[simp] theorem modStrand_walks (k : Nat) (f : Strand → Strand) : (s.modStrand k f).walks = s.walks := rfl
@[simp] theorem modStrand_blks (k : Nat) (f : Strand → Strand) : (s.modStrand k f).blks = s.blks := rfl
@[simp] theorem modStrand_slots (k : Nat) (f : Strand → Strand) : (s.modStrand k f).slots = s.slots := rfl
@[simp] theorem modStrand_cells (k : Nat) (f : Strand → Strand) : (s.modStrand k f).cells = s.cells := rfl
@[simp] theorem modStrand_pfx (k : Nat) (f : Strand → Strand) : (s.modStrand k f).pfx = s.pfx := rfl
@[simp] theorem modStrand_streams (k : Nat) (f : Strand → Strand) : (s.modStrand k f).streams = s.streams := rfl
@[simp] theorem modStrand_binding (k : Nat) (f : Strand → Strand) : (s.modStrand k f).binding = s.binding := rfl
@[simp] theorem modStrand_pool (k : Nat) (f : Strand → Strand) : (s.modStrand k f).pool = s.pool := rfl
@[simp] theorem modStrand_mbox (k : Nat) (f : Strand → Strand) : (s.modStrand k f).mbox = s.mbox := rfl
@[simp] theorem modStrand_keys (k : Nat) (f : Strand → Strand) : (s.modStrand k f).keys = s.keys := rfl
@[simp] theorem modStrand_reserved (k : Nat) (f : Strand → Strand) : (s.modStrand k f).reserved = s.reserved := rfl
@[simp] theorem modStrand_retired (k : Nat) (f : Strand → Strand) : (s.modStrand k f).retired = s.retired := rfl
@[simp] theorem modStrand_plat (k : Nat) (f : Strand → Strand) : (s.modStrand k f).plat = s.plat := rfl
@[simp] theorem modStrand_ctx (k : Nat) (f : Strand → Strand) : (s.modStrand k f).ctx = s.ctx := rfl
@[simp] theorem modStrand_schedule (k : Nat) (f : Strand → Strand) : (s.modStrand k f).schedule = s.schedule := rfl
@[simp] theorem modStrand_nextCore (k : Nat) (f : Strand → Strand) : (s.modStrand k f).nextCore = s.nextCore := rfl
@[simp] theorem modStrand_fresh (k : Nat) (f : Strand → Strand) : (s.modStrand k f).fresh = s.fresh := rfl
@[simp] theorem modStrand_nextId (k : Nat) (f : Strand → Strand) : (s.modStrand k f).nextId = s.nextId := rfl
@[simp] theorem modStrand_nextGang (k : Nat) (f : Strand → Strand) : (s.modStrand k f).nextGang = s.nextGang := rfl

@[simp] theorem modMe_cores (f : Strand → Strand) : (s.modMe f).cores = s.cores := rfl
@[simp] theorem modMe_clusters (f : Strand → Strand) : (s.modMe f).clusters = s.clusters := rfl
@[simp] theorem modMe_ctxs (f : Strand → Strand) : (s.modMe f).ctxs = s.ctxs := rfl
@[simp] theorem modMe_mem (f : Strand → Strand) : (s.modMe f).mem = s.mem := rfl
@[simp] theorem modMe_full (f : Strand → Strand) : (s.modMe f).full = s.full := rfl
@[simp] theorem modMe_poison (f : Strand → Strand) : (s.modMe f).poison = s.poison := rfl
@[simp] theorem modMe_linePoison (f : Strand → Strand) : (s.modMe f).linePoison = s.linePoison := rfl
@[simp] theorem modMe_agent (f : Strand → Strand) : (s.modMe f).agent = s.agent := rfl
@[simp] theorem modMe_busyLines (f : Strand → Strand) : (s.modMe f).busyLines = s.busyLines := rfl
@[simp] theorem modMe_home (f : Strand → Strand) : (s.modMe f).home = s.home := rfl
@[simp] theorem modMe_replies (f : Strand → Strand) : (s.modMe f).replies = s.replies := rfl
@[simp] theorem modMe_launches (f : Strand → Strand) : (s.modMe f).launches = s.launches := rfl
@[simp] theorem modMe_images (f : Strand → Strand) : (s.modMe f).images = s.images := rfl
@[simp] theorem modMe_copies (f : Strand → Strand) : (s.modMe f).copies = s.copies := rfl
@[simp] theorem modMe_gemvs (f : Strand → Strand) : (s.modMe f).gemvs = s.gemvs := rfl
@[simp] theorem modMe_mmas (f : Strand → Strand) : (s.modMe f).mmas = s.mmas := rfl
@[simp] theorem modMe_pushes (f : Strand → Strand) : (s.modMe f).pushes = s.pushes := rfl
@[simp] theorem modMe_walks (f : Strand → Strand) : (s.modMe f).walks = s.walks := rfl
@[simp] theorem modMe_blks (f : Strand → Strand) : (s.modMe f).blks = s.blks := rfl
@[simp] theorem modMe_slots (f : Strand → Strand) : (s.modMe f).slots = s.slots := rfl
@[simp] theorem modMe_cells (f : Strand → Strand) : (s.modMe f).cells = s.cells := rfl
@[simp] theorem modMe_pfx (f : Strand → Strand) : (s.modMe f).pfx = s.pfx := rfl
@[simp] theorem modMe_streams (f : Strand → Strand) : (s.modMe f).streams = s.streams := rfl
@[simp] theorem modMe_binding (f : Strand → Strand) : (s.modMe f).binding = s.binding := rfl
@[simp] theorem modMe_pool (f : Strand → Strand) : (s.modMe f).pool = s.pool := rfl
@[simp] theorem modMe_mbox (f : Strand → Strand) : (s.modMe f).mbox = s.mbox := rfl
@[simp] theorem modMe_keys (f : Strand → Strand) : (s.modMe f).keys = s.keys := rfl
@[simp] theorem modMe_reserved (f : Strand → Strand) : (s.modMe f).reserved = s.reserved := rfl
@[simp] theorem modMe_retired (f : Strand → Strand) : (s.modMe f).retired = s.retired := rfl
@[simp] theorem modMe_plat (f : Strand → Strand) : (s.modMe f).plat = s.plat := rfl
@[simp] theorem modMe_ctx (f : Strand → Strand) : (s.modMe f).ctx = s.ctx := rfl
@[simp] theorem modMe_schedule (f : Strand → Strand) : (s.modMe f).schedule = s.schedule := rfl
@[simp] theorem modMe_nextCore (f : Strand → Strand) : (s.modMe f).nextCore = s.nextCore := rfl
@[simp] theorem modMe_fresh (f : Strand → Strand) : (s.modMe f).fresh = s.fresh := rfl
@[simp] theorem modMe_nextId (f : Strand → Strand) : (s.modMe f).nextId = s.nextId := rfl
@[simp] theorem modMe_nextGang (f : Strand → Strand) : (s.modMe f).nextGang = s.nextGang := rfl

@[simp] theorem setCore_strands (k : Nat) (t : Core) : (s.setCore k t).strands = s.strands := rfl
@[simp] theorem setCore_clusters (k : Nat) (t : Core) : (s.setCore k t).clusters = s.clusters := rfl
@[simp] theorem setCore_ctxs (k : Nat) (t : Core) : (s.setCore k t).ctxs = s.ctxs := rfl
@[simp] theorem setCore_mem (k : Nat) (t : Core) : (s.setCore k t).mem = s.mem := rfl
@[simp] theorem setCore_full (k : Nat) (t : Core) : (s.setCore k t).full = s.full := rfl
@[simp] theorem setCore_poison (k : Nat) (t : Core) : (s.setCore k t).poison = s.poison := rfl
@[simp] theorem setCore_linePoison (k : Nat) (t : Core) : (s.setCore k t).linePoison = s.linePoison := rfl
@[simp] theorem setCore_agent (k : Nat) (t : Core) : (s.setCore k t).agent = s.agent := rfl
@[simp] theorem setCore_busyLines (k : Nat) (t : Core) : (s.setCore k t).busyLines = s.busyLines := rfl
@[simp] theorem setCore_home (k : Nat) (t : Core) : (s.setCore k t).home = s.home := rfl
@[simp] theorem setCore_replies (k : Nat) (t : Core) : (s.setCore k t).replies = s.replies := rfl
@[simp] theorem setCore_launches (k : Nat) (t : Core) : (s.setCore k t).launches = s.launches := rfl
@[simp] theorem setCore_images (k : Nat) (t : Core) : (s.setCore k t).images = s.images := rfl
@[simp] theorem setCore_copies (k : Nat) (t : Core) : (s.setCore k t).copies = s.copies := rfl
@[simp] theorem setCore_gemvs (k : Nat) (t : Core) : (s.setCore k t).gemvs = s.gemvs := rfl
@[simp] theorem setCore_mmas (k : Nat) (t : Core) : (s.setCore k t).mmas = s.mmas := rfl
@[simp] theorem setCore_pushes (k : Nat) (t : Core) : (s.setCore k t).pushes = s.pushes := rfl
@[simp] theorem setCore_walks (k : Nat) (t : Core) : (s.setCore k t).walks = s.walks := rfl
@[simp] theorem setCore_blks (k : Nat) (t : Core) : (s.setCore k t).blks = s.blks := rfl
@[simp] theorem setCore_slots (k : Nat) (t : Core) : (s.setCore k t).slots = s.slots := rfl
@[simp] theorem setCore_cells (k : Nat) (t : Core) : (s.setCore k t).cells = s.cells := rfl
@[simp] theorem setCore_pfx (k : Nat) (t : Core) : (s.setCore k t).pfx = s.pfx := rfl
@[simp] theorem setCore_streams (k : Nat) (t : Core) : (s.setCore k t).streams = s.streams := rfl
@[simp] theorem setCore_binding (k : Nat) (t : Core) : (s.setCore k t).binding = s.binding := rfl
@[simp] theorem setCore_pool (k : Nat) (t : Core) : (s.setCore k t).pool = s.pool := rfl
@[simp] theorem setCore_mbox (k : Nat) (t : Core) : (s.setCore k t).mbox = s.mbox := rfl
@[simp] theorem setCore_keys (k : Nat) (t : Core) : (s.setCore k t).keys = s.keys := rfl
@[simp] theorem setCore_reserved (k : Nat) (t : Core) : (s.setCore k t).reserved = s.reserved := rfl
@[simp] theorem setCore_retired (k : Nat) (t : Core) : (s.setCore k t).retired = s.retired := rfl
@[simp] theorem setCore_plat (k : Nat) (t : Core) : (s.setCore k t).plat = s.plat := rfl
@[simp] theorem setCore_ctx (k : Nat) (t : Core) : (s.setCore k t).ctx = s.ctx := rfl
@[simp] theorem setCore_schedule (k : Nat) (t : Core) : (s.setCore k t).schedule = s.schedule := rfl
@[simp] theorem setCore_nextCore (k : Nat) (t : Core) : (s.setCore k t).nextCore = s.nextCore := rfl
@[simp] theorem setCore_fresh (k : Nat) (t : Core) : (s.setCore k t).fresh = s.fresh := rfl
@[simp] theorem setCore_nextId (k : Nat) (t : Core) : (s.setCore k t).nextId = s.nextId := rfl
@[simp] theorem setCore_nextGang (k : Nat) (t : Core) : (s.setCore k t).nextGang = s.nextGang := rfl

@[simp] theorem modCore_strands (k : Nat) (f : Core → Core) : (s.modCore k f).strands = s.strands := rfl
@[simp] theorem modCore_clusters (k : Nat) (f : Core → Core) : (s.modCore k f).clusters = s.clusters := rfl
@[simp] theorem modCore_ctxs (k : Nat) (f : Core → Core) : (s.modCore k f).ctxs = s.ctxs := rfl
@[simp] theorem modCore_mem (k : Nat) (f : Core → Core) : (s.modCore k f).mem = s.mem := rfl
@[simp] theorem modCore_full (k : Nat) (f : Core → Core) : (s.modCore k f).full = s.full := rfl
@[simp] theorem modCore_poison (k : Nat) (f : Core → Core) : (s.modCore k f).poison = s.poison := rfl
@[simp] theorem modCore_linePoison (k : Nat) (f : Core → Core) : (s.modCore k f).linePoison = s.linePoison := rfl
@[simp] theorem modCore_agent (k : Nat) (f : Core → Core) : (s.modCore k f).agent = s.agent := rfl
@[simp] theorem modCore_busyLines (k : Nat) (f : Core → Core) : (s.modCore k f).busyLines = s.busyLines := rfl
@[simp] theorem modCore_home (k : Nat) (f : Core → Core) : (s.modCore k f).home = s.home := rfl
@[simp] theorem modCore_replies (k : Nat) (f : Core → Core) : (s.modCore k f).replies = s.replies := rfl
@[simp] theorem modCore_launches (k : Nat) (f : Core → Core) : (s.modCore k f).launches = s.launches := rfl
@[simp] theorem modCore_images (k : Nat) (f : Core → Core) : (s.modCore k f).images = s.images := rfl
@[simp] theorem modCore_copies (k : Nat) (f : Core → Core) : (s.modCore k f).copies = s.copies := rfl
@[simp] theorem modCore_gemvs (k : Nat) (f : Core → Core) : (s.modCore k f).gemvs = s.gemvs := rfl
@[simp] theorem modCore_mmas (k : Nat) (f : Core → Core) : (s.modCore k f).mmas = s.mmas := rfl
@[simp] theorem modCore_pushes (k : Nat) (f : Core → Core) : (s.modCore k f).pushes = s.pushes := rfl
@[simp] theorem modCore_walks (k : Nat) (f : Core → Core) : (s.modCore k f).walks = s.walks := rfl
@[simp] theorem modCore_blks (k : Nat) (f : Core → Core) : (s.modCore k f).blks = s.blks := rfl
@[simp] theorem modCore_slots (k : Nat) (f : Core → Core) : (s.modCore k f).slots = s.slots := rfl
@[simp] theorem modCore_cells (k : Nat) (f : Core → Core) : (s.modCore k f).cells = s.cells := rfl
@[simp] theorem modCore_pfx (k : Nat) (f : Core → Core) : (s.modCore k f).pfx = s.pfx := rfl
@[simp] theorem modCore_streams (k : Nat) (f : Core → Core) : (s.modCore k f).streams = s.streams := rfl
@[simp] theorem modCore_binding (k : Nat) (f : Core → Core) : (s.modCore k f).binding = s.binding := rfl
@[simp] theorem modCore_pool (k : Nat) (f : Core → Core) : (s.modCore k f).pool = s.pool := rfl
@[simp] theorem modCore_mbox (k : Nat) (f : Core → Core) : (s.modCore k f).mbox = s.mbox := rfl
@[simp] theorem modCore_keys (k : Nat) (f : Core → Core) : (s.modCore k f).keys = s.keys := rfl
@[simp] theorem modCore_reserved (k : Nat) (f : Core → Core) : (s.modCore k f).reserved = s.reserved := rfl
@[simp] theorem modCore_retired (k : Nat) (f : Core → Core) : (s.modCore k f).retired = s.retired := rfl
@[simp] theorem modCore_plat (k : Nat) (f : Core → Core) : (s.modCore k f).plat = s.plat := rfl
@[simp] theorem modCore_ctx (k : Nat) (f : Core → Core) : (s.modCore k f).ctx = s.ctx := rfl
@[simp] theorem modCore_schedule (k : Nat) (f : Core → Core) : (s.modCore k f).schedule = s.schedule := rfl
@[simp] theorem modCore_nextCore (k : Nat) (f : Core → Core) : (s.modCore k f).nextCore = s.nextCore := rfl
@[simp] theorem modCore_fresh (k : Nat) (f : Core → Core) : (s.modCore k f).fresh = s.fresh := rfl
@[simp] theorem modCore_nextId (k : Nat) (f : Core → Core) : (s.modCore k f).nextId = s.nextId := rfl
@[simp] theorem modCore_nextGang (k : Nat) (f : Core → Core) : (s.modCore k f).nextGang = s.nextGang := rfl

@[simp] theorem setCluster_strands (k : Nat) (t : Cluster) : (s.setCluster k t).strands = s.strands := rfl
@[simp] theorem setCluster_cores (k : Nat) (t : Cluster) : (s.setCluster k t).cores = s.cores := rfl
@[simp] theorem setCluster_ctxs (k : Nat) (t : Cluster) : (s.setCluster k t).ctxs = s.ctxs := rfl
@[simp] theorem setCluster_mem (k : Nat) (t : Cluster) : (s.setCluster k t).mem = s.mem := rfl
@[simp] theorem setCluster_full (k : Nat) (t : Cluster) : (s.setCluster k t).full = s.full := rfl
@[simp] theorem setCluster_poison (k : Nat) (t : Cluster) : (s.setCluster k t).poison = s.poison := rfl
@[simp] theorem setCluster_linePoison (k : Nat) (t : Cluster) : (s.setCluster k t).linePoison = s.linePoison := rfl
@[simp] theorem setCluster_agent (k : Nat) (t : Cluster) : (s.setCluster k t).agent = s.agent := rfl
@[simp] theorem setCluster_busyLines (k : Nat) (t : Cluster) : (s.setCluster k t).busyLines = s.busyLines := rfl
@[simp] theorem setCluster_home (k : Nat) (t : Cluster) : (s.setCluster k t).home = s.home := rfl
@[simp] theorem setCluster_replies (k : Nat) (t : Cluster) : (s.setCluster k t).replies = s.replies := rfl
@[simp] theorem setCluster_launches (k : Nat) (t : Cluster) : (s.setCluster k t).launches = s.launches := rfl
@[simp] theorem setCluster_images (k : Nat) (t : Cluster) : (s.setCluster k t).images = s.images := rfl
@[simp] theorem setCluster_copies (k : Nat) (t : Cluster) : (s.setCluster k t).copies = s.copies := rfl
@[simp] theorem setCluster_gemvs (k : Nat) (t : Cluster) : (s.setCluster k t).gemvs = s.gemvs := rfl
@[simp] theorem setCluster_mmas (k : Nat) (t : Cluster) : (s.setCluster k t).mmas = s.mmas := rfl
@[simp] theorem setCluster_pushes (k : Nat) (t : Cluster) : (s.setCluster k t).pushes = s.pushes := rfl
@[simp] theorem setCluster_walks (k : Nat) (t : Cluster) : (s.setCluster k t).walks = s.walks := rfl
@[simp] theorem setCluster_blks (k : Nat) (t : Cluster) : (s.setCluster k t).blks = s.blks := rfl
@[simp] theorem setCluster_slots (k : Nat) (t : Cluster) : (s.setCluster k t).slots = s.slots := rfl
@[simp] theorem setCluster_cells (k : Nat) (t : Cluster) : (s.setCluster k t).cells = s.cells := rfl
@[simp] theorem setCluster_pfx (k : Nat) (t : Cluster) : (s.setCluster k t).pfx = s.pfx := rfl
@[simp] theorem setCluster_streams (k : Nat) (t : Cluster) : (s.setCluster k t).streams = s.streams := rfl
@[simp] theorem setCluster_binding (k : Nat) (t : Cluster) : (s.setCluster k t).binding = s.binding := rfl
@[simp] theorem setCluster_pool (k : Nat) (t : Cluster) : (s.setCluster k t).pool = s.pool := rfl
@[simp] theorem setCluster_mbox (k : Nat) (t : Cluster) : (s.setCluster k t).mbox = s.mbox := rfl
@[simp] theorem setCluster_keys (k : Nat) (t : Cluster) : (s.setCluster k t).keys = s.keys := rfl
@[simp] theorem setCluster_reserved (k : Nat) (t : Cluster) : (s.setCluster k t).reserved = s.reserved := rfl
@[simp] theorem setCluster_retired (k : Nat) (t : Cluster) : (s.setCluster k t).retired = s.retired := rfl
@[simp] theorem setCluster_plat (k : Nat) (t : Cluster) : (s.setCluster k t).plat = s.plat := rfl
@[simp] theorem setCluster_ctx (k : Nat) (t : Cluster) : (s.setCluster k t).ctx = s.ctx := rfl
@[simp] theorem setCluster_schedule (k : Nat) (t : Cluster) : (s.setCluster k t).schedule = s.schedule := rfl
@[simp] theorem setCluster_nextCore (k : Nat) (t : Cluster) : (s.setCluster k t).nextCore = s.nextCore := rfl
@[simp] theorem setCluster_fresh (k : Nat) (t : Cluster) : (s.setCluster k t).fresh = s.fresh := rfl
@[simp] theorem setCluster_nextId (k : Nat) (t : Cluster) : (s.setCluster k t).nextId = s.nextId := rfl
@[simp] theorem setCluster_nextGang (k : Nat) (t : Cluster) : (s.setCluster k t).nextGang = s.nextGang := rfl

@[simp] theorem modCluster_strands (k : Nat) (f : Cluster → Cluster) : (s.modCluster k f).strands = s.strands := rfl
@[simp] theorem modCluster_cores (k : Nat) (f : Cluster → Cluster) : (s.modCluster k f).cores = s.cores := rfl
@[simp] theorem modCluster_ctxs (k : Nat) (f : Cluster → Cluster) : (s.modCluster k f).ctxs = s.ctxs := rfl
@[simp] theorem modCluster_mem (k : Nat) (f : Cluster → Cluster) : (s.modCluster k f).mem = s.mem := rfl
@[simp] theorem modCluster_full (k : Nat) (f : Cluster → Cluster) : (s.modCluster k f).full = s.full := rfl
@[simp] theorem modCluster_poison (k : Nat) (f : Cluster → Cluster) : (s.modCluster k f).poison = s.poison := rfl
@[simp] theorem modCluster_linePoison (k : Nat) (f : Cluster → Cluster) : (s.modCluster k f).linePoison = s.linePoison := rfl
@[simp] theorem modCluster_agent (k : Nat) (f : Cluster → Cluster) : (s.modCluster k f).agent = s.agent := rfl
@[simp] theorem modCluster_busyLines (k : Nat) (f : Cluster → Cluster) : (s.modCluster k f).busyLines = s.busyLines := rfl
@[simp] theorem modCluster_home (k : Nat) (f : Cluster → Cluster) : (s.modCluster k f).home = s.home := rfl
@[simp] theorem modCluster_replies (k : Nat) (f : Cluster → Cluster) : (s.modCluster k f).replies = s.replies := rfl
@[simp] theorem modCluster_launches (k : Nat) (f : Cluster → Cluster) : (s.modCluster k f).launches = s.launches := rfl
@[simp] theorem modCluster_images (k : Nat) (f : Cluster → Cluster) : (s.modCluster k f).images = s.images := rfl
@[simp] theorem modCluster_copies (k : Nat) (f : Cluster → Cluster) : (s.modCluster k f).copies = s.copies := rfl
@[simp] theorem modCluster_gemvs (k : Nat) (f : Cluster → Cluster) : (s.modCluster k f).gemvs = s.gemvs := rfl
@[simp] theorem modCluster_mmas (k : Nat) (f : Cluster → Cluster) : (s.modCluster k f).mmas = s.mmas := rfl
@[simp] theorem modCluster_pushes (k : Nat) (f : Cluster → Cluster) : (s.modCluster k f).pushes = s.pushes := rfl
@[simp] theorem modCluster_walks (k : Nat) (f : Cluster → Cluster) : (s.modCluster k f).walks = s.walks := rfl
@[simp] theorem modCluster_blks (k : Nat) (f : Cluster → Cluster) : (s.modCluster k f).blks = s.blks := rfl
@[simp] theorem modCluster_slots (k : Nat) (f : Cluster → Cluster) : (s.modCluster k f).slots = s.slots := rfl
@[simp] theorem modCluster_cells (k : Nat) (f : Cluster → Cluster) : (s.modCluster k f).cells = s.cells := rfl
@[simp] theorem modCluster_pfx (k : Nat) (f : Cluster → Cluster) : (s.modCluster k f).pfx = s.pfx := rfl
@[simp] theorem modCluster_streams (k : Nat) (f : Cluster → Cluster) : (s.modCluster k f).streams = s.streams := rfl
@[simp] theorem modCluster_binding (k : Nat) (f : Cluster → Cluster) : (s.modCluster k f).binding = s.binding := rfl
@[simp] theorem modCluster_pool (k : Nat) (f : Cluster → Cluster) : (s.modCluster k f).pool = s.pool := rfl
@[simp] theorem modCluster_mbox (k : Nat) (f : Cluster → Cluster) : (s.modCluster k f).mbox = s.mbox := rfl
@[simp] theorem modCluster_keys (k : Nat) (f : Cluster → Cluster) : (s.modCluster k f).keys = s.keys := rfl
@[simp] theorem modCluster_reserved (k : Nat) (f : Cluster → Cluster) : (s.modCluster k f).reserved = s.reserved := rfl
@[simp] theorem modCluster_retired (k : Nat) (f : Cluster → Cluster) : (s.modCluster k f).retired = s.retired := rfl
@[simp] theorem modCluster_plat (k : Nat) (f : Cluster → Cluster) : (s.modCluster k f).plat = s.plat := rfl
@[simp] theorem modCluster_ctx (k : Nat) (f : Cluster → Cluster) : (s.modCluster k f).ctx = s.ctx := rfl
@[simp] theorem modCluster_schedule (k : Nat) (f : Cluster → Cluster) : (s.modCluster k f).schedule = s.schedule := rfl
@[simp] theorem modCluster_nextCore (k : Nat) (f : Cluster → Cluster) : (s.modCluster k f).nextCore = s.nextCore := rfl
@[simp] theorem modCluster_fresh (k : Nat) (f : Cluster → Cluster) : (s.modCluster k f).fresh = s.fresh := rfl
@[simp] theorem modCluster_nextId (k : Nat) (f : Cluster → Cluster) : (s.modCluster k f).nextId = s.nextId := rfl
@[simp] theorem modCluster_nextGang (k : Nat) (f : Cluster → Cluster) : (s.modCluster k f).nextGang = s.nextGang := rfl

@[simp] theorem setHctx_strands (k : Nat) (t : Hctx) : (s.setHctx k t).strands = s.strands := rfl
@[simp] theorem setHctx_cores (k : Nat) (t : Hctx) : (s.setHctx k t).cores = s.cores := rfl
@[simp] theorem setHctx_clusters (k : Nat) (t : Hctx) : (s.setHctx k t).clusters = s.clusters := rfl
@[simp] theorem setHctx_mem (k : Nat) (t : Hctx) : (s.setHctx k t).mem = s.mem := rfl
@[simp] theorem setHctx_full (k : Nat) (t : Hctx) : (s.setHctx k t).full = s.full := rfl
@[simp] theorem setHctx_poison (k : Nat) (t : Hctx) : (s.setHctx k t).poison = s.poison := rfl
@[simp] theorem setHctx_linePoison (k : Nat) (t : Hctx) : (s.setHctx k t).linePoison = s.linePoison := rfl
@[simp] theorem setHctx_agent (k : Nat) (t : Hctx) : (s.setHctx k t).agent = s.agent := rfl
@[simp] theorem setHctx_busyLines (k : Nat) (t : Hctx) : (s.setHctx k t).busyLines = s.busyLines := rfl
@[simp] theorem setHctx_home (k : Nat) (t : Hctx) : (s.setHctx k t).home = s.home := rfl
@[simp] theorem setHctx_replies (k : Nat) (t : Hctx) : (s.setHctx k t).replies = s.replies := rfl
@[simp] theorem setHctx_launches (k : Nat) (t : Hctx) : (s.setHctx k t).launches = s.launches := rfl
@[simp] theorem setHctx_images (k : Nat) (t : Hctx) : (s.setHctx k t).images = s.images := rfl
@[simp] theorem setHctx_copies (k : Nat) (t : Hctx) : (s.setHctx k t).copies = s.copies := rfl
@[simp] theorem setHctx_gemvs (k : Nat) (t : Hctx) : (s.setHctx k t).gemvs = s.gemvs := rfl
@[simp] theorem setHctx_mmas (k : Nat) (t : Hctx) : (s.setHctx k t).mmas = s.mmas := rfl
@[simp] theorem setHctx_pushes (k : Nat) (t : Hctx) : (s.setHctx k t).pushes = s.pushes := rfl
@[simp] theorem setHctx_walks (k : Nat) (t : Hctx) : (s.setHctx k t).walks = s.walks := rfl
@[simp] theorem setHctx_blks (k : Nat) (t : Hctx) : (s.setHctx k t).blks = s.blks := rfl
@[simp] theorem setHctx_slots (k : Nat) (t : Hctx) : (s.setHctx k t).slots = s.slots := rfl
@[simp] theorem setHctx_cells (k : Nat) (t : Hctx) : (s.setHctx k t).cells = s.cells := rfl
@[simp] theorem setHctx_pfx (k : Nat) (t : Hctx) : (s.setHctx k t).pfx = s.pfx := rfl
@[simp] theorem setHctx_streams (k : Nat) (t : Hctx) : (s.setHctx k t).streams = s.streams := rfl
@[simp] theorem setHctx_binding (k : Nat) (t : Hctx) : (s.setHctx k t).binding = s.binding := rfl
@[simp] theorem setHctx_pool (k : Nat) (t : Hctx) : (s.setHctx k t).pool = s.pool := rfl
@[simp] theorem setHctx_mbox (k : Nat) (t : Hctx) : (s.setHctx k t).mbox = s.mbox := rfl
@[simp] theorem setHctx_keys (k : Nat) (t : Hctx) : (s.setHctx k t).keys = s.keys := rfl
@[simp] theorem setHctx_reserved (k : Nat) (t : Hctx) : (s.setHctx k t).reserved = s.reserved := rfl
@[simp] theorem setHctx_retired (k : Nat) (t : Hctx) : (s.setHctx k t).retired = s.retired := rfl
@[simp] theorem setHctx_plat (k : Nat) (t : Hctx) : (s.setHctx k t).plat = s.plat := rfl
@[simp] theorem setHctx_ctx (k : Nat) (t : Hctx) : (s.setHctx k t).ctx = s.ctx := rfl
@[simp] theorem setHctx_schedule (k : Nat) (t : Hctx) : (s.setHctx k t).schedule = s.schedule := rfl
@[simp] theorem setHctx_nextCore (k : Nat) (t : Hctx) : (s.setHctx k t).nextCore = s.nextCore := rfl
@[simp] theorem setHctx_fresh (k : Nat) (t : Hctx) : (s.setHctx k t).fresh = s.fresh := rfl
@[simp] theorem setHctx_nextId (k : Nat) (t : Hctx) : (s.setHctx k t).nextId = s.nextId := rfl
@[simp] theorem setHctx_nextGang (k : Nat) (t : Hctx) : (s.setHctx k t).nextGang = s.nextGang := rfl

@[simp] theorem modHctx_strands (k : Nat) (f : Hctx → Hctx) : (s.modHctx k f).strands = s.strands := rfl
@[simp] theorem modHctx_cores (k : Nat) (f : Hctx → Hctx) : (s.modHctx k f).cores = s.cores := rfl
@[simp] theorem modHctx_clusters (k : Nat) (f : Hctx → Hctx) : (s.modHctx k f).clusters = s.clusters := rfl
@[simp] theorem modHctx_mem (k : Nat) (f : Hctx → Hctx) : (s.modHctx k f).mem = s.mem := rfl
@[simp] theorem modHctx_full (k : Nat) (f : Hctx → Hctx) : (s.modHctx k f).full = s.full := rfl
@[simp] theorem modHctx_poison (k : Nat) (f : Hctx → Hctx) : (s.modHctx k f).poison = s.poison := rfl
@[simp] theorem modHctx_linePoison (k : Nat) (f : Hctx → Hctx) : (s.modHctx k f).linePoison = s.linePoison := rfl
@[simp] theorem modHctx_agent (k : Nat) (f : Hctx → Hctx) : (s.modHctx k f).agent = s.agent := rfl
@[simp] theorem modHctx_busyLines (k : Nat) (f : Hctx → Hctx) : (s.modHctx k f).busyLines = s.busyLines := rfl
@[simp] theorem modHctx_home (k : Nat) (f : Hctx → Hctx) : (s.modHctx k f).home = s.home := rfl
@[simp] theorem modHctx_replies (k : Nat) (f : Hctx → Hctx) : (s.modHctx k f).replies = s.replies := rfl
@[simp] theorem modHctx_launches (k : Nat) (f : Hctx → Hctx) : (s.modHctx k f).launches = s.launches := rfl
@[simp] theorem modHctx_images (k : Nat) (f : Hctx → Hctx) : (s.modHctx k f).images = s.images := rfl
@[simp] theorem modHctx_copies (k : Nat) (f : Hctx → Hctx) : (s.modHctx k f).copies = s.copies := rfl
@[simp] theorem modHctx_gemvs (k : Nat) (f : Hctx → Hctx) : (s.modHctx k f).gemvs = s.gemvs := rfl
@[simp] theorem modHctx_mmas (k : Nat) (f : Hctx → Hctx) : (s.modHctx k f).mmas = s.mmas := rfl
@[simp] theorem modHctx_pushes (k : Nat) (f : Hctx → Hctx) : (s.modHctx k f).pushes = s.pushes := rfl
@[simp] theorem modHctx_walks (k : Nat) (f : Hctx → Hctx) : (s.modHctx k f).walks = s.walks := rfl
@[simp] theorem modHctx_blks (k : Nat) (f : Hctx → Hctx) : (s.modHctx k f).blks = s.blks := rfl
@[simp] theorem modHctx_slots (k : Nat) (f : Hctx → Hctx) : (s.modHctx k f).slots = s.slots := rfl
@[simp] theorem modHctx_cells (k : Nat) (f : Hctx → Hctx) : (s.modHctx k f).cells = s.cells := rfl
@[simp] theorem modHctx_pfx (k : Nat) (f : Hctx → Hctx) : (s.modHctx k f).pfx = s.pfx := rfl
@[simp] theorem modHctx_streams (k : Nat) (f : Hctx → Hctx) : (s.modHctx k f).streams = s.streams := rfl
@[simp] theorem modHctx_binding (k : Nat) (f : Hctx → Hctx) : (s.modHctx k f).binding = s.binding := rfl
@[simp] theorem modHctx_pool (k : Nat) (f : Hctx → Hctx) : (s.modHctx k f).pool = s.pool := rfl
@[simp] theorem modHctx_mbox (k : Nat) (f : Hctx → Hctx) : (s.modHctx k f).mbox = s.mbox := rfl
@[simp] theorem modHctx_keys (k : Nat) (f : Hctx → Hctx) : (s.modHctx k f).keys = s.keys := rfl
@[simp] theorem modHctx_reserved (k : Nat) (f : Hctx → Hctx) : (s.modHctx k f).reserved = s.reserved := rfl
@[simp] theorem modHctx_retired (k : Nat) (f : Hctx → Hctx) : (s.modHctx k f).retired = s.retired := rfl
@[simp] theorem modHctx_plat (k : Nat) (f : Hctx → Hctx) : (s.modHctx k f).plat = s.plat := rfl
@[simp] theorem modHctx_ctx (k : Nat) (f : Hctx → Hctx) : (s.modHctx k f).ctx = s.ctx := rfl
@[simp] theorem modHctx_schedule (k : Nat) (f : Hctx → Hctx) : (s.modHctx k f).schedule = s.schedule := rfl
@[simp] theorem modHctx_nextCore (k : Nat) (f : Hctx → Hctx) : (s.modHctx k f).nextCore = s.nextCore := rfl
@[simp] theorem modHctx_fresh (k : Nat) (f : Hctx → Hctx) : (s.modHctx k f).fresh = s.fresh := rfl
@[simp] theorem modHctx_nextId (k : Nat) (f : Hctx → Hctx) : (s.modHctx k f).nextId = s.nextId := rfl
@[simp] theorem modHctx_nextGang (k : Nat) (f : Hctx → Hctx) : (s.modHctx k f).nextGang = s.nextGang := rfl

@[simp] theorem modDeck_strands (d : Nat) (f : Deck → Deck) : (s.modDeck d f).strands = s.strands := rfl
@[simp] theorem modDeck_cores (d : Nat) (f : Deck → Deck) : (s.modDeck d f).cores = s.cores := rfl
@[simp] theorem modDeck_clusters (d : Nat) (f : Deck → Deck) : (s.modDeck d f).clusters = s.clusters := rfl
@[simp] theorem modDeck_ctxs (d : Nat) (f : Deck → Deck) : (s.modDeck d f).ctxs = s.ctxs := rfl
@[simp] theorem modDeck_mem (d : Nat) (f : Deck → Deck) : (s.modDeck d f).mem = s.mem := rfl
@[simp] theorem modDeck_full (d : Nat) (f : Deck → Deck) : (s.modDeck d f).full = s.full := rfl
@[simp] theorem modDeck_poison (d : Nat) (f : Deck → Deck) : (s.modDeck d f).poison = s.poison := rfl
@[simp] theorem modDeck_linePoison (d : Nat) (f : Deck → Deck) : (s.modDeck d f).linePoison = s.linePoison := rfl
@[simp] theorem modDeck_agent (d : Nat) (f : Deck → Deck) : (s.modDeck d f).agent = s.agent := rfl
@[simp] theorem modDeck_busyLines (d : Nat) (f : Deck → Deck) : (s.modDeck d f).busyLines = s.busyLines := rfl
@[simp] theorem modDeck_home (d : Nat) (f : Deck → Deck) : (s.modDeck d f).home = s.home := rfl
@[simp] theorem modDeck_replies (d : Nat) (f : Deck → Deck) : (s.modDeck d f).replies = s.replies := rfl
@[simp] theorem modDeck_launches (d : Nat) (f : Deck → Deck) : (s.modDeck d f).launches = s.launches := rfl
@[simp] theorem modDeck_images (d : Nat) (f : Deck → Deck) : (s.modDeck d f).images = s.images := rfl
@[simp] theorem modDeck_copies (d : Nat) (f : Deck → Deck) : (s.modDeck d f).copies = s.copies := rfl
@[simp] theorem modDeck_gemvs (d : Nat) (f : Deck → Deck) : (s.modDeck d f).gemvs = s.gemvs := rfl
@[simp] theorem modDeck_mmas (d : Nat) (f : Deck → Deck) : (s.modDeck d f).mmas = s.mmas := rfl
@[simp] theorem modDeck_pushes (d : Nat) (f : Deck → Deck) : (s.modDeck d f).pushes = s.pushes := rfl
@[simp] theorem modDeck_walks (d : Nat) (f : Deck → Deck) : (s.modDeck d f).walks = s.walks := rfl
@[simp] theorem modDeck_blks (d : Nat) (f : Deck → Deck) : (s.modDeck d f).blks = s.blks := rfl
@[simp] theorem modDeck_slots (d : Nat) (f : Deck → Deck) : (s.modDeck d f).slots = s.slots := rfl
@[simp] theorem modDeck_cells (d : Nat) (f : Deck → Deck) : (s.modDeck d f).cells = s.cells := rfl
@[simp] theorem modDeck_pfx (d : Nat) (f : Deck → Deck) : (s.modDeck d f).pfx = s.pfx := rfl
@[simp] theorem modDeck_streams (d : Nat) (f : Deck → Deck) : (s.modDeck d f).streams = s.streams := rfl
@[simp] theorem modDeck_binding (d : Nat) (f : Deck → Deck) : (s.modDeck d f).binding = s.binding := rfl
@[simp] theorem modDeck_pool (d : Nat) (f : Deck → Deck) : (s.modDeck d f).pool = s.pool := rfl
@[simp] theorem modDeck_mbox (d : Nat) (f : Deck → Deck) : (s.modDeck d f).mbox = s.mbox := rfl
@[simp] theorem modDeck_keys (d : Nat) (f : Deck → Deck) : (s.modDeck d f).keys = s.keys := rfl
@[simp] theorem modDeck_reserved (d : Nat) (f : Deck → Deck) : (s.modDeck d f).reserved = s.reserved := rfl
@[simp] theorem modDeck_retired (d : Nat) (f : Deck → Deck) : (s.modDeck d f).retired = s.retired := rfl
@[simp] theorem modDeck_ctx (d : Nat) (f : Deck → Deck) : (s.modDeck d f).ctx = s.ctx := rfl
@[simp] theorem modDeck_schedule (d : Nat) (f : Deck → Deck) : (s.modDeck d f).schedule = s.schedule := rfl
@[simp] theorem modDeck_nextCore (d : Nat) (f : Deck → Deck) : (s.modDeck d f).nextCore = s.nextCore := rfl
@[simp] theorem modDeck_fresh (d : Nat) (f : Deck → Deck) : (s.modDeck d f).fresh = s.fresh := rfl
@[simp] theorem modDeck_nextId (d : Nat) (f : Deck → Deck) : (s.modDeck d f).nextId = s.nextId := rfl
@[simp] theorem modDeck_nextGang (d : Nat) (f : Deck → Deck) : (s.modDeck d f).nextGang = s.nextGang := rfl

@[simp] theorem modBank_strands (c b : Nat) (f : Bank → Bank) : (s.modBank c b f).strands = s.strands := rfl
@[simp] theorem modBank_cores (c b : Nat) (f : Bank → Bank) : (s.modBank c b f).cores = s.cores := rfl
@[simp] theorem modBank_ctxs (c b : Nat) (f : Bank → Bank) : (s.modBank c b f).ctxs = s.ctxs := rfl
@[simp] theorem modBank_mem (c b : Nat) (f : Bank → Bank) : (s.modBank c b f).mem = s.mem := rfl
@[simp] theorem modBank_full (c b : Nat) (f : Bank → Bank) : (s.modBank c b f).full = s.full := rfl
@[simp] theorem modBank_poison (c b : Nat) (f : Bank → Bank) : (s.modBank c b f).poison = s.poison := rfl
@[simp] theorem modBank_linePoison (c b : Nat) (f : Bank → Bank) : (s.modBank c b f).linePoison = s.linePoison := rfl
@[simp] theorem modBank_agent (c b : Nat) (f : Bank → Bank) : (s.modBank c b f).agent = s.agent := rfl
@[simp] theorem modBank_busyLines (c b : Nat) (f : Bank → Bank) : (s.modBank c b f).busyLines = s.busyLines := rfl
@[simp] theorem modBank_home (c b : Nat) (f : Bank → Bank) : (s.modBank c b f).home = s.home := rfl
@[simp] theorem modBank_replies (c b : Nat) (f : Bank → Bank) : (s.modBank c b f).replies = s.replies := rfl
@[simp] theorem modBank_launches (c b : Nat) (f : Bank → Bank) : (s.modBank c b f).launches = s.launches := rfl
@[simp] theorem modBank_images (c b : Nat) (f : Bank → Bank) : (s.modBank c b f).images = s.images := rfl
@[simp] theorem modBank_copies (c b : Nat) (f : Bank → Bank) : (s.modBank c b f).copies = s.copies := rfl
@[simp] theorem modBank_gemvs (c b : Nat) (f : Bank → Bank) : (s.modBank c b f).gemvs = s.gemvs := rfl
@[simp] theorem modBank_mmas (c b : Nat) (f : Bank → Bank) : (s.modBank c b f).mmas = s.mmas := rfl
@[simp] theorem modBank_pushes (c b : Nat) (f : Bank → Bank) : (s.modBank c b f).pushes = s.pushes := rfl
@[simp] theorem modBank_walks (c b : Nat) (f : Bank → Bank) : (s.modBank c b f).walks = s.walks := rfl
@[simp] theorem modBank_blks (c b : Nat) (f : Bank → Bank) : (s.modBank c b f).blks = s.blks := rfl
@[simp] theorem modBank_slots (c b : Nat) (f : Bank → Bank) : (s.modBank c b f).slots = s.slots := rfl
@[simp] theorem modBank_cells (c b : Nat) (f : Bank → Bank) : (s.modBank c b f).cells = s.cells := rfl
@[simp] theorem modBank_pfx (c b : Nat) (f : Bank → Bank) : (s.modBank c b f).pfx = s.pfx := rfl
@[simp] theorem modBank_streams (c b : Nat) (f : Bank → Bank) : (s.modBank c b f).streams = s.streams := rfl
@[simp] theorem modBank_binding (c b : Nat) (f : Bank → Bank) : (s.modBank c b f).binding = s.binding := rfl
@[simp] theorem modBank_pool (c b : Nat) (f : Bank → Bank) : (s.modBank c b f).pool = s.pool := rfl
@[simp] theorem modBank_mbox (c b : Nat) (f : Bank → Bank) : (s.modBank c b f).mbox = s.mbox := rfl
@[simp] theorem modBank_keys (c b : Nat) (f : Bank → Bank) : (s.modBank c b f).keys = s.keys := rfl
@[simp] theorem modBank_reserved (c b : Nat) (f : Bank → Bank) : (s.modBank c b f).reserved = s.reserved := rfl
@[simp] theorem modBank_retired (c b : Nat) (f : Bank → Bank) : (s.modBank c b f).retired = s.retired := rfl
@[simp] theorem modBank_plat (c b : Nat) (f : Bank → Bank) : (s.modBank c b f).plat = s.plat := rfl
@[simp] theorem modBank_ctx (c b : Nat) (f : Bank → Bank) : (s.modBank c b f).ctx = s.ctx := rfl
@[simp] theorem modBank_schedule (c b : Nat) (f : Bank → Bank) : (s.modBank c b f).schedule = s.schedule := rfl
@[simp] theorem modBank_nextCore (c b : Nat) (f : Bank → Bank) : (s.modBank c b f).nextCore = s.nextCore := rfl
@[simp] theorem modBank_fresh (c b : Nat) (f : Bank → Bank) : (s.modBank c b f).fresh = s.fresh := rfl
@[simp] theorem modBank_nextId (c b : Nat) (f : Bank → Bank) : (s.modBank c b f).nextId = s.nextId := rfl
@[simp] theorem modBank_nextGang (c b : Nat) (f : Bank → Bank) : (s.modBank c b f).nextGang = s.nextGang := rfl

@[simp] theorem modLaunch_strands (k : Nat) (f : Launch → Launch) : (s.modLaunch k f).strands = s.strands := rfl
@[simp] theorem modLaunch_cores (k : Nat) (f : Launch → Launch) : (s.modLaunch k f).cores = s.cores := rfl
@[simp] theorem modLaunch_clusters (k : Nat) (f : Launch → Launch) : (s.modLaunch k f).clusters = s.clusters := rfl
@[simp] theorem modLaunch_ctxs (k : Nat) (f : Launch → Launch) : (s.modLaunch k f).ctxs = s.ctxs := rfl
@[simp] theorem modLaunch_mem (k : Nat) (f : Launch → Launch) : (s.modLaunch k f).mem = s.mem := rfl
@[simp] theorem modLaunch_full (k : Nat) (f : Launch → Launch) : (s.modLaunch k f).full = s.full := rfl
@[simp] theorem modLaunch_poison (k : Nat) (f : Launch → Launch) : (s.modLaunch k f).poison = s.poison := rfl
@[simp] theorem modLaunch_linePoison (k : Nat) (f : Launch → Launch) : (s.modLaunch k f).linePoison = s.linePoison := rfl
@[simp] theorem modLaunch_agent (k : Nat) (f : Launch → Launch) : (s.modLaunch k f).agent = s.agent := rfl
@[simp] theorem modLaunch_busyLines (k : Nat) (f : Launch → Launch) : (s.modLaunch k f).busyLines = s.busyLines := rfl
@[simp] theorem modLaunch_home (k : Nat) (f : Launch → Launch) : (s.modLaunch k f).home = s.home := rfl
@[simp] theorem modLaunch_replies (k : Nat) (f : Launch → Launch) : (s.modLaunch k f).replies = s.replies := rfl
@[simp] theorem modLaunch_images (k : Nat) (f : Launch → Launch) : (s.modLaunch k f).images = s.images := rfl
@[simp] theorem modLaunch_copies (k : Nat) (f : Launch → Launch) : (s.modLaunch k f).copies = s.copies := rfl
@[simp] theorem modLaunch_gemvs (k : Nat) (f : Launch → Launch) : (s.modLaunch k f).gemvs = s.gemvs := rfl
@[simp] theorem modLaunch_mmas (k : Nat) (f : Launch → Launch) : (s.modLaunch k f).mmas = s.mmas := rfl
@[simp] theorem modLaunch_pushes (k : Nat) (f : Launch → Launch) : (s.modLaunch k f).pushes = s.pushes := rfl
@[simp] theorem modLaunch_walks (k : Nat) (f : Launch → Launch) : (s.modLaunch k f).walks = s.walks := rfl
@[simp] theorem modLaunch_blks (k : Nat) (f : Launch → Launch) : (s.modLaunch k f).blks = s.blks := rfl
@[simp] theorem modLaunch_slots (k : Nat) (f : Launch → Launch) : (s.modLaunch k f).slots = s.slots := rfl
@[simp] theorem modLaunch_cells (k : Nat) (f : Launch → Launch) : (s.modLaunch k f).cells = s.cells := rfl
@[simp] theorem modLaunch_pfx (k : Nat) (f : Launch → Launch) : (s.modLaunch k f).pfx = s.pfx := rfl
@[simp] theorem modLaunch_streams (k : Nat) (f : Launch → Launch) : (s.modLaunch k f).streams = s.streams := rfl
@[simp] theorem modLaunch_binding (k : Nat) (f : Launch → Launch) : (s.modLaunch k f).binding = s.binding := rfl
@[simp] theorem modLaunch_pool (k : Nat) (f : Launch → Launch) : (s.modLaunch k f).pool = s.pool := rfl
@[simp] theorem modLaunch_mbox (k : Nat) (f : Launch → Launch) : (s.modLaunch k f).mbox = s.mbox := rfl
@[simp] theorem modLaunch_keys (k : Nat) (f : Launch → Launch) : (s.modLaunch k f).keys = s.keys := rfl
@[simp] theorem modLaunch_reserved (k : Nat) (f : Launch → Launch) : (s.modLaunch k f).reserved = s.reserved := rfl
@[simp] theorem modLaunch_retired (k : Nat) (f : Launch → Launch) : (s.modLaunch k f).retired = s.retired := rfl
@[simp] theorem modLaunch_plat (k : Nat) (f : Launch → Launch) : (s.modLaunch k f).plat = s.plat := rfl
@[simp] theorem modLaunch_ctx (k : Nat) (f : Launch → Launch) : (s.modLaunch k f).ctx = s.ctx := rfl
@[simp] theorem modLaunch_schedule (k : Nat) (f : Launch → Launch) : (s.modLaunch k f).schedule = s.schedule := rfl
@[simp] theorem modLaunch_nextCore (k : Nat) (f : Launch → Launch) : (s.modLaunch k f).nextCore = s.nextCore := rfl
@[simp] theorem modLaunch_fresh (k : Nat) (f : Launch → Launch) : (s.modLaunch k f).fresh = s.fresh := rfl
@[simp] theorem modLaunch_nextId (k : Nat) (f : Launch → Launch) : (s.modLaunch k f).nextId = s.nextId := rfl
@[simp] theorem modLaunch_nextGang (k : Nat) (f : Launch → Launch) : (s.modLaunch k f).nextGang = s.nextGang := rfl

@[simp] theorem setRes_strands (r : Res) : (s.setRes r).strands = s.strands := rfl
@[simp] theorem setRes_cores (r : Res) : (s.setRes r).cores = s.cores := rfl
@[simp] theorem setRes_clusters (r : Res) : (s.setRes r).clusters = s.clusters := rfl
@[simp] theorem setRes_ctxs (r : Res) : (s.setRes r).ctxs = s.ctxs := rfl
@[simp] theorem setRes_mem (r : Res) : (s.setRes r).mem = s.mem := rfl
@[simp] theorem setRes_full (r : Res) : (s.setRes r).full = s.full := rfl
@[simp] theorem setRes_poison (r : Res) : (s.setRes r).poison = s.poison := rfl
@[simp] theorem setRes_linePoison (r : Res) : (s.setRes r).linePoison = s.linePoison := rfl
@[simp] theorem setRes_agent (r : Res) : (s.setRes r).agent = s.agent := rfl
@[simp] theorem setRes_busyLines (r : Res) : (s.setRes r).busyLines = s.busyLines := rfl
@[simp] theorem setRes_home (r : Res) : (s.setRes r).home = s.home := rfl
@[simp] theorem setRes_replies (r : Res) : (s.setRes r).replies = s.replies := rfl
@[simp] theorem setRes_launches (r : Res) : (s.setRes r).launches = s.launches := rfl
@[simp] theorem setRes_images (r : Res) : (s.setRes r).images = s.images := rfl
@[simp] theorem setRes_copies (r : Res) : (s.setRes r).copies = s.copies := rfl
@[simp] theorem setRes_gemvs (r : Res) : (s.setRes r).gemvs = s.gemvs := rfl
@[simp] theorem setRes_mmas (r : Res) : (s.setRes r).mmas = s.mmas := rfl
@[simp] theorem setRes_pushes (r : Res) : (s.setRes r).pushes = s.pushes := rfl
@[simp] theorem setRes_walks (r : Res) : (s.setRes r).walks = s.walks := rfl
@[simp] theorem setRes_blks (r : Res) : (s.setRes r).blks = s.blks := rfl
@[simp] theorem setRes_slots (r : Res) : (s.setRes r).slots = s.slots := rfl
@[simp] theorem setRes_cells (r : Res) : (s.setRes r).cells = s.cells := rfl
@[simp] theorem setRes_pfx (r : Res) : (s.setRes r).pfx = s.pfx := rfl
@[simp] theorem setRes_streams (r : Res) : (s.setRes r).streams = s.streams := rfl
@[simp] theorem setRes_binding (r : Res) : (s.setRes r).binding = s.binding := rfl
@[simp] theorem setRes_pool (r : Res) : (s.setRes r).pool = s.pool := rfl
@[simp] theorem setRes_mbox (r : Res) : (s.setRes r).mbox = s.mbox := rfl
@[simp] theorem setRes_keys (r : Res) : (s.setRes r).keys = s.keys := rfl
@[simp] theorem setRes_reserved (r : Res) : (s.setRes r).reserved = s.reserved := rfl
@[simp] theorem setRes_retired (r : Res) : (s.setRes r).retired = s.retired := rfl
@[simp] theorem setRes_plat (r : Res) : (s.setRes r).plat = s.plat := rfl
@[simp] theorem setRes_schedule (r : Res) : (s.setRes r).schedule = s.schedule := rfl
@[simp] theorem setRes_nextCore (r : Res) : (s.setRes r).nextCore = s.nextCore := rfl
@[simp] theorem setRes_fresh (r : Res) : (s.setRes r).fresh = s.fresh := rfl
@[simp] theorem setRes_nextId (r : Res) : (s.setRes r).nextId = s.nextId := rfl
@[simp] theorem setRes_nextGang (r : Res) : (s.setRes r).nextGang = s.nextGang := rfl

@[simp] theorem wait_strands : s.wait.strands = s.strands := rfl
@[simp] theorem wait_cores : s.wait.cores = s.cores := rfl
@[simp] theorem wait_clusters : s.wait.clusters = s.clusters := rfl
@[simp] theorem wait_ctxs : s.wait.ctxs = s.ctxs := rfl
@[simp] theorem wait_mem : s.wait.mem = s.mem := rfl
@[simp] theorem wait_full : s.wait.full = s.full := rfl
@[simp] theorem wait_poison : s.wait.poison = s.poison := rfl
@[simp] theorem wait_linePoison : s.wait.linePoison = s.linePoison := rfl
@[simp] theorem wait_agent : s.wait.agent = s.agent := rfl
@[simp] theorem wait_busyLines : s.wait.busyLines = s.busyLines := rfl
@[simp] theorem wait_home : s.wait.home = s.home := rfl
@[simp] theorem wait_replies : s.wait.replies = s.replies := rfl
@[simp] theorem wait_launches : s.wait.launches = s.launches := rfl
@[simp] theorem wait_images : s.wait.images = s.images := rfl
@[simp] theorem wait_copies : s.wait.copies = s.copies := rfl
@[simp] theorem wait_gemvs : s.wait.gemvs = s.gemvs := rfl
@[simp] theorem wait_mmas : s.wait.mmas = s.mmas := rfl
@[simp] theorem wait_pushes : s.wait.pushes = s.pushes := rfl
@[simp] theorem wait_walks : s.wait.walks = s.walks := rfl
@[simp] theorem wait_blks : s.wait.blks = s.blks := rfl
@[simp] theorem wait_slots : s.wait.slots = s.slots := rfl
@[simp] theorem wait_cells : s.wait.cells = s.cells := rfl
@[simp] theorem wait_pfx : s.wait.pfx = s.pfx := rfl
@[simp] theorem wait_streams : s.wait.streams = s.streams := rfl
@[simp] theorem wait_binding : s.wait.binding = s.binding := rfl
@[simp] theorem wait_pool : s.wait.pool = s.pool := rfl
@[simp] theorem wait_mbox : s.wait.mbox = s.mbox := rfl
@[simp] theorem wait_keys : s.wait.keys = s.keys := rfl
@[simp] theorem wait_reserved : s.wait.reserved = s.reserved := rfl
@[simp] theorem wait_retired : s.wait.retired = s.retired := rfl
@[simp] theorem wait_plat : s.wait.plat = s.plat := rfl
@[simp] theorem wait_schedule : s.wait.schedule = s.schedule := rfl
@[simp] theorem wait_nextCore : s.wait.nextCore = s.nextCore := rfl
@[simp] theorem wait_fresh : s.wait.fresh = s.fresh := rfl
@[simp] theorem wait_nextId : s.wait.nextId = s.nextId := rfl
@[simp] theorem wait_nextGang : s.wait.nextGang = s.nextGang := rfl

end Sys2Proof.Machine.State
end

