-- ==== Sys2Proof/Laws/Ops.lean ====
section
/-! SUPPORT. What each shared operation on registers can do: it changes one strand and nothing else, and in that strand the register it names. -/

namespace Sys2Proof.Machine.State

variable (s : State)

/-! ### Entries of the sparse tables -/

theorem strand_setStrand (k j : Nat) (t : Strand) : (s.setStrand k t).strand j = if j = k then t else s.strand j := by
  simp only [strand, setStrand, Map.getD_set]

theorem strand_modStrand (k j : Nat) (f : Strand → Strand) :
    (s.modStrand k f).strand j = if j = k then f (s.strand k) else s.strand j := s.strand_setStrand k j _

@[simp] theorem strand_modStrand_self (k : Nat) (f : Strand → Strand) : (s.modStrand k f).strand k = f (s.strand k) := by
  simp [strand_modStrand]

theorem core_setCore (k j : Nat) (t : Core) : (s.setCore k t).core j = if j = k then t else s.core j := by
  simp only [core, setCore, Map.getD_set]

theorem core_modCore (k j : Nat) (f : Core → Core) : (s.modCore k f).core j = if j = k then f (s.core k) else s.core j :=
  s.core_setCore k j _

theorem cluster_setCluster (k j : Nat) (t : Cluster) : (s.setCluster k t).cluster j = if j = k then t else s.cluster j := by
  simp only [cluster, setCluster, Map.getD_set]

theorem cluster_modCluster (k j : Nat) (f : Cluster → Cluster) :
    (s.modCluster k f).cluster j = if j = k then f (s.cluster k) else s.cluster j := s.cluster_setCluster k j _

theorem hctx_setHctx (k j : Nat) (t : Hctx) : (s.setHctx k t).hctx j = if j = k then t else s.hctx j := by
  simp only [hctx, setHctx, Map.getD_set]

theorem hctx_modHctx (k j : Nat) (f : Hctx → Hctx) : (s.modHctx k f).hctx j = if j = k then f (s.hctx k) else s.hctx j :=
  s.hctx_setHctx k j _

/-- Changing a strand twice is changing it once by both. -/
@[simp] theorem modStrand_modStrand (k : Nat) (f g : Strand → Strand) :
    (s.modStrand k f).modStrand k g = s.modStrand k (fun t => g (f t)) := by
  simp only [modStrand, setStrand, strand, Map.getD_set_self, Map.set_set]

/-! ### The strand being acted for -/

@[simp] theorem meKey_modMe (f : Strand → Strand) : (s.modMe f).meKey = s.meKey := rfl
@[simp] theorem meKey_modStrand (k : Nat) (f : Strand → Strand) : (s.modStrand k f).meKey = s.meKey := rfl
@[simp] theorem meKey_modHctx (k : Nat) (f : Hctx → Hctx) : (s.modHctx k f).meKey = s.meKey := rfl
@[simp] theorem meKey_modLaunch (k : Nat) (f : Launch → Launch) : (s.modLaunch k f).meKey = s.meKey := rfl
@[simp] theorem meKey_setRes (r : Res) : (s.setRes r).meKey = s.meKey := rfl
@[simp] theorem me_modMe (f : Strand → Strand) : (s.modMe f).me = f s.me := by
  simp [me, modMe, meKey_modStrand]
@[simp] theorem me_modHctx (k : Nat) (f : Hctx → Hctx) : (s.modHctx k f).me = s.me := rfl
@[simp] theorem me_modLaunch (k : Nat) (f : Launch → Launch) : (s.modLaunch k f).me = s.me := rfl
@[simp] theorem me_setRes (r : Res) : (s.setRes r).me = s.me := rfl
@[simp] theorem modMe_modMe (f g : Strand → Strand) : (s.modMe f).modMe g = s.modMe (fun t => g (f t)) := by
  simp [modMe, meKey_modStrand]

/-- A change of the strand being acted for is a change of that strand alone. -/
theorem strand_modMe (f : Strand → Strand) (k : Nat) :
    (s.modMe f).strand k = if k = s.meKey then f s.me else s.strand k := s.strand_modStrand _ _ _

/-- And of nothing else in the state. -/
@[simp] theorem modMe_rest (f : Strand → Strand) : { s.modMe f with strands := s.strands } = s := rfl

@[simp] theorem width_modMe (f : Strand → Strand) (c : Nat) : (s.modMe f).width c = s.width c := rfl
@[simp] theorem g_modMe (f : Strand → Strand) : (s.modMe f).g = s.g := rfl
@[simp] theorem lanes_modMe (f : Strand → Strand) : (s.modMe f).lanes = s.lanes := rfl
@[simp] theorem core_modMe (f : Strand → Strand) (c : Nat) : (s.modMe f).core c = s.core c := rfl
@[simp] theorem cluster_modMe (f : Strand → Strand) (c : Nat) : (s.modMe f).cluster c = s.cluster c := rfl
@[simp] theorem hctx_modMe (f : Strand → Strand) (h : Nat) : (s.modMe f).hctx h = s.hctx h := rfl

/-! ### Register writes -/

/-- A write to x0 is discarded. -/
@[simp] theorem wrX_zero (v : XWord) : s.wrX 0 v = s := rfl

/-- A write to x1 to x63 sets the register and clears its pending bit. -/
theorem wrX_ne (d : XReg) (v : XWord) (h : d ≠ 0) :
    s.wrX d v = s.modMe (fun t => { t with
      front := { t.front with x := t.front.x.set d.val v }, pend := { t.pend with x := t.pend.x.set d.val false } }) := by
  simp [wrX, h]

/-- A write to p0 is discarded. -/
@[simp] theorem wrP_zero (v : Bool) : s.wrP 0 v = s := rfl

/-- A write to p1 to p15 sets the register, clears its pending bit, and gives its value to the guards that waited for it. -/
theorem wrP_ne (d : PReg) (v : Bool) (h : d ≠ 0) :
    s.wrP d v = s.modMe (fun t => { t with
      front := { t.front with p := t.front.p.set d.val v }, pend := { t.pend with p := t.pend.p.set d.val false }
      ops := if t.pend.p[d.val] then takeGuards d.val v t.ops else t.ops }) := by
  simp only [wrP, h, if_false]

/-- A write to q0 is discarded. -/
@[simp] theorem wrQ_zero (m : LaneMask) (f : Nat → Bool) : s.wrQ 0 m f = s := rfl

theorem wrQ_ne (d : QReg) (m : LaneMask) (f : Nat → Bool) (h : d ≠ 0) :
    s.wrQ d m f = s.modMe (fun t => { t with
      eng := { t.eng with q := t.eng.q.set d.val (mergeMask s.lanes m t.eng.q[d.val] f) } }) := by
  simp [wrQ, h]

/-- The x registers read zero at x0 whatever they hold. -/
@[simp] theorem rdX_zero : s.rdX 0 = 0 := rfl
@[simp] theorem rdP_zero : s.rdP 0 = true := rfl
@[simp] theorem rdQ_zero : s.rdQ 0 = BitVec.allOnes 512 := rfl

/-- A merged lane: the new word where the lane exists and is active, the old one elsewhere. -/
theorem mergeLanes_getElem (n : Nat) (m : LaneMask) (old : Lanes) (f : Nat → Word32) (l : Nat) (h : l < 512) :
    (mergeLanes n m old f)[l] = if l < n ∧ m.getLsbD l = true then f l else old[l] := by
  simp [mergeLanes, BitVec.getLsbD_eq_getElem h]

/-- A merged mask bit: the new bit where the lane exists and is active, the old one elsewhere. -/
theorem mergeMask_getLsbD (n : Nat) (m old : LaneMask) (f : Nat → Bool) (l : Nat) (h : l < 512) :
    (mergeMask n m old f).getLsbD l = if l < n ∧ m.getLsbD l = true then f l else old.getLsbD l := by
  simp only [mergeMask, BitVec.getLsbD_ofFnLE, h, dite_true, Bool.and_eq_true, decide_eq_true_eq]

/-! ### One slot operation (R105, R117, R500) -/

/-- Inside the machine, where its tests have been passed, a slot operation is its effect. -/
theorem slotOp_admitted (i : Instr) (g : Guard) (eff : State → State) (h : s.ctx.admitted = true) :
    s.slotOp i g eff = .next (eff s) := by
  simp [slotOp, h]

/-- A slot operation whose registers are pending waits. -/
theorem slotOp_pending (i : Instr) (g : Guard) (eff : State → State) (h : s.ctx.admitted = false)
    (hp : s.pendingWait false i = true) : s.slotOp i g eff = .next s.wait := by
  simp [slotOp, h, hp]

/-- A false guard performs nothing. -/
theorem slotOp_false (i : Instr) (g : Guard) (eff : State → State) (h : s.ctx.admitted = false)
    (hp : s.pendingWait false i = false) (ha : i.always = false) (hg : s.holds g = false) : s.slotOp i g eff = .next s := by
  simp [slotOp, h, hp, ha, hg]

/-- A slot operation that passes every test of its issue is its effect, SIDE noted first where its form notes it. -/
theorem slotOp_runs (i : Instr) (g : Guard) (eff : State → State) (h : s.ctx.admitted = false)
    (hp : s.pendingWait false i = false) (hg : (i.always || s.holds g) = true) (hw : s.slotWait i = false)
    (hs : s.issueStop i = none) : s.slotOp i g eff = .next (eff (s.noteSide i)) := by
  cases ha : i.always <;> cases hg' : s.holds g <;> simp_all [slotOp]

/-- A slot operation that fails an issue check is stopped by it. -/
theorem slotOp_stops (i : Instr) (g : Guard) (eff : State → State) (e : Stop) (h : s.ctx.admitted = false)
    (hp : s.pendingWait false i = false) (hg : (i.always || s.holds g) = true) (hw : s.slotWait i = false)
    (hs : s.issueStop i = some e) : s.slotOp i g eff = .next (s.stopAt e) := by
  cases ha : i.always <;> cases hg' : s.holds g <;> simp_all [slotOp]

/-- A slot operation never stops the machine. -/
theorem slotOp_next (i : Instr) (g : Guard) (eff : State → State) : ∃ t, s.slotOp i g eff = .next t := by
  unfold slotOp
  split
  · exact ⟨_, rfl⟩
  · split
    · exact ⟨_, rfl⟩
    · split
      · exact ⟨_, rfl⟩
      · split
        · exact ⟨_, rfl⟩
        · split <;> exact ⟨_, rfl⟩

end Sys2Proof.Machine.State
end

