-- ==== Sys2Proof/Laws/Turns.lean ====
section
/-! SUPPORT. What the turns of acts on several lines can do (Ops, Medlar): where no request waits they change nothing but what the act does, and taking or giving up a turn changes the lists of the homes alone. -/

namespace Sys2Proof.Machine.State

variable {s : State} {o : HReq} {lines : List Nat}

/-- Taking a turn at a line changes the lists of the homes alone. -/
theorem joinLine_frame (l : Nat) : ∃ h, joinLine o l s = { s with home := h } := by
  unfold joinLine
  split
  · exact ⟨s.home, rfl⟩
  · exact ⟨_, rfl⟩

/-- Taking turns at some lines, one after another, changes the lists of the homes alone. -/
theorem joinUpTo_frame (ls : List Nat) : ∀ s : State, ∃ h, joinUpTo o ls s = { s with home := h } := by
  induction ls with
  | nil => exact fun s => ⟨s.home, rfl⟩
  | cons l ls ih =>
      intro s
      obtain ⟨h, e⟩ := joinLine_frame (s := s) (o := o) l
      simp only [joinUpTo, e]
      split
      · obtain ⟨h', e'⟩ := ih { s with home := h }
        exact ⟨h', e'⟩
      · exact ⟨_, rfl⟩

/-- Taking turns at some lines and no others changes the lists of the homes alone. -/
theorem joinLines_frame : ∃ h, joinLines o lines s = { s with home := h } := by
  obtain ⟨h, e⟩ := joinUpTo_frame (o := o) (lines.foldl NSet.add [])
    { s with home := s.home.filter (fun r => !(isTurn o r && !(lines.foldl NSet.add ([] : NSet)).contains (r.addr / 64))) }
  exact ⟨h, e⟩

/-- An act that must wait takes its turns and changes nothing else. -/
theorem inTurn_waits (f : State → State) (h : s.linesMine o lines = false) : inTurn o lines f s = joinLines o lines s := by
  simp [inTurn, h]

/-- Where no request waits, no owner has turns. -/
theorem taken_idle (h : s.home = []) : s.taken o lines = false := by simp [taken, h]

/-- Where no request waits, an act sees the state as it stands. -/
theorem asMine_idle (h : s.home = []) : s.asMine o lines = s := by simp [asMine, taken_idle h]

/-- Where no request waited, giving lines back changes nothing. -/
theorem giveBack_idle (h : s.home = []) (t : State) : giveBack o lines s t = t := by simp [giveBack, taken_idle h]

/-- Where no request waits, giving turns up changes nothing. -/
theorem giveUp_idle (h : s.home = []) : giveUp o s = s := giveBack_idle h s

/-- Where no request waits, no line has come to an owner by its turn. -/
theorem turnLines_idle (h : s.home = []) : s.turnLines o = [] := by simp [turnLines, h]

/-- A line is an owner's own where it is not busy and no request waits. -/
theorem lineMine_idle (h : s.home = []) (l : Nat) : s.lineMine o l = !s.busyLines.mem l := by simp [lineMine, h]

/-- Where no request waits and no line is busy, an act runs as it stands. -/
theorem inTurn_idle (f : State → State) (h : s.home = []) (hb : ∀ l ∈ lines, s.busyLines.mem l = false) :
    inTurn o lines f s = f s := by
  have hm : s.linesMine o lines = true := by
    simp only [linesMine, List.all_eq_true]
    intro l hl
    rw [lineMine_idle h, hb l hl]
    rfl
  simp [inTurn, hm, asMine_idle h, giveBack_idle h]

/-- What an operation's act in its turn can do where no request waits: its effect, its failure code, a held fault, poison consumed, or a wait (R381, R382). -/
theorem actTurn_idle (fail : Nat → State → State) (act : State → Except TErr State) (h : s.home = []) :
    actTurn fail act s = match act s with
      | .ok t => t
      | .error (.code n) => fail n s
      | .error (.fault code va) => s.holdFault code va
      | .error (.poison va) => s.consume va
      | .error (.hold []) => s.wait
      | .error (.hold ls) => (joinLines s.myTurn ls s).wait := by
  simp only [actTurn, asMine_idle h, turnLines_idle h, giveUp_idle h, List.nil_append]
  match act s with
  | .ok t => exact giveBack_idle h t
  | .error (.code _) | .error (.fault _ _) | .error (.poison _) | .error (.hold []) | .error (.hold (_ :: _)) => rfl

end Sys2Proof.Machine.State
end

