-- ==== Sys2Proof/Safety.lean ====
section
/-! DEFINITION. What a safe run is: no step stops but for the loss of power, and memory keeps its canonical form. -/

namespace Sys2Proof

/-- A step that stops neither with a fault nor with a refusal. -/
def Safe (s : Machine.State) : Prop := ∃ t, Machine.step s = .next t

/-- n steps, each of which answers a next state. -/
inductive Runs : Machine.State → Nat → Machine.State → Prop where
  | zero (s : Machine.State) : Runs s 0 s
  | more {s t u : Machine.State} {n : Nat} : Machine.step s = .next t → Runs t n u → Runs s (n + 1) u

end Sys2Proof
end

