-- ==== Sys2Proof/Tests/Slice0.lean ====
section
/-! SUPPORT. The author's own tests: ill-formed terms refused, words of the spec decoded, single steps with results worked out from the spec, and a witness for the hypotheses of every statement. -/

namespace Sys2Proof.Tests

open Machine Claims

set_option exponentiation.threshold 1024
set_option Elab.async false

/-! ### Ill-formed terms are refused, one for each check -/

def g0 : Guard := ⟨false, 0⟩

/-- Terms that each break one check of WellFormed. -/
def illFormed : List Instr :=
  [.cclr ⟨true, 0⟩, .shlImm g0 1 2 (.short 64), .rolImm g0 1 2 (.long 64), .fcmp g0 .ltn 1 2 3, .puts g0 1 .core,
   .ld g0 .d 1 2 (.short 0), .ld g0 .d 1 2 (.long 8 0), .ldN g0 .d 1 2 (.short 1), .ldv g0 1 2 (.short 0), .ldvFeTake g0 false 1 2 (.short 0),
   .ldvFeKeep g0 true 1 2 (.long 16 0), .ldvg g0 1 2 (.short 0), .fill g0 1 (.short 0), .atom g0 .add true 1 2 (.short 0),
   .cas g0 true 3 2 (.short 1), .cas g0 true 0 2 (.short 1), .red g0 .swap true 1 2 none,
   .vadd g0 1 2 3 0 .i32 .rne, .vsub g0 1 2 3 0 .e4m3 .fmode, .vmul g0 1 2 3 0 .i4 .fmode, .vfma g0 1 2 3 4 0 .n8 .rup,
   .vmin g0 1 2 3 0 .i4, .vmax g0 1 2 3 0 .e2m1, .vabs g0 1 2 0 .n4, .vneg g0 1 2 0 .e5m2, .vclamp g0 1 2 3 4 0 .i4]
def illFormed2 : List Instr :=
  [.vcmp g0 .gen 1 2 3 0 .f32, .vcmp g0 .eq 1 2 3 0 .e4m3, .vred g0 .and 1 2 0 .f32 .fmode, .vred g0 .min 1 2 0 .f32 .rne,
   .vscan g0 .add 1 2 0 .n16 .rtz, .vqmx g0 1 2 3 .f16 .fmode false, .vqmx g0 1 2 1 .i8 .fmode false, .vdqmx g0 1 2 3 0 .n8 .fmode,
   .vrand g0 1 3 4 0 .n32 false, .vrand g0 1 2 5 0 .f32 false, .vrand g0 1 2 4 0 .i32 false, .vrand g0 3 2 4 0 .f32 true,
   .sortb g0 true 3 4 5, .merge g0 true 3 4, .merge g0 false 2 5]

theorem test_ill_formed_terms_are_refused : (∀ i ∈ illFormed, i.wf = false) ∧ ∀ i ∈ illFormed2, i.wf = false := by decide
theorem test_ill_formed_events_are_refused :
    Instr.wf (.dcAddEvent 0 1 65536) = false ∧ Instr.wf (.dcReleaseRequest 0 0 1) = false ∧ Instr.wf (.spdmRequest 0) = false ∧
      Instr.wf (.spdmRequest 8) = false := by decide
theorem test_ill_formed_terms_have_no_neighbour :
    Instr.wf (.shlImm g0 1 2 (.short 63)) = true ∧ Instr.wf (.vrand g0 1 2 4 0 .f32 true) = true ∧ Instr.wf (.merge g0 true 2 4) = true ∧
      Instr.wf (.cas g0 true 2 2 (.short 1)) = true ∧ Instr.wf (.vcmp g0 .ge 1 2 3 0 .f32) = true := by decide

/-! ### Words -/

/-- Words of slot S laid out from R98, R106, one for each form. -/
def wordsS1 : List (Nat × Instr) :=
  [(0x0102A9AC, .add ⟨false, 0⟩ 21 19 22),
   (0x419B4E64, .addImm ⟨true, 3⟩ 26 28 (.short 100)),
   (0x0279E494, .sub ⟨false, 15⟩ 15 9 10),
   (0x42C8C341, .subImm ⟨true, 9⟩ 6 6 (.short 65)),
   (0x0302A9AC, .mul ⟨false, 0⟩ 21 19 22),
   (0x439B4E64, .mulImm ⟨true, 3⟩ 26 28 (.short 100)),
   (0x0479E494, .mulh ⟨false, 15⟩ 15 9 10),
   (0x44C8C341, .mulhImm ⟨true, 9⟩ 6 6 (.short 65)),
   (0x0502A9AC, .mulhn ⟨false, 0⟩ 21 19 22),
   (0x459B4E64, .mulhnImm ⟨true, 3⟩ 26 28 (.short 100)),
   (0x0679E494, .div ⟨false, 15⟩ 15 9 10),
   (0x46C8C341, .divImm ⟨true, 9⟩ 6 6 (.short 65)),
   (0x0702A9AC, .divn ⟨false, 0⟩ 21 19 22),
   (0x479B4E64, .divnImm ⟨true, 3⟩ 26 28 (.short 100)),
   (0x0879E494, .rem ⟨false, 15⟩ 15 9 10),
   (0x48C8C341, .remImm ⟨true, 9⟩ 6 6 (.short 65)),
   (0x0902A9AC, .remn ⟨false, 0⟩ 21 19 22),
   (0x499B4E64, .remnImm ⟨true, 3⟩ 26 28 (.short 100)),
   (0x0A79E494, .and ⟨false, 15⟩ 15 9 10),
   (0x4AC8C341, .andImm ⟨true, 9⟩ 6 6 (.short 65)),
   (0x0B02A9AC, .or ⟨false, 0⟩ 21 19 22),
   (0x4B9B4E64, .orImm ⟨true, 3⟩ 26 28 (.short 100)),
   (0x0C79E494, .xor ⟨false, 15⟩ 15 9 10),
   (0x4CC8C341, .xorImm ⟨true, 9⟩ 6 6 (.short 65)),
   (0x0D02A9AC, .andn ⟨false, 0⟩ 21 19 22),
   (0x4D9B4E64, .andnImm ⟨true, 3⟩ 26 28 (.short 100)),
   (0x0E79E494, .shl ⟨false, 15⟩ 15 9 10),
   (0x4EC8C301, .shlImm ⟨true, 9⟩ 6 6 (.short 1)),
   (0x0F02A9AC, .shr ⟨false, 0⟩ 21 19 22),
   (0x4F9B4E24, .shrImm ⟨true, 3⟩ 26 28 (.short 36)),
   (0x1079E494, .shra ⟨false, 15⟩ 15 9 10),
   (0x50C8C301, .shraImm ⟨true, 9⟩ 6 6 (.short 1)),
   (0x1102A9AC, .rol ⟨false, 0⟩ 21 19 22),
   (0x519B4E24, .rolImm ⟨true, 3⟩ 26 28 (.short 36)),
   (0x1279E494, .min ⟨false, 15⟩ 15 9 10),
   (0x52C8C341, .minImm ⟨true, 9⟩ 6 6 (.short 65)),
   (0x1302A9AC, .max ⟨false, 0⟩ 21 19 22),
   (0x539B4E64, .maxImm ⟨true, 3⟩ 26 28 (.short 100)),
   (0x1479E494, .minn ⟨false, 15⟩ 15 9 10),
   (0x54C8C341, .minnImm ⟨true, 9⟩ 6 6 (.short 65)),
   (0x1502A9AC, .maxn ⟨false, 0⟩ 21 19 22),
   (0x559B4E64, .maxnImm ⟨true, 3⟩ 26 28 (.short 100))]
theorem test_words_of_slot_s1_decode : ∀ e ∈ wordsS1, decodeSlot .s e.1 none = some e.2 := by decide

/-- Words of slot S laid out from R98, R106, one for each form. -/
def wordsS2 : List (Nat × Instr) :=
  [(0x1679E480, .clz ⟨false, 15⟩ 15 9),
   (0x17C8C300, .ctz ⟨true, 9⟩ 6 6),
   (0x1802A980, .popc ⟨false, 0⟩ 21 19),
   (0x199B4E00, .abs ⟨true, 3⟩ 26 28),
   (0x1A79E4DA, .sext ⟨false, 15⟩ 15 9 45),
   (0x1BC8C35A, .zext ⟨true, 9⟩ 6 6 45),
   (0x1C02A9AC, .bfx ⟨false, 0⟩ 21 19 22),
   (0x1C9B4E33, .bfxN ⟨true, 3⟩ 26 28 25),
   (0x1D79E494, .bfi ⟨false, 15⟩ 15 9 10),
   (0x1EC8C30A, .sel ⟨true, 9⟩ 6 6 5),
   (0x1F02A07D, .li ⟨false, 0⟩ 21 (.short 125)),
   (0x209B4E32, .fadd ⟨true, 3⟩ 26 28 25),
   (0x2179E494, .fsub ⟨false, 15⟩ 15 9 10),
   (0x22C8C30A, .fmul ⟨true, 9⟩ 6 6 5),
   (0x2302A9AC, .ffma ⟨false, 0⟩ 21 19 22),
   (0x249B4E32, .fmin ⟨true, 3⟩ 26 28 25),
   (0x2579E494, .fmax ⟨false, 15⟩ 15 9 10),
   (0x26C8C300, .cvtf ⟨true, 9⟩ 6 6),
   (0x2602A981, .cvtfN ⟨false, 0⟩ 21 19),
   (0x279B4E00, .cvti ⟨true, 3⟩ 26 28),
   (0x2779E481, .cvtiN ⟨false, 15⟩ 15 9),
   (0x28C8C30A, .pand ⟨true, 9⟩ 6 6 5),
   (0x2900A18C, .por ⟨false, 0⟩ 5 3 6),
   (0x2A984202, .pxor ⟨true, 3⟩ 2 4 1),
   (0x2B78E084, .pandn ⟨false, 15⟩ 7 1 2),
   (0x2CC8C000, .pget ⟨true, 9⟩ 6),
   (0x2D000980, .pset ⟨false, 0⟩ 19),
   (0x30984064, .ptb ⟨true, 3⟩ 2 (.short 100)),
   (0x3178E480, .ptbx ⟨false, 15⟩ 7 9),
   (0x32C80300, .br ⟨true, 9⟩ 6),
   (0x3302A180, .brl ⟨false, 0⟩ 21 3),
   (0x34980064, .trap ⟨true, 3⟩ (.short 100)),
   (0x3878E094, .aadd ⟨false, 15⟩ 7 1 10),
   (0x78C8C341, .aaddImm ⟨true, 9⟩ 6 6 (.short 65)),
   (0x3900A980, .aset ⟨false, 0⟩ 5 19),
   (0x3A9B4200, .aget ⟨true, 3⟩ 26 4),
   (0x3B78E094, .alea ⟨false, 15⟩ 7 1 10),
   (0x89C8C30A, .cmp ⟨true, 9⟩ .gen 6 6 5),
   (0xC000A9FD, .cmpImm ⟨false, 0⟩ .eq 5 19 (.short 125)),
   (0x91984E32, .fcmp ⟨true, 3⟩ .ne 2 28 25),
   (0xA079E020, .gets ⟨false, 15⟩ 15 .bindsel),
   (0xA1C80320, .puts ⟨true, 9⟩ 6 .bindsel)]
theorem test_words_of_slot_s2_decode : ∀ e ∈ wordsS2, decodeSlot .s e.1 none = some e.2 := by decide

/-- Words of slot A laid out from R98, R108, one for each form. -/
def wordsA : List (Nat × Instr) :=
  [(0x1002A182, .ld ⟨false, 0⟩ .b 21 3 (.short 1)),
   (0x159B427E, .ldN ⟨true, 3⟩ .h 26 4 (.short 63)),
   (0x1A79E0BF, .st ⟨false, 15⟩ .w 15 1 (.short 63)),
   (0x20C8C342, .ldv ⟨true, 9⟩ 6 6 (.short 33)),
   (0x2102A182, .ldvFeTake ⟨false, 0⟩ false 21 3 (.short 1)),
   (0x229B427F, .ldvFeKeep ⟨true, 3⟩ true 26 4 (.short 63)),
   (0x2479E0BF, .stv ⟨false, 15⟩ 15 1 (.short 63)),
   (0x25C8C341, .stvFe ⟨true, 9⟩ 6 6 (.short 65)),
   (0x2602A182, .ldvg ⟨false, 0⟩ 21 3 (.short 1)),
   (0x279B4232, .stvs ⟨true, 3⟩ 26 4 25),
   (0x2879E080, .setfe ⟨false, 15⟩ 15 1),
   (0x29C8C300, .clrfe ⟨true, 9⟩ 6 6),
   (0x2A02A000, .spill ⟨false, 0⟩ 21),
   (0x2B9B407E, .fill ⟨true, 3⟩ 26 (.short 63)),
   (0x2C7800BF, .pref ⟨false, 15⟩ 1 (.short 63)),
   (0x30C8C343, .atom ⟨true, 9⟩ .add true 6 6 (.short 33)),
   (0x40008102, .cas ⟨false, 0⟩ false 4 2 (.short 1)),
   (0x4A9B4201, .red ⟨true, 3⟩ .or true 26 4 none),
   (0x5079E080, .chkout ⟨false, 15⟩ 15 1),
   (0x51C80300, .chkin ⟨true, 9⟩ 6)]
theorem test_words_of_slot_a_decode : ∀ e ∈ wordsA, decodeSlot .a e.1 none = some e.2 := by decide

/-- Words of slot C laid out from R98, R109, one for each form. -/
def wordsC : List (Nat × Instr) :=
  [(0x1000A193, .copy ⟨false, 0⟩ (some 0) 5 3 (.reg 9)),
   (0x19984233, .copys ⟨true, 3⟩ (some 1) 2 4 25),
   (0x2278E095, .copyg ⟨false, 15⟩ (some 2) 7 1 10),
   (0x2BC8C30B, .copyfe ⟨true, 9⟩ (some 3) 6 6 5),
   (0x3400A18D, .gemv ⟨false, 0⟩ (some 4) 5 3 6),
   (0x40980E00, .bankmode ⟨true, 3⟩ 28),
   (0x4179E080, .flush ⟨false, 15⟩ 15 1),
   (0x42C8C300, .inval ⟨true, 9⟩ 6 6)]
theorem test_words_of_slot_c_decode : ∀ e ∈ wordsC, decodeSlot .c e.1 none = some e.2 := by decide

/-- Words of slot M laid out from R100, R110, one for each form. -/
def wordsM : List (Nat × Instr) :=
  [(0x102A18C28B30000, .mma ⟨false, 0⟩ 21 3 6 10 11 12 .mxi8),
   (0x29B42028628C400, .mmat ⟨true, 3⟩ 26 4 1 33 34 35 .i8),
   (0x379E00000000000, .accz ⟨false, 15⟩ 15),
   (0x4C8C30000000C00, .accret ⟨true, 9⟩ 6 6 .n16),
   (0x502A18000001200, .accadd ⟨false, 0⟩ 21 3 .i8 2),
   (0x69B420000000000, .accld ⟨true, 3⟩ 26 4),
   (0x779E08000000000, .accst ⟨false, 15⟩ 15 1),
   (0x8C8C30004000000, .accrd ⟨true, 9⟩ 6 6 1),
   (0x902A98028000000, .accwr ⟨false, 0⟩ 21 19 10)]
theorem test_words_of_slot_m_decode : ∀ e ∈ wordsM, decodeSlot .m e.1 none = some e.2 := by decide

/-- Words of slot V laid out from R99, R112, one for each form. -/
def wordsV : List (Nat × Instr) :=
  [(0x19B4E3200C1, .vadd ⟨true, 3⟩ 26 28 25 1 .f16 .rne),
   (0x279E4940142, .vsub ⟨false, 15⟩ 15 9 10 2 .f16 .rtz),
   (0x3C8C30A01C3, .vmul ⟨true, 9⟩ 6 6 5 3 .f16 .rup),
   (0x402A9AC1044, .vfma ⟨false, 0⟩ 21 19 22 4 0 .f16 .rdn),
   (0x59B4E3200C0, .vmin ⟨true, 3⟩ 26 28 25 1 .f16),
   (0x679E4940140, .vmax ⟨false, 15⟩ 15 9 10 2 .f16),
   (0x7C8C30001C0, .vabs ⟨true, 9⟩ 6 6 3 .f16),
   (0x802A9800040, .vneg ⟨false, 0⟩ 21 19 0 .f16),
   (0x99B4E320CC0, .vclamp ⟨true, 3⟩ 26 28 25 3 1 .f16),
   (0xA79E4800130, .vrcp ⟨false, 15⟩ 15 9 2),
   (0xBC8C30001B0, .vrsq ⟨true, 9⟩ 6 6 3),
   (0xC02A9800030, .vexp2 ⟨false, 0⟩ 21 19 0),
   (0xD9B4E0000B0, .vlog2 ⟨true, 3⟩ 26 28 1),
   (0x1079E4940100, .vand ⟨false, 15⟩ 15 9 10 2),
   (0x11C8C30A0180, .vor ⟨true, 9⟩ 6 6 5 3),
   (0x1202A9AC0000, .vxor ⟨false, 0⟩ 21 19 22 0),
   (0x139B4E019480, .vshl ⟨true, 3⟩ 26 28 (.imm 37) 1),
   (0x1479E4AA0100, .vshr ⟨false, 15⟩ 15 9 (.reg 21) 2),
   (0x15C8C3019580, .vshra ⟨true, 9⟩ 6 6 (.imm 37) 3),
   (0x1800A9AC0040, .vcmp ⟨false, 0⟩ .eq 5 19 22 0 .f16),
   (0x199B4E320C80, .vsel ⟨true, 3⟩ 26 28 25 3 1),
   (0x1A79E4800100, .vmov ⟨false, 15⟩ 15 9 2),
   (0x1BC8C0019580, .vbcast ⟨true, 9⟩ 6 (.imm 37) 3),
   (0x1C02A9AC0000, .vperm ⟨false, 0⟩ 21 19 22 0),
   (0x1D9B4E320080, .vslide ⟨true, 3⟩ 26 28 25 1),
   (0x1D79E4950100, .vslideDn ⟨false, 15⟩ 15 9 10 2),
   (0x1EC8C30001C2, .vred ⟨true, 9⟩ .add 6 6 3 .f16 .rtz),
   (0x1F02A9800440, .vscan ⟨false, 0⟩ .min 21 19 0 .f16 .fmode),
   (0x209842000080, .vany ⟨true, 3⟩ 2 4 1),
   (0x2178E0800100, .vall ⟨false, 15⟩ 7 1 2),
   (0x22C8C3000180, .vfirst ⟨true, 9⟩ 6 6 3),
   (0x2302A1800000, .vpopc ⟨false, 0⟩ 21 3 0),
   (0x249B40000080, .viota ⟨true, 3⟩ 26 1),
   (0x2579E4940000, .vextr ⟨false, 15⟩ 15 9 10),
   (0x26C8C30A0000, .vins ⟨true, 9⟩ 6 6 5),
   (0x2802A9803439, .vcvt ⟨false, 0⟩ 21 19 0 .n4 .bf16 .rne false),
   (0x299B4E330052, .vqmx ⟨true, 3⟩ 26 28 25 .e5m2 .rtz true),
   (0x2A79E4940153, .vdqmx ⟨false, 15⟩ 15 9 10 2 .e5m2 .rup),
   (0x2BC9230901B0, .vrand ⟨true, 9⟩ 9 6 4 3 .f32 true),
   (0x3000A18C0000, .qand ⟨false, 0⟩ 5 3 6 0),
   (0x319842020080, .qor ⟨true, 3⟩ 2 4 1 1),
   (0x3278E0840100, .qxor ⟨false, 15⟩ 7 1 2 2),
   (0x33C8C3000180, .qnot ⟨true, 9⟩ 6 6 3)]
theorem test_words_of_slot_v_decode : ∀ e ∈ wordsV, decodeSlot .v e.1 none = some e.2 := by decide

/-- Words of slot X laid out from R98, R113, one for each form. -/
def wordsX : List (Nat × Instr) :=
  [(0x0100812C, .sortb ⟨false, 0⟩ false 4 2 22),
   (0x02984201, .merge ⟨true, 3⟩ true 2 4),
   (0x03780494, .cmrg ⟨false, 15⟩ 9 10),
   (0x04C8C003, .cget ⟨true, 9⟩ true 6 1),
   (0x05000000, .cclr ⟨false, 0⟩),
   (0x069B4E00, .ctopp ⟨true, 3⟩ 26 28),
   (0x0779E480, .cdraw ⟨false, 15⟩ 15 9)]
theorem test_words_of_slot_x_decode : ∀ e ∈ wordsX, decodeSlot .x e.1 none = some e.2 := by decide

/-- Words of slot Q laid out from R98, R114, one for each form. -/
def wordsQ : List (Nat × Instr) :=
  [(0x0BC80002, .fenceAcq ⟨true, 9⟩ .gang),
   (0x0C000004, .fenceRel ⟨false, 0⟩ .device),
   (0x0D980006, .fenceFull ⟨true, 3⟩ .pool),
   (0x16780000, .drain ⟨false, 15⟩ .host),
   (0x20C8C30A, .push ⟨true, 9⟩ 6 6 5),
   (0x2102A980, .pop ⟨false, 0⟩ 21 19),
   (0x229B4E00, .qstat ⟨true, 3⟩ 26 28),
   (0x23780094, .notify ⟨false, 15⟩ 1 10),
   (0x24C8C300, .launch ⟨true, 9⟩ 6 6),
   (0x25000980, .suspend ⟨false, 0⟩ 19),
   (0x26980000, .exit ⟨true, 3⟩),
   (0x27780494, .evpost ⟨false, 15⟩ 9 10),
   (0x40C8C30A, .dictld ⟨true, 9⟩ 6 6 5),
   (0x44000180, .tlbinvPage ⟨false, 0⟩ 3),
   (0x45980E00, .tlbinvHc ⟨true, 3⟩ 28),
   (0x46780000, .tlbinvAll ⟨false, 15⟩),
   (0x50C8C30A, .kvlook ⟨true, 9⟩ 6 6 5),
   (0x5102A9AC, .kvapp ⟨false, 0⟩ 21 19 22),
   (0x529B4E32, .kvfork ⟨true, 3⟩ 26 28 25),
   (0x5379E494, .kvtrunc ⟨false, 15⟩ 15 9 10),
   (0x54C8030A, .kvfree ⟨true, 9⟩ 6 5),
   (0x5502A9AC, .pfxfind ⟨false, 0⟩ 21 19 22),
   (0x569B4E32, .pfxins ⟨true, 3⟩ 26 28 25),
   (0x5779E494, .strunc ⟨false, 15⟩ 15 9 10),
   (0x58C8C30A, .scommit ⟨true, 9⟩ 6 6 5),
   (0x5902A1AC, .sframe ⟨false, 0⟩ 21 3 22),
   (0x5A980232, .btsnap ⟨true, 3⟩ 4 25),
   (0x5B78E000, .obsel ⟨false, 15⟩ 7),
   (0x60C80300, .stage ⟨true, 9⟩ 6),
   (0x61000980, .tokclr ⟨false, 0⟩ 19),
   (0x62980E00, .bar ⟨true, 3⟩ 28),
   (0x63780494, .lnscfg ⟨false, 15⟩ 9 10),
   (0x64C80300, .lnsrun ⟨true, 9⟩ 6),
   (0x65000000, .lnsbrk ⟨false, 0⟩),
   (0x66980E00, .seqlen ⟨true, 3⟩ 28),
   (0x6779E480, .cntrd ⟨false, 15⟩ 15 9),
   (0x68C80300, .cntclr ⟨true, 9⟩ 6),
   (0x70000980, .resume ⟨false, 0⟩ 19),
   (0x719B4200, .fqpop ⟨true, 3⟩ 26 4)]
theorem test_words_of_slot_q_decode : ∀ e ∈ wordsQ, decodeSlot .q e.1 none = some e.2 := by decide

/-- Long forms, from R103, R104 and R109: the word with a zero short field and the lent literal. -/
theorem test_long_forms_decode :
    decodeSlot .s 0x1F008000 (some 100) = some (.li g0 4 (.long 100)) ∧
    decodeSlot .a 0x13008080 (some 0x00010003) = some (.ld g0 .d 4 1 (.long 16 3)) ∧
    decodeSlot .a 0x48008081 (some 0xFFFFFFF8) = some (.red g0 .add true 4 1 (some 0xFFFFFFF8)) ∧
    decodeSlot .c 0x10004080 (some 0x600001000) = some (.copy g0 none 2 1 (.long 0x1000 2 true)) ∧
    decodeSlot .v 0x1B0020010000 (some 5) = some (.vbcast g0 1 (.long 5) 0) := by decide

/-- Worked encodings of R214, R221, R228, R443 and R444. -/
theorem test_worked_encodings_decode :
    decodeSlot .m 0x0100420A28B30400 none = some (.mma g0 2 4 5 10 11 12 .i8) ∧
    decodeSlot .m 0x0400430000001000 none = some (.accret g0 2 6 .i8) ∧
    decodeSlot .x 0x0300030E none = some (.cmrg g0 6 7) ∧
    decodeSlot .q 0x70000280 none = some (.resume g0 5) ∧
    decodeSlot .q 0x71008100 none = some (.fqpop g0 4 2) := by decide

/-- Reserved bits, unassigned codes and ?!p0 are refused (R102, R111, R151). -/
theorem test_illegal_words_are_refused :
    decodeSlot .s 0x01000001 none = none ∧ decodeSlot .s 0x8A000000 none = none ∧ decodeSlot .s 0x01800000 none = none ∧
    decodeSlot .s 0xA0000006 none = none ∧ decodeSlot .a 0x10000000 none = none ∧ decodeSlot .m 0x0100420A28B32000 none = none ∧
    decodeSlot .v 0x010000000070 none = none ∧ decodeSlot .v 0x010000000035 none = none ∧ decodeSlot .x 0x01002000 none = none ∧
    decodeSlot .c 0x11000000 none = none := by decide

/-! ### Single steps -/

def regs (xs : List (XReg × XWord)) (as : List (AReg × AWord)) : FrontRegs :=
  { FrontRegs.reset 0 with
    x := xs.foldl (fun v e => v.set e.1.val e.2) (FrontRegs.reset 0).x
    a := as.foldl (fun v e => v.set e.1.val e.2) (FrontRegs.reset 0).a }

/-- A scratchpad bank that context 0 owns. -/
def owned : Bank := { Bank.reset with owner := some 0 }

/-- A strand of core 0 that runs, with some x and a registers, four tiles of window, in a cluster whose first banks context 0 owns, and with one leaf of HBM at page 1. -/
def base (xs : List (XReg × XWord)) (as : List (AReg × AWord)) : State :=
  { State.reset with
    strands := [(0, { Strand.reset 0 with front := regs xs as, life := .running, tn := 4 })]
    clusters := [(0, { Cluster.reset with banks := [(0, owned), (1, owned), (2, { owned with mode := 2 })]
                                          tlb := [⟨0, 1, 0x20000, 0, true, false⟩] })] }

/-- The state an instruction leaves. -/
def after (i : Instr) (s : State) : State :=
  match exec i s with
  | .next t => t
  | _ => s

/-- x1 = −7, x2 = 3, x5 = −2^63, x6 = −1, x7 = 65. -/
def ints : State := base [(1, 0xFFFFFFFFFFFFFFF9), (2, 3), (5, 0x8000000000000000), (6, 0xFFFFFFFFFFFFFFFF), (7, 65)] []

/-- R157 to R159, worked by hand. -/
theorem test_integer_forms :
    ∀ e ∈ ([(.add g0 3 1 2, 0xFFFFFFFFFFFFFFFC), (.sub g0 3 2 1, 10), (.mul g0 3 1 2, 0xFFFFFFFFFFFFFFEB), (.mulh g0 3 1 2, 0xFFFFFFFFFFFFFFFF),
      (.mulhn g0 3 1 2, 2), (.div g0 3 1 2, 0xFFFFFFFFFFFFFFFE), (.div g0 3 5 6, 0x8000000000000000), (.div g0 3 1 0, 0),
      (.divn g0 3 1 2, 0x5555555555555553), (.rem g0 3 1 2, 0xFFFFFFFFFFFFFFFF), (.rem g0 3 1 0, 0xFFFFFFFFFFFFFFF9), (.remn g0 3 1 2, 0)] : List (Instr × XWord)),
      (after e.1 ints).rdX 3 = e.2 := by decide
theorem test_bitwise_and_shift_forms :
    ∀ e ∈ ([(.and g0 3 1 2, 1), (.or g0 3 1 2, 0xFFFFFFFFFFFFFFFB), (.xor g0 3 1 2, 0xFFFFFFFFFFFFFFFA), (.andn g0 3 2 1, 2),
      (.shl g0 3 2 7, 6), (.shr g0 3 5 2, 0x1000000000000000), (.shra g0 3 5 2, 0xF000000000000000), (.rol g0 3 5 7, 1),
      (.min g0 3 1 2, 0xFFFFFFFFFFFFFFF9), (.max g0 3 1 2, 3), (.minn g0 3 1 2, 3), (.maxn g0 3 1 2, 0xFFFFFFFFFFFFFFF9)] : List (Instr × XWord)),
      (after e.1 ints).rdX 3 = e.2 := by decide
theorem test_immediate_forms :
    ∀ e ∈ ([(.addImm g0 3 2 (.short 0x7F), 2), (.subImm g0 3 2 (.short 0x7F), 4), (.mulImm g0 3 1 (.short 2), 0xFFFFFFFFFFFFFFF2),
      (.mulhImm g0 3 6 (.short 5), 0xFFFFFFFFFFFFFFFF), (.mulhnImm g0 3 6 (.short 0x7F), 126), (.divImm g0 3 1 (.short 0x7E), 3),
      (.divnImm g0 3 6 (.long 0xFFFFFFFF), 0x100000001), (.remImm g0 3 1 (.short 4), 0xFFFFFFFFFFFFFFFD), (.remnImm g0 3 1 (.short 10), 9),
      (.andImm g0 3 1 (.short 0x7E), 0xFFFFFFFFFFFFFFF8), (.orImm g0 3 2 (.long 0x80000000), 0xFFFFFFFF80000003), (.xorImm g0 3 1 (.short 0x7F), 6),
      (.andnImm g0 3 2 (.short 1), 2), (.shlImm g0 3 2 (.short 63), 0x8000000000000000), (.shrImm g0 3 6 (.short 63), 1),
      (.shraImm g0 3 5 (.long 63), 0xFFFFFFFFFFFFFFFF), (.rolImm g0 3 2 (.short 63), 0x8000000000000001), (.minImm g0 3 2 (.short 0x40), 0xFFFFFFFFFFFFFFC0),
      (.maxImm g0 3 1 (.short 0x40), 0xFFFFFFFFFFFFFFF9), (.minnImm g0 3 6 (.short 0x40), 64), (.maxnImm g0 3 2 (.short 0x7F), 127)] : List (Instr × XWord)),
      (after e.1 ints).rdX 3 = e.2 := by decide
theorem test_writes_to_x0_are_discarded : (after (.add g0 0 1 2) ints).front.x = ints.front.x := by decide

/-- R160 to R163 and R167; x4 holds 0x00F0, x8 the field word of length 8 at bit 4, x9 one that is clipped at bit 63. -/
def bits : State := base [(4, 0xF0), (8, 0x804), (9, 0x103C), (5, 0x8000000000000000), (3, 0xAAAA)] [(2, 0x1FFFF000000000010), (3, 5)]
theorem test_unary_and_field_forms :
    ∀ e ∈ ([(.clz g0 3 4, 56), (.clz g0 3 0, 64), (.ctz g0 3 4, 4), (.ctz g0 3 0, 64), (.popc g0 3 4, 4), (.abs g0 3 5, 0x8000000000000000),
      (.sext g0 3 4 7, 0xFFFFFFFFFFFFFFF0), (.sext g0 3 4 63, 0xF0), (.zext g0 3 4 6, 0x70), (.bfx g0 3 4 8, 0xF), (.bfx g0 3 5 9, 0xFFFFFFFFFFFFFFF8),
      (.bfxN g0 3 5 9, 8), (.bfi g0 3 4 8, 0xAF0A), (.sel ⟨false, 3⟩ 3 4 5, 0x8000000000000000), (.sel ⟨true, 3⟩ 3 4 5, 0xF0),
      (.li g0 3 (.short 0x40), 0xFFFFFFFFFFFFFFC0), (.aget g0 3 2, 0xFFFF000000000010), (.pget g0 3, 1), (.gets g0 3 .width, 1)] : List (Instr × XWord)),
      (after e.1 bits).rdX 3 = e.2 := by decide
theorem test_predicate_forms :
    (after (.cmp g0 .lt 3 5 4) bits).rdP 3 = true ∧ (after (.cmp g0 .ltn 3 5 4) bits).rdP 3 = false ∧
    (after (.cmpImm g0 .ge 3 4 (.short 0x7F)) bits).rdP 3 = true ∧ (after (.cmpImm g0 .gen 3 4 (.short 0x7F)) bits).rdP 3 = true ∧
    (after (.cmp g0 .eq 0 4 5) bits).rdP 0 = true ∧ (after (.pxor g0 3 3 0) bits).rdP 3 = true ∧ (after (.pand g0 3 0 3) bits).rdP 3 = false ∧
    (after (.por g0 3 0 0) bits).rdP 3 = true ∧ (after (.pandn g0 3 0 3) bits).rdP 3 = true ∧ (after (.pset g0 4) bits).rdP 5 = true := by decide
theorem test_address_and_target_forms :
    (after (.aadd g0 1 3 5) bits).rdA 1 = 0xFF8000000000000005 ∧ (after (.aaddImm g0 1 3 (.short 0x7A)) bits).rdA 1 = 0xFFFFFFFFFFFFFFFFFF ∧
    (after (.aset g0 1 5) bits).rdA 1 = 0xFF8000000000000000 ∧ (after (.alea g0 1 2 4) bits).rdA 1 = 0xF0FFFF000000000010 ∧
    (after (.ptb g0 2 (.short 0x7F)) bits).rdB 2 = 127 ∧ (after (.ptbx g0 2 5) bits).rdB 2 = 0 := by decide
theorem test_branches :
    (after (.br g0 2) bits).me.redirects = [⟨3, 0⟩] ∧ (after (.br ⟨false, 3⟩ 2) bits).me.redirects = [] ∧ (after (.brl g0 3 2) bits).rdX 3 = 4 := by decide
theorem test_special_writes :
    (after (.puts g0 4 .fstat) bits).front.fstat = 0x10 ∧ (after (.puts g0 3 .fmode) bits).front.fmode = 2 ∧ (after (.puts g0 4 .bindsel) bits).front.bindsel = 0x70 := by decide

/-- R169 and R170: 1 + 2^−24 is a tie that rounds to 1; 2^127 × 2 overflows; the largest fp32 above int64 saturates. -/
def floats : State := base [(1, 0x3F800000), (2, 0x33800000), (4, 0x7F000000), (5, 0x40000000), (6, 0x7FC00000), (7, 0xBFC00000), (8, 0x1000001)] []
theorem test_float_forms :
    ∀ e ∈ ([(.fadd g0 3 1 2, 0x3F800000, 1), (.fsub g0 3 1 1, 0, 0), (.fmul g0 3 4 5, 0x7F800000, 5), (.ffma g0 3 1 5, 0x40000000, 0),
      (.fmin g0 3 1 6, 0x3F800000, 0), (.fmax g0 3 1 5, 0x40000000, 0), (.cvtf g0 3 8, 0x4B800000, 1), (.cvtfN g0 3 0, 0, 0),
      (.cvti g0 3 7, 0xFFFFFFFFFFFFFFFE, 1), (.cvtiN g0 3 7, 0, 5), (.cvti g0 3 6, 0, 16)] : List (Instr × XWord × Fl)),
      (after e.1 floats).rdX 3 = e.2.1 ∧ (after e.1 floats).front.fstat = e.2.2 := by decide
theorem test_float_compares :
    (after (.fcmp g0 .lt 3 1 5) floats).rdP 3 = true ∧ (after (.fcmp g0 .eq 3 6 6) floats).rdP 3 = false ∧ (after (.fcmp g0 .ne 3 6 6) floats).rdP 3 = true := by decide

/-- A state whose v registers hold some lanes from lane 0 up and zeros above, and whose q registers hold some bits. -/
def vecs (vs : List (VReg × List Word32)) (qs : List (QReg × Nat)) (xs : List (XReg × XWord)) (as : List (AReg × AWord)) : State :=
  let s := base xs as
  s.setMe { s.me with eng := { s.me.eng with
    v := vs.foldl (fun v e => v.set e.1.val (Vector.ofFn (fun l : Fin 512 => e.2.getD l.val 0))) s.me.eng.v
    q := qs.foldl (fun v e => v.set e.1.val (BitVec.ofNat 512 e.2)) s.me.eng.q } }

/-- The first lanes of a v register. -/
def firstLanes (s : State) (r : VReg) (n : Nat) : List Word32 := (s.rdV r).toList.take n

/-- R187, R190, R191, R193, R194: by lane; the functions from the worked examples of R142 to R145. -/
def vs : State := vecs [(1, [7, 0xFFFFFFFF, 3]), (2, [2, 1, 33]), (4, [0x3F000000, 0xC0100000]), (5, [0x40400000]), (6, [0x40800000]), (7, [1, 5]), (8, [0, 0]), (9, [0x7FF, 0xFE])]
  [(1, 5), (2, 3)] [(3, 1), (4, 0xAB)] []
theorem test_vector_arithmetic :
    ∀ e ∈ ([(.vadd g0 3 1 2 0 .i32 .fmode, [9, 0, 36]), (.vsub g0 3 1 2 1 .i32 .fmode, [5, 0, 0xFFFFFFE2]), (.vmul g0 3 1 2 0 .i8 .fmode, [14, 0xFFFFFFFF, 99]),
      (.vfma g0 3 1 2 2 0 .n16 .fmode, [16, 0, 132]), (.vmin g0 3 1 2 0 .i32, [2, 0xFFFFFFFF, 3]), (.vmax g0 3 1 2 0 .n32, [7, 0xFFFFFFFF, 33]),
      (.vabs g0 3 1 0 .i8, [7, 1, 3]), (.vneg g0 3 1 0 .i32, [0xFFFFFFF9, 1, 0xFFFFFFFD]), (.vclamp g0 3 1 2 7 0 .i32, [1, 1, 0]),
      (.vand g0 3 1 2 0, [2, 1, 1]), (.vor g0 3 1 2 0, [7, 0xFFFFFFFF, 35]), (.vxor g0 3 1 2 0, [5, 0xFFFFFFFE, 34]),
      (.vshl g0 3 1 (.reg 2) 0, [28, 0xFFFFFFFE, 0]), (.vshr g0 3 1 (.imm 1) 0, [3, 0x7FFFFFFF, 1]), (.vshra g0 3 1 (.imm 40) 0, [0, 0xFFFFFFFF, 0])] : List (Instr × List Word32)),
      firstLanes (after e.1 vs) 3 3 = e.2 := by decide +kernel
theorem test_vector_moves :
    ∀ e ∈ ([(.vsel g0 3 1 2 2 0, [7, 0xFFFFFFFF, 33]), (.vmov g0 3 1 1, [7, 0, 3]), (.vbcast g0 3 (.reg 4) 2, [0xAB, 0xAB, 0]), (.vbcast g0 3 (.imm 63) 0, [0xFFFFFFFF, 0xFFFFFFFF, 0xFFFFFFFF]),
      (.vbcast g0 3 (.long 9) 1, [9, 0, 9]), (.vperm g0 3 1 2 0, [3, 0xFFFFFFFF, 0]), (.vslide g0 3 1 3 0, [0, 7, 0xFFFFFFFF]), (.vslideDn g0 3 1 3 0, [0xFFFFFFFF, 3, 0]),
      (.viota g0 3 0, [0, 1, 2]), (.vins g0 3 4 3, [0, 0xAB, 0]), (.vcvt g0 3 9 0 .n16 .n8 .fmode false, [255, 254, 0]),
      (.vrcp g0 3 5 0, [0x3EAAAAAB, 0x7F800000, 0x7F800000]), (.vrsq g0 3 6 1, [0x3F000000, 0, 0x7F800000]), (.vexp2 g0 3 4 0, [0x3FB50000, 0x3E574800, 0x3F800000]),
      (.vlog2 g0 3 5 0, [0x3FCAE000, 0xFF800000, 0xFF800000]), (.vrand g0 3 2 10 1 .n32 false, [0xf3a0dbb1, 0, 0x34d50578])] : List (Instr × List Word32)),
      firstLanes (after e.1 (vecs [(1, [7, 0xFFFFFFFF, 3]), (2, [2, 1, 33]), (4, [0x3F000000, 0xC0100000]), (5, [0x40400000]), (6, [0x40800000]), (9, [0x7FF, 0xFE])]
        [(1, 5), (2, 3)] [(3, 1), (4, 0xAB)] [])) 3 3 = e.2 := by decide +kernel

/-- The worked example of R195 and R196. -/
def sums : State := vecs [(6, [0x3F800000, 0, 0x33800000, 0x33800000])] [(2, 15)] [] []
theorem test_vred_example :
    firstLanes (after (.vred g0 .add 7 6 2 .f32 .fmode) sums) 7 5 = [0x3F800001, 0x3F800001, 0x3F800001, 0x3F800001, 0] := by decide +kernel
theorem test_vscan_example :
    (after (.vscan g0 .add 8 6 2 .f32 .fmode) sums).front.fstat = 1 := by decide +kernel

/-- The worked MX block of R128: 3.0, −0.7, 1.26 and zeros; and back (R201). -/
def mx : State := vecs [(1, [0x40400000, 0xBF333333, 0x3FA147AE]), (4, [96, 0xEA, 0x28]), (5, [0x80, 0x80, 0x80])] [] [] []
theorem test_vqmx_example :
    firstLanes (after (.vqmx g0 2 1 3 .i8 .rne false) mx) 2 4 = [96, 0xFFFFFFEA, 0x28, 0] ∧
    firstLanes (after (.vqmx g0 2 1 3 .i8 .rne false) mx) 3 2 = [0x80, 0x80] := by decide +kernel
theorem test_vdqmx_example : firstLanes (after (.vdqmx g0 2 4 5 0 .i8 .rne) mx) 2 3 = [0x40400000, 0xBF300000, 0x3FA00000] := by decide +kernel

theorem test_mask_logic : (after (.qxor g0 3 1 2 1) vs).rdQ 3 = 4 ∧ (after (.qnot g0 0 2 0) vs).rdQ 0 = BitVec.allOnes 512 := by decide +kernel
theorem test_votes :
    (after (.vany g0 3 1 2) vs).rdP 3 = true ∧ (after (.vall g0 3 1 2) vs).rdP 3 = false ∧ (after (.vfirst g0 3 1 1) vs).rdX 3 = 0 ∧
    (after (.vfirst g0 3 3 0) vs).rdX 3 = 128 ∧ (after (.vpopc g0 3 1 0) vs).rdX 3 = 2 ∧ (after (.vextr g0 3 1 3) vs).rdX 3 = 0xFFFFFFFF ∧
    (after (.vextr g0 3 1 4) vs).rdX 3 = 0 := by decide +kernel
theorem test_vrand_advances : firstLanes (after (.vrand g0 3 2 8 1 .n32 true) (vecs [(2, [0xFFFFFFFF])] [(1, 1)] [] [])) 2 1 = [0] ∧
    firstLanes (after (.vrand g0 3 2 8 1 .n32 true) (vecs [(2, [0xFFFFFFFF])] [(1, 1)] [] [])) 3 1 ≠ [0] := by decide +kernel

/-- The worked candidates of R228 to R232. -/
def cands : State := vecs [(6, [0x40400000, 0x3F800000, 0x40400000, 0x3F000000, 0x40000000] ++ List.replicate 123 0x7FC00000), (7, [7, 2, 4, 9, 1])] []
  [(4, 0x3F4CCCCD), (6, 0x33F000000)] []
/-- Its file, written out. -/
def filed : State :=
  let s := cands
  s.setMe { s.me with eng := { s.me.eng with qcnt := 5, k := Vector.ofFn (fun i : Fin 64 =>
    [(⟨0x40400000, 4⟩ : KEnt), ⟨0x40400000, 7⟩, ⟨0x40000000, 1⟩, ⟨0x3F800000, 2⟩, ⟨0x3F000000, 9⟩].getD i.val KEnt.empty) } }
theorem test_cmrg_example :
    ((after (.cmrg g0 6 7) cands).eng.k.toList.take 6).map (fun e => (e.val.toNat, e.idx.toNat)) =
      [(0x40400000, 4), (0x40400000, 7), (0x40000000, 1), (0x3F800000, 2), (0x3F000000, 9), (0xFF800000, 0xFFFFFFFF)] := by decide +kernel
theorem test_ctopp_and_cdraw_examples : (after (.ctopp g0 3 4) filed).rdX 3 = 3 ∧ (after (.cdraw g0 5 6) filed).rdX 5 = 0x100000007 := by decide +kernel
theorem test_file_reads_and_clear :
    (after (.cget g0 false 3 2) filed).rdX 3 = 0x40000000 ∧ (after (.cget g0 true 3 63) filed).rdX 3 = 0xFFFFFFFF ∧
    (after (.cclr g0) filed).eng.qcnt = 0 ∧ (after (.cdraw g0 3 6) (after (.cclr g0) filed)).rdX 3 = 0x40FFFFFFFF := by decide +kernel
theorem test_sortb :
    firstLanes (after (.sortb g0 false 2 1 7) (vecs [(1, [0x3F800000, 0x40000000]), (7, [5, 6])] [] [] [])) 2 3 = [0x40000000, 0x3F800000, 0] := by decide +kernel

/-! Memory: a1 is the own scratchpad window, a2 its bank 1, a3 an HBM page, a4 the accumulator window, a5 the first bank of the next core. -/

def mem (xs : List (XReg × XWord)) : State :=
  base xs [(1, 0xFFFF00000000000000), (2, 0xFFFF00000000010000), (3, 0x10000), (4, 0xFFFF10000000000000), (5, 0xFFFF01000000200000)]

theorem test_stores_are_little_endian :
    (after (.st g0 .w 1 1 (.short 4)) (mem [(1, 0x8899AABBCCDDEEFF)])).mem = [(bankBase + 4, 0xFF), (bankBase + 5, 0xEE), (bankBase + 6, 0xDD), (bankBase + 7, 0xCC)] := by decide
theorem test_misaligned_store_traps :
    (after (.st g0 .d 1 1 (.short 4)) (mem [(1, 1)])).me.trap.map (·.code) = some 6 ∧ (after (.st g0 .d 1 1 (.short 4)) (mem [(1, 1)])).mem = [] := by decide
theorem test_a_bank_without_owner_is_out_of_reach :
    (after (.st g0 .d 1 1 (.long 0x30000)) (mem [(1, 1)])).me.trap.map (·.code) = some 5 := by decide
theorem test_loads_land_signed_and_natural :
    ((after (.ld g0 .h 3 1 (.short 2)) (after (.st g0 .h 1 1 (.short 0)) (mem [(1, 0x80F1)]))).me.landings.map (fun l => (l.due, l.data))) =
      [(2, some (.x 0xFFFFFFFFFFFF80F1))] ∧
    ((after (.ldN g0 .h 3 1 (.short 2)) (after (.st g0 .h 1 1 (.short 0)) (mem [(1, 0x80F1)]))).me.landings.map (·.data)) = [some (.x 0x80F1)] := by decide
theorem test_store_through_a_leaf : (after (.st g0 .b 1 3 (.short 5)) (mem [(1, 0xAB)])).mem = [(0x20005, 0xAB)] := by decide
theorem test_stv_fe_fills_its_granules :
    (after (.stvFe g0 1 1 (.short 0)) (mem [])).full.mem 281474976710656 = true ∧ (after (.stvFe g0 1 1 (.short 0)) (mem [])).full.mem 281474976710688 = false := by
  decide +kernel
theorem test_setfe_and_clrfe :
    (after (.setfe g0 1 1) (mem [(1, 32)])).full.mem 281474976710657 = true ∧ (after (.setfe g0 1 1) (mem [(1, 32)])).full.mem 281474976710658 = false ∧
    (after (.clrfe g0 1 1) (after (.setfe g0 1 1) (mem [(1, 32)]))).full = [] := by decide
theorem test_atomics :
    (after (.red g0 .add false 1 1 none) (after (.st g0 .w 1 1 (.short 0)) (mem [(1, 0x80000001)]))).mem.readN bankBase 4 = [2, 0, 0, 0] ∧
    (after (.atom g0 .minn true 1 1 (.short 1)) (mem [(1, 5)])).me.landings.map (·.data) = [some (.x 0)] ∧
    (after (.cas g0 true 2 1 (.short 1)) (mem [(2, 0), (3, 9)])).mem.readN bankBase 2 = [9, 0] ∧
    (after (.cas g0 true 2 1 (.short 1)) (mem [(2, 1), (3, 9)])).mem = [] := by decide
theorem test_copy_starts_and_arms_its_token :
    (after (.copy g0 (some 3) 2 1 (.reg 1)) (mem [(1, 64)])).copies.map (fun c => (c.src.toNat, c.dst.toNat, c.len)) =
      [(0xFFFF00000000000000, 0xFFFF00000000010000, 64)] ∧
    (after (.copy g0 (some 3) 2 1 (.reg 1)) (mem [(1, 64)])).me.tokens[3] = ⟨.armed, 0⟩ ∧
    (after (.copy g0 (some 3) 2 1 (.reg 0)) (mem [])).me.tokens[3] = ⟨.done, 0⟩ := by decide
theorem test_copy_completes :
    (after (.copyComplete 0) (after (.copy g0 (some 3) 2 1 (.long 1 0 false)) (after (.st g0 .b 1 1 (.short 0)) (mem [(1, 0x5A)])))).mem =
      [(bankBase, 0x5A), (bankBase + 65536, 0x5A)] := by decide
theorem test_bankmode_records_its_change :
    ((after (.bankmode g0 1) (mem [(1, 0x201)])).bank 0 1).chg.map (fun c => (c.mode, c.owner)) = some (2, some 0) := by decide
/-- The worked MMA of R216, one row of it: a(0, k) = 1, 2, 3 and column 0 of B = 1, 0, 2 give 7. -/
theorem test_mma_example :
    BitVec.ofNat 32 (leNat ((after (.mma g0 2 1 2 10 11 12 .i8)
      { mem [(10, 1), (11, 1), (12, 3)] with mem := [(bankBase, 1), (bankBase + 1, 2), (bankBase + 2, 3), (bankBase + 65536, 1), (bankBase + 65538, 2)] }).mem.readN
        (accAddr 0 2 0 0) 4)) = 7 := by decide +kernel
theorem test_empty_mma_changes_nothing : (after (.mma g0 2 1 2 10 11 12 .i8) (mem [(10, 1), (11, 1)])).mem = [] := by decide
theorem test_accwr_and_accrd :
    firstLanes (after (.accrd g0 3 1 2) (after (.accwr g0 1 1 2) (vecs [(1, [7, 8])] [] [(2, 63)] []))) 3 2 = [7, 8] := by decide +kernel

/-! Queues, counters, exceptions. -/

/-- The strand's launch: one member on strand 0 of core 0, running image 5. -/
def launch7 : Launch :=
  { id := 7, hc := 0, stream := 1, seq := 9, cring := 0, cls := 1, width := 1, ncl := 0, single := true, image := 5, csched := false
    regions := [], starts := [0], st := .running, edges := [], gang := 1
    members := [{ core := 0, strand := 0, exited := false, dep := none, record := [], levels := Vector.replicate 6 Level.reset, schedNext := 0 }]
    bars := Vector.replicate 16 (0, 0), pushes := [], areas := [], everSusp := false, replays := 0, side := false, status := none
    waited := false, notify := false, thermal := false, markAt := none, hostVer := false, wdog := 0, owed := none, jslot := 0 }

/-- Its image: one gang core whose index stream has eight bundles of entry 0, a segment that ends at a suspension point, one push queue to itself, one bucket. -/
def image5 : Image :=
  { handle := 5, hc := 0, va := 0, width := 1, clgang := false, depth := 0, starts := [0], latency := []
    cores := [{ index := List.replicate 8 0, dict := [0], spad := [], sched := []
                segs := [{ start := 0, endseg := 0, icount := 0, sign := 0, chk := false, safe := false, susp := true, livex := 0, livea := 0, livep := 0
                           liveq := 0, liveb := 0, livev := 0, livek := 0 }], tn := 4 }]
    footprint := [], buckets := some [⟨true, 8, 8, 3⟩], push := [some { prod := 0, cons := 0, logd := 4, bank := 0, goff := 0 }], data := none, keySlot := none }

/-- The strand of launch 7, with the memory windows of `mem`. -/
def run (xs : List (XReg × XWord)) : State :=
  let s := mem xs
  { s.setMe { s.me with launch := 7, image := 5, member := 0 } with launches := [launch7], images := [image5] }

theorem test_counter_forms :
    (after (.stage g0 1) (run [(1, 70)])).front.scnt = 70 ∧ (after (.seqlen g0 1) (run [(1, 70)])).front.seqlen = 70 ∧
    (after (.cntrd g0 3 1) (run [(1, 0x30)])).rdX 3 = 0 ∧ (after (.tokclr g0 1) (run [(1, 255)])).me.tokens[0] = ⟨.clear, 0⟩ ∧
    (after (.lnscfg g0 1 2) (run [(1, 2), (2, 5)])).me.levels[2].ctl = 5 ∧ (after (.lnsbrk g0) (run [])).me.levels = (run []).me.levels ∧
    (after (.cntclr g0 1) (run [(1, 0x40)])).me.perf.issued = 0 := by decide
theorem test_lnsrun_skips_an_empty_loop :
    (after (.lnsrun g0 1) (run [(1, 2)])).launches.map (·.status) = [some (.failed 0x10)] ∧
    (after (.lnsrun g0 1) (after (.lnscfg g0 1 2) (run [(1, 2), (2, 3)]))).me.pc = 4 ∧
    (after (.lnsrun g0 1) (after (.lnscfg g0 1 2) (run [(1, 2), (2, 0x500000000003)]))).me.levels[2].trip = 5 := by decide
theorem test_bar_counts_its_arrivals :
    (after (.bar g0 1) (run [(1, 3)])).launches.map (fun l => l.bars[3]) = [(0, 1)] ∧ (after (.bar g0 1) (run [(1, 3)])).me.barWait = some (3, 0) := by decide +kernel
theorem test_trap_and_resume :
    (after (.trap g0 (.short 17)) (run [])).me.trap.map (fun t => (t.code, t.aux)) = some (8, 17) ∧ (after (.trap g0 (.short 17)) (run [])).me.holds = 1 ∧
    (after (.resume g0 1) (run [(1, 0x100)])).me.holds = 0 := by decide
theorem test_evpost_counts_a_lost_record : ((after (.evpost g0 1 2) (run [])).hctx 0).lost = 1 := by decide
theorem test_push_and_qstat :
    ((after (.push g0 1 1 2) (run [(1, 2)])).pushes.map (fun p => (p.queue, p.slot))) = [(0, 0), (0, 1)] ∧
    (after (.qstat g0 3 2) (run [])).rdX 3 = 0x40010 ∧ (after (.pop g0 3 2) (run [])).rdX 3 = 0 := by decide
theorem test_push_delivery :
    ((after (.pushDelivery 0) (after (.push g0 1 1 2) (run [(1, 1)]))).launches.map (fun l => (l.pushes.getD 0 PushQ.reset).tail)) = [1] := by decide
theorem test_exit_ends_the_launch : (after (.exit g0) (run [])).launches.map (·.status) = [some .done] ∧ (after (.exit g0) (run [])).me.life = .free := by decide +kernel
theorem test_table_forms_need_an_arena : (after (.kvlook g0 3 1 2) (run [])).launches.map (·.status) = [some (.failed 0x10)] := by decide
theorem test_obsel_takes_the_bucket : (after (.obsel g0 3) (run [])).rdB 3 = 3 := by decide
theorem test_tlbinv_drops_the_page : ((after (.tlbinvPage g0 3) (run [])).cluster 0).tlb = [] := by decide
theorem test_fqpop_of_no_queue : (after (.fqpop g0 3 1) (run [])).rdX 3 = 0 := by decide
theorem test_fences_leave_a_settled_strand : (after (.fenceFull g0 .system) (run [])).ctx.res = .done ∧ (after (.drain g0 .core) (run [])).ctx.res = .done := by decide

/-! Events. -/

theorem test_bringup_and_clock :
    (after .stacksTrained State.reset).plat.bringup.hbm = true ∧ (after (.clockStep false) State.reset).plat.thermal.clock = 12 ∧
    (after .powerLimitExceeded State.reset).plat.thermal.clock = 11 ∧ (after .thermalLevelEnter State.reset).plat.thermal.level = 1 := by decide
theorem test_shutdown_stops_every_step :
    (match step (after .criticalShutdown State.reset) with | .fault .poweredOff => true | _ => false) = true ∧
    (after .coldReset (after .criticalShutdown State.reset)).plat.poweredOff = false := by decide
theorem test_hccreate :
    ((after .hccreate (after (.hostRegisterWrite 0xFF8 1) (after (.hostRegisterWrite 0 0x0301) State.reset))).hctx 3).st = .live := by decide
theorem test_ecc_errors :
    ((after (.sramEccError 1 2 3 false) State.reset).cluster 1).seccnt = 1 ∧ (after (.sramEccError 1 2 3 true) State.reset).poison ≠ [] ∧
    (after (.hbmEccFailure 9 false) State.reset).linePoison.mem 9 = true := by decide
/-- A step after withFetchWord runs the word's instruction: ADD x5, x5, −3 (R156). -/
theorem test_step_runs_the_fetched_word :
    (match step (State.reset.withFetchWord 32 0x4100A2FD) with | .next t => (t.strand 0).front.x[5] | _ => 0) = 0xFFFFFFFFFFFFFFFD := by decide +kernel

/-! ### Witnesses: states and operands that meet the hypotheses of the statements -/

theorem shows_bank {s : State} {va n addr : Nat} {bs : List Byte} (h : spotOf s.ctx.core va = .scr addr) (h1 : s.me.withheld = []) (h2 : bs.length = n)
    (h3 : s.anyPoison addr n = false) (h4 : ∀ i, i < n → bs[i]? = some (s.mem.read (addr + i))) : shows s va n bs := by
  unfold shows; rw [h]; exact ⟨h1, h2, h3, h4⟩
theorem shows_tiles {s : State} {va n o : Nat} {bs : List Byte} (h : spotOf s.ctx.core va = .acc o) (h1 : s.me.withheld = []) (h2 : bs.length = n)
    (h4 : ∀ i, i < n → bs[i]? = some (s.mem.read (State.accByte s.ctx.core s.me.tb s.g (o + i)))) : shows s va n bs := by
  unfold shows; rw [h]; exact ⟨h1, h2, h4⟩
theorem shows_page {s : State} {va n : Nat} {bs : List Byte} {e : TlbEnt} (h : spotOf s.ctx.core va = .trans) (h1 : s.me.withheld = []) (h2 : bs.length = n)
    (hq : quiet s) (hp : va % 65536 + n ≤ 65536) (he : s.tlbHit (State.clusterOf s.ctx.core) s.hcid va = some e) (hb : State.leafPa e va + n ≤ Config.hbmBytes)
    (h4 : ∀ i, i < n → bs[i]? = some (s.mem.read (State.leafPa e va + i))) : shows s va n bs := by
  unfold shows; rw [h]; exact ⟨h1, h2, hq, hp, e, he, hb, h4⟩

theorem witness_integer_forms : ∀ i ∈ ([.add g0 3 1 2, .div g0 3 1 0, .remnImm g0 0 1 (.short 10), .rolImm g0 3 2 (.short 63)] : List Instr),
    i.guard? = some g0 ∧ (intResult ints i).isSome = true ∧ performs i g0 ints := by unfold performs; decide
theorem witness_move_forms : ∀ i ∈ ([.clz g0 3 0, .bfi g0 3 4 8, .sel ⟨false, 3⟩ 3 4 5, .gets g0 3 .bindent, .li g0 0 (.short 1)] : List Instr),
    i.guard?.isSome = true ∧ (moveResult bits i).isSome = true ∧ performs i (i.guard?.getD g0) bits := by unfold performs; decide
theorem witness_float_forms : ∀ i ∈ ([.fadd g0 3 1 2, .ffma g0 3 1 5, .fmin g0 3 1 6, .cvtf g0 3 8, .cvtiN g0 3 7] : List Instr),
    i.guard? = some g0 ∧ (floatResult floats i).isSome = true ∧ performs i g0 floats := by unfold performs; decide
theorem witness_predicate_forms : ∀ i ∈ ([.cmp g0 .lt 3 5 4, .cmpImm g0 .gen 0 4 (.short 0x7F), .fcmp g0 .ge 3 4 5, .pandn g0 3 0 3] : List Instr),
    i.guard? = some g0 ∧ (predResult bits i).isSome = true ∧ performs i g0 bits := by unfold performs; decide
theorem witness_target_and_address_forms : ∀ i ∈ ([.ptb g0 2 (.short 0x7F), .ptbx g0 2 5, .aadd g0 1 3 5, .aset g0 1 5, .alea g0 1 2 4, .pset g0 4, .puts g0 4 .bindsel] : List Instr),
    i.guard? = some g0 ∧ (otherResult bits i).isSome = true ∧ performs i g0 bits := by unfold performs; decide
theorem witness_branches : ∀ i ∈ ([.br g0 2, .brl g0 3 2] : List Instr),
    i.guard? = some g0 ∧ (branchResult (run []) i).isSome = true ∧ performs i g0 (run []) := by unfold performs; decide
theorem witness_lanewise_forms : ∀ i ∈ ([.vadd g0 3 1 2 1 .f32 .rup, .vfma g0 3 1 2 4 0 .bf16 .fmode, .vsel g0 3 1 2 2 0, .vslideDn g0 3 1 3 0, .vcvt g0 3 1 0 .f32 .e4m3 .rne true,
      .vdqmx g0 3 1 2 0 .i8 .rne] : List Instr),
    i.guard? = some g0 ∧ (laneResult vs i).isSome = true ∧ performs i g0 vs := by unfold performs; decide
theorem witness_whole_register_forms : ∀ i ∈ ([.vred g0 .add 7 6 2 .f32 .fmode, .vscan g0 .min 8 6 2 .n8 .fmode, .vqmx g0 2 1 3 .i8 .rne false, .vrand g0 4 2 8 1 .n32 true] : List Instr),
    i.guard? = some g0 ∧ (wholeResult vs i).isSome = true ∧ performs i g0 vs := by unfold performs; decide
theorem witness_mask_forms : ∀ i ∈ ([.vcmp g0 .lt 3 1 2 0 .i32, .qand g0 3 1 2 0, .qnot g0 0 2 0] : List Instr),
    i.guard? = some g0 ∧ (maskResult vs i).isSome = true ∧ performs i g0 vs := by unfold performs; decide
theorem witness_votes_and_file_reads : ∀ i ∈ ([.vany g0 3 1 2, .vfirst g0 0 3 0, .vextr g0 3 1 3, .vins g0 3 4 3, .cget g0 true 3 63, .cclr g0, .ctopp g0 3 4, .cdraw g0 3 4] : List Instr),
    i.guard? = some g0 ∧ (voteResult vs i).isSome = true ∧ performs i g0 vs := by unfold performs; decide
theorem witness_sorting_forms : performs (.sortb g0 true 2 1 7) g0 vs ∧ performs (.merge g0 false 2 4) g0 vs ∧ performs (.cmrg g0 6 7) g0 cands := by
  unfold performs; decide

theorem witness_loads :
    (∃ d dist v, loadForm (mem []) (.ld g0 .d 3 1 (.short 2)) = some (d, dist, 0xFFFF00000000000000, 8, v)) ∧ performs (.ld g0 .d 3 1 (.short 2)) g0 (mem []) ∧
      shows (mem []) 0xFFFF00000000000000 8 (List.replicate 8 0) ∧
    (∃ d dist v, loadForm (mem []) (.ldv g0 3 4 (.short 2)) = some (d, dist, 0xFFFF10000000000000, 512, v)) ∧ performs (.ldv g0 3 4 (.short 2)) g0 (mem []) ∧
      shows (mem []) 0xFFFF10000000000000 512 (List.replicate 512 0) ∧
    (∃ d dist v, loadForm (mem []) (.ldN g0 .w 3 3 (.short 2)) = some (d, dist, 0x10000, 4, v)) ∧ performs (.ldN g0 .w 3 3 (.short 2)) g0 (mem []) ∧
      shows (mem []) 0x10000 4 (List.replicate 4 0) := by
  refine ⟨⟨_, _, _, rfl⟩, by unfold performs; decide, shows_bank (addr := bankBase) rfl rfl rfl rfl (by decide), ⟨_, _, _, rfl⟩, by unfold performs; decide,
    shows_tiles (o := 0) rfl rfl List.length_replicate (by decide +kernel), ⟨_, _, _, rfl⟩, by unfold performs; decide,
    shows_page (e := ⟨0, 1, 0x20000, 0, true, false⟩) rfl rfl rfl (by unfold quiet; decide) (by decide) (by decide) (by decide) (by decide)⟩

/-- A protected segment of the strand, and a bank of the next core that its context owns. -/
def guarded (xs : List (XReg × XWord)) : State :=
  let s := mem xs
  { s.setMe { s.me with shadow := some { front := s.me.front, q := s.me.eng.q, k := s.me.eng.k, qcnt := 0, tokens := s.me.tokens, levels := s.me.levels
                                         redirects := [], pushes := [], firstNum := 0, count := 0 } } with
    clusters := [(0, { Cluster.reset with banks := [(0, owned), (32, owned)] })] }
/-- Home requests wait for their event. -/
def deferred (s : State) : State := { s with ctx := { s.ctx with defer := true } }

theorem witness_stores_to_a_bank :
    (storeForm (mem []) (.stvFe g0 1 1 (.short 0))).map (fun e => (e.1, e.2.2)) = some (0xFFFF00000000000000, some true) ∧
      performs (.stvFe g0 1 1 (.short 0)) g0 (mem []) ∧ spotOf (mem []).ctx.core 0xFFFF00000000000000 = .scr bankBase ∧
      (mem []).bankHeld bankBase 512 = false ∧ (mem []).ownBank bankBase = true := by
  unfold performs; decide +kernel
theorem witness_withheld_stores :
    storeForm (guarded [(1, 5)]) (.st g0 .b 1 5 (.short 0)) = some (0xFFFF01000000200000, [5], none) ∧
      performs (.st g0 .b 1 5 (.short 0)) g0 (guarded [(1, 5)]) ∧ spotOf 0 0xFFFF01000000200000 = .scr (bankBase + 2097152) ∧
      (guarded []).bankHeld (bankBase + 2097152) 1 = false ∧ (guarded []).ownBank (bankBase + 2097152) = false ∧ (guarded []).withholds = true ∧
      (guarded []).withheldCount 0 + 1 ≤ 2048 := by
  unfold performs; decide
theorem witness_stores_through_a_leaf :
    storeForm (deferred (mem [(1, 5)])) (.st g0 .b 1 3 (.short 9)) = some (0x10009, [5], none) ∧
      performs (.st g0 .b 1 3 (.short 9)) g0 (deferred (mem [(1, 5)])) ∧ spotOf 0 0x10009 = .trans ∧
      (deferred (mem [(1, 5)])).tlbHit 0 (deferred (mem [(1, 5)])).hcid 0x10009 = some ⟨0, 1, 0x20000, 0, true, false⟩ ∧
      quiet (deferred (mem [(1, 5)])) ∧ (deferred (mem [(1, 5)])).me.withheld = [] ∧ (deferred (mem [(1, 5)])).withholds = false ∧ (deferred (mem [(1, 5)])).ctx.defer = true := by
  unfold performs quiet; decide

/-- Every index lane is 0 or small, so the gathered words lie in the own bank. -/
theorem witness_gathers_and_scatters :
    performs (.ldvg g0 1 1 (.short 3)) g0 (mem []) ∧ (mem []).me.withheld = [] ∧
      (∀ n, n < min 512 (mem []).lanes → ((wordHere (mem []) (named (mem []) 0xFFFF00000000000000 1 n)).map (·.2)) = some 0) ∧
    performs (.stvs g0 1 1 2) g0 (mem []) ∧
      (∀ n, n < min 512 (mem []).lanes → spotOf 0 (named (mem []) 0xFFFF00000000000000 2 n) = .scr bankBase ∧ (mem []).ownBank bankBase = true ∧
        (mem []).bankHeld bankBase 4 = false) := by
  unfold performs; decide +kernel

/-- The granule at the own window is full. -/
def filled : State := { mem [(1, 16)] with full := [281474976710656] }
theorem witness_full_empty_forms :
    performs (.ldvFeTake g0 true 3 1 (.short 2)) g0 filled ∧ performs (.ldvFeKeep g0 true 3 1 (.short 2)) g0 (mem []) ∧
      spotOf 0 0xFFFF00000000000000 = .scr bankBase ∧ shows filled 0xFFFF00000000000000 16 (List.replicate 16 0) ∧ 0 < filled.lanes ∧
      (∀ k, bankBase / 16 ≤ k → 16 * k < bankBase + 16 → filled.full.mem k = true) ∧
      (∃ k, bankBase / 16 ≤ k ∧ 16 * k < bankBase + 16 ∧ (mem []).full.mem k = false) ∧
    performs (.setfe g0 1 1) g0 filled ∧ performs (.clrfe g0 1 1) g0 filled ∧ filled.bankHeld bankBase 16 = false ∧ filled.ownBank bankBase = true := by
  refine ⟨by unfold performs; decide, by unfold performs; decide, rfl, shows_bank (addr := bankBase) rfl rfl rfl rfl (by decide), by decide, ?_,
    ⟨281474976710656, by decide, by decide, by decide⟩, by unfold performs; decide, by unfold performs; decide, by decide, by decide⟩
  intro k h1 h2
  have : k = 281474976710656 := by unfold bankBase at *; omega
  subst this; decide

/-- v3 has a park in bank 1, v4 none. -/
def parked : State :=
  let s := mem []
  s.setMe { s.me with parks := [(3, ⟨1, 0, 0, 0, Vector.replicate 512 7⟩)] }
/-- A cluster with one cache bank. -/
def caching (xs : List (XReg × XWord)) : State :=
  let s := deferred (mem xs)
  { s with clusters := [(0, { Cluster.reset with banks := [(0, owned), (5, { owned with mode := 1, owner := none })], tlb := [⟨0, 1, 0x20000, 0, true, false⟩] })] }
theorem witness_prefetches :
    performs (.pref g0 1 (.short 0)) g0 (mem []) ∧ spotOf 0 ((mem []).ea 1 0) ≠ .trans ∧
      performs (.pref g0 3 (.short 0)) g0 (caching []) ∧ spotOf 0 ((caching []).ea 3 0) = .trans ∧
      (caching []).leafOf 0 0 ((caching []).ea 3 0) = some ⟨0, 1, 0x20000, 0, true, false⟩ ∧ (caching []).cline 0 0x800 = none ∧
      (caching []).homeFree 0x800 = true ∧ (caching []).takeWay 0 0x800 = some (5, caching []) ∧
      performs (.pref g0 3 (.short 0)) g0 (mem []) ∧ (mem []).takeWay 0 0x800 = none := by
  unfold performs
  exact ⟨by decide, by decide, by decide, by decide, by decide, by decide, by decide, rfl, by decide, rfl⟩
theorem witness_spill_fill_and_prefetch :
    performs (.spill g0 3) g0 parked ∧ (parked.me.parks.get? 3).map (·.loc) = some 1 ∧ performs (.fill g0 3 (.short 1)) g0 parked ∧
      performs (.fill g0 4 (.short 1)) g0 parked ∧ (parked.me.parks.get? 4).isNone = true ∧ performs (.pref g0 3 (.short 0)) g0 parked := by
  unfold performs; decide

theorem witness_atomics :
    (∃ r f, atomicForm (mem [(2, 1)]) (.cas g0 true 2 1 (.short 1)) = some (0xFFFF00000000000000, 8, some r, f)) ∧ performs (.cas g0 true 2 1 (.short 1)) g0 (mem [(2, 1)]) ∧
      (∃ f, atomicForm (mem []) (.red g0 .max false 2 1 none) = some (0xFFFF00000000000000, 4, none, f)) ∧ performs (.red g0 .max false 2 1 none) g0 (mem []) ∧
      spotOf 0 0xFFFF00000000000000 = .scr bankBase ∧ (mem []).bankHeld bankBase 8 = false ∧ (mem []).anyPoison bankBase 8 = false ∧
    (∃ r f, atomicForm (deferred (mem [])) (.atom g0 .swap true 2 3 (.short 1)) = some (0x10000, 8, some r, f)) ∧
      (∃ k, atomicKind (deferred (mem [])) (.atom g0 .swap true 2 3 (.short 1)) = some k) ∧ performs (.atom g0 .swap true 2 3 (.short 1)) g0 (deferred (mem [])) ∧
      spotOf 0 0x10000 = .trans ∧ (deferred (mem [])).tlbHit 0 0 0x10000 = some ⟨0, 1, 0x20000, 0, true, false⟩ ∧ quiet (deferred (mem [])) ∧
      (deferred (mem [])).ctx.defer = true := by
  refine ⟨⟨_, _, rfl⟩, by unfold performs; decide, ⟨_, rfl⟩, by unfold performs; decide, rfl, by decide, by decide, ⟨_, _, rfl⟩, ⟨_, rfl⟩, by unfold performs; decide,
    rfl, by decide, by unfold quiet; decide, rfl⟩

/-- The strand holds a line of that cluster. -/
def holding : State :=
  let s := caching []
  s.setMe { s.me with held := [⟨0x800, 0, List.replicate 64 0, some (List.replicate 64 0), 0, false⟩] }
theorem witness_check_outs_and_check_ins :
    spotOf 0 0x10000 = .trans ∧ (caching [(1, 1)]).tlbHit 0 0 0x10000 = some ⟨0, 1, 0x20000, 0, true, false⟩ ∧ (caching [(1, 1)]).ctx.defer = true ∧
      performs (.chkout g0 1 3) g0 (caching [(1, 1)]) ∧ ((caching [(1, 1)]).takeWay 0 0x800).isSome = true ∧ (caching [(1, 1)]).me.held = [] ∧ (caching [(1, 1)]).awaitsLine 0x800 = false ∧
      performs (.chkin g0 3) g0 holding ∧ holding.me.held.map (fun h => (h.line, h.twin.isSome)) = [(0x800, true)] ∧ holding.ctx.defer = true := by
  unfold performs; decide

theorem witness_copies : ∀ i ∈ ([.copy g0 (some 3) 2 1 (.reg 1), .copy g0 (some 3) 2 1 (.reg 0), .copyfe g0 none 2 1 1] : List Instr),
    i.guard? = some g0 ∧ ((copyForm (mem [(1, 64)]) i).map (fun c => (c.1, copyBytes c.2)) =
      match i with | .copy _ _ _ _ (.reg 0) => some (some 3, 0) | .copy .. => some (some 3, 64) | _ => some (none, 64)) ∧
    performs i g0 (mem [(1, 64)]) := by unfold performs; decide +kernel
theorem witness_strided_and_gathered_copies : ∀ i ∈ ([.copys g0 none 2 1 1, .copyg g0 (some 1) 2 3 1] : List Instr),
    i.guard? = some g0 ∧ (copyForm (mem [(1, 0x4000400100040)]) i).isSome = true ∧ performs i g0 (mem [(1, 0x4000400100040)]) := by unfold performs; decide +kernel

theorem shows_zeros (xs : List (XReg × XWord)) (a n i : Nat) (h : i < n) : (List.replicate n (0 : Byte))[i]? = some ((mem xs).mem.read (a + i)) := by
  rw [List.getElem?_replicate, if_pos h]; rfl

/-- A GEMV descriptor at a1: weights at the HBM page, scales behind them, one output over 32 inputs; inputs and outputs in the own banks. -/
def gemvDesc : Nat := 0x10000 + 0x10100 * 2 ^ 80 + 1 * 2 ^ 160 + 32 * 2 ^ 192
def multiplying : State := { mem [] with mem := (mem []).mem.write bankBase (leBytes 32 gemvDesc) }
theorem witness_gemv :
    performs (.gemv g0 none 1 1 2) g0 multiplying ∧ spotOf 0 (multiplying.ea 1 0) = .scr bankBase ∧ multiplying.ea 1 0 % 32 = 0 ∧
      shows multiplying (multiplying.ea 1 0) 32 (leBytes 32 gemvDesc) ∧
      multiplying.gemvOk (leNat (leBytes 32 gemvDesc))
        { id := 0, core := 0, strand := 0, hc := 0, launch := 0, num := 0, cnt := bundleCount multiplying, tok := none
          desc := BitVec.ofNat 72 (multiplying.ea 1 0), dst := multiplying.rdA 1, input := multiplying.rdA 2, wva := 0x10000, sva := 0x10100
          n := 1, k := 32, word := 0, bundle := 0, faulted := false, skipped := false, out := none } = true ∧
      multiplying.gemvs.all (fun x => x.id != multiplying.nextId) = true ∧ multiplying.replies = [] := by
  refine ⟨by unfold performs; decide, by decide, by decide, shows_bank (addr := bankBase) (by decide) rfl (by decide) (by decide) (by decide +kernel), by decide, rfl, rfl⟩

theorem witness_bank_mode :
    performs (.bankmode g0 1) g0 (mem [(1, 0x201)]) ∧ ((mem []).bank 0 1).chg = none ∧ (mem []).bankTaken 0 1 = false := by unfold performs; decide

/-- A cluster whose cache holds one line of HBM and one of class 3 with a dirty byte. -/
def cached (xs : List (XReg × XWord)) : State :=
  { mem xs with clusters := [(0, { Cluster.reset with banks := [(0, owned), (5, { owned with mode := 1, owner := none })], tlb := [⟨0, 1, 0x20000, 3, true, false⟩]
                                                      lines := [(0x800, ⟨List.replicate 64 7, 2, 3, 0, 0, 64, false⟩)] })] }
theorem witness_flush_and_inval :
    performs (.flush g0 1 3) g0 (cached [(1, 64)]) ∧ (cached [(1, 64)]).cachedIn ((cached [(1, 64)]).ea 3 0) 64 = [(0x800, ⟨List.replicate 64 7, 2, 3, 0, 0, 64, false⟩)] ∧
      (cached [(1, 64)]).agent = [] ∧ (cached [(1, 64)]).homeFree 0x800 = true ∧ State.pkind (0x800 * 64) ≠ .host ∧
    performs (.inval g0 1 3) g0 (cached [(1, 64)]) ∧ (cached [(1, 64)]).pendingWrite 0 0x800 = false := by
  unfold performs; decide +kernel

theorem witness_matrix_operations : ∀ i ∈ ([.mma g0 2 1 2 10 11 12 .i8, .mmat g0 2 1 2 10 11 12 .i8] : List Instr),
    performs i g0 (mem [(10, 1), (11, 1), (12, 3)]) ∧ performs i g0 (mem [(10, 1), (11, 1)]) := by unfold performs; decide
theorem witness_matrix_operands :
    shows (mem []) ((mem []).ea 1 0) (MFmt.extent .i8 3) (List.replicate (MFmt.extent .i8 3) 0) ∧
      shows (mem []) ((mem []).ea 2 0) ((mem []).g * MFmt.extent .i8 3) (List.replicate ((mem []).g * MFmt.extent .i8 3) 0) ∧
      (mem []).g ≤ 4 ∧ (mem []).mmas.all (fun r => !(r.core == 0 && r.strand == 0 && r.num == 0)) = true :=
  ⟨shows_bank (addr := bankBase) (by decide) rfl List.length_replicate (by decide) (shows_zeros _ _ _),
    shows_bank (addr := bankBase + 65536) (by decide) rfl List.length_replicate (by decide) (shows_zeros _ _ _), by decide, rfl⟩

theorem witness_tile_forms :
    (∀ i ∈ ([.accz g0 2, .accld g0 2 1, .accrd g0 3 2 0, .accwr g0 2 1 0] : List Instr), performs i g0 (mem [])) ∧
      unread (mem []) ∧ shows (mem []) ((mem []).ea 1 0) (16384 * (mem []).g) (List.replicate (16384 * (mem []).g) 0) :=
  ⟨by unfold performs; decide, fun o h => absurd (show o ∈ ([] : List QOp) from h) List.not_mem_nil, shows_bank (addr := bankBase) (by decide) rfl List.length_replicate (by decide) (shows_zeros _ _ _)⟩
theorem witness_tile_images :
    (∀ i ∈ ([.accadd g0 2 1 .f32 0, .accst g0 2 1, .accret g0 2 1 .bf16] : List Instr), performs i g0 (mem [])) ∧
      shows (mem []) ((mem []).ea 1 0) (64 * 64 * (mem []).g * 32 / 8) (List.replicate (64 * 64 * (mem []).g * 32 / 8) 0) ∧
      spotOf 0 ((mem []).ea 1 0) = .scr bankBase ∧ (mem []).bankHeld bankBase (16384 * (mem []).g) = false ∧ (mem []).ownBank bankBase = true ∧
      bankBase + 16384 * (mem []).g ≤ accBase ∧ 1 ≤ (mem []).g ∧ (mem []).bankHeld bankBase (64 * 64 * (mem []).g * 16 / 8) = false :=
  ⟨by unfold performs; decide, shows_bank (addr := bankBase) (by decide) rfl List.length_replicate (by decide) (shows_zeros _ _ _), by decide, by decide, by decide, by decide, by decide, by decide⟩

/-- Page tables that map the first GiB to itself, for context 0, with its rings, a batch table and save areas. -/
def paged (s : State) : State :=
  { s with
    mem := (((((s.mem.write 0x100002 [0x12]).write 0x100007 [0x80]).write 0x120002 [0x14]).write 0x120007 [0x80]).write 0x140007 [0xC8])
    ctxs := [(0, { Hctx.fresh .live 0 with
      rootpa := 0x100000, btva := 0x300000, saven := 2, saveva := 0x1000000, tlbgrant := true
      rings := Vector.ofFn (fun i : Fin 6 => ⟨0, 0, 4, BitVec.ofNat 72 (0x180000 + 0x8000 * i.val)⟩)
      streams := Vector.replicate 4 ⟨0, 0, 0, 3, 0, 4, 2, 0, false, false, false⟩ })] }

/-- A fence waits in the A queue of the strand. -/
def queueing : State :=
  (run []).modMe (fun t => { t with ops :=
    [⟨1, 0, .a, 2, 0, 0, .st g0 .d 1 1 (.short 0), FrontRegs.reset 0, some true, .queued, none, none, 0, none⟩] })
theorem witness_fences :
    settled (run []) ∧ performs (.fenceAcq g0 .device) g0 (run []) ∧ performs (.fenceRel g0 .gang) g0 (run []) ∧
      performs (.fenceFull g0 .system) g0 (run []) ∧ performs (.drain g0 .core) g0 (run []) := by unfold settled performs; decide
theorem witness_waiting_fences :
    (∃ o ∈ queueing.me.ops, (o.eng = .a ∨ o.eng = .c ∨ o.eng = .m) ∧ o.stage = .queued ∧ (queueing.ctx.num = 0 ∨ o.num < queueing.ctx.num)) ∧
      performs (.fenceAcq g0 .device) g0 queueing ∧ performs (.fenceRel g0 .gang) g0 queueing ∧
      performs (.fenceFull g0 .system) g0 queueing ∧ performs (.drain g0 .core) g0 queueing := by unfold performs; decide

theorem witness_pushes :
    performs (.push g0 1 1 2) g0 (run [(1, 2)]) ∧ (run [(1, 2)]).ctx.num = 0 ∧ (run [(1, 2)]).me.shadow = none ∧ (run [(1, 2)]).acts 0 = [] ∧ (run [(1, 2)]).gemvBefore = false ∧
      (run [(1, 2)]).pushDesc 0 = some { prod := 0, cons := 0, logd := 4, bank := 0, goff := 0 } ∧ (run [(1, 2)]).launch? 7 = some launch7 ∧
      shows (run [(1, 2)]) ((run [(1, 2)]).ea 1 0) (16 * 2) (List.replicate (16 * 2) 0) := by
  refine ⟨by unfold performs; decide, rfl, rfl, by decide, rfl, by decide, by decide, shows_bank (addr := bankBase) (by decide) rfl (by decide) (by decide) (by decide)⟩

/-- Two entries have arrived in queue 0. -/
def delivered (xs : List (XReg × XWord)) : State :=
  { run xs with launches := [{ launch7 with pushes := [(0, ⟨2, 2, 0, 0, 2⟩)] }] }
theorem witness_pops :
    performs (.pop g0 3 2) g0 (delivered [(2, 0x10000)]) ∧ (delivered [(2, 0x10000)]).acts 0 = [] ∧
      (delivered []).pushDesc 0 = some { prod := 0, cons := 0, logd := 4, bank := 0, goff := 0 } ∧
      (delivered []).launch? 7 = some { launch7 with pushes := [(0, ⟨2, 2, 0, 0, 2⟩)] } ∧
      (∀ i, i < 1 → (State.ringSlot { launch7 with pushes := [(0, ⟨2, 2, 0, 0, 2⟩)] } { prod := 0, cons := 0, logd := 4, bank := 0, goff := 0 } i).isSome) ∧
    performs (.pop g0 3 2) g0 (delivered [(2, 0x30000)]) ∧ performs (.qstat g0 3 2) g0 (delivered [(2, 0x100)]) := by unfold performs; decide

/-- A launch record of stream 2 for image 5, in the own bank, and the number of its context. -/
def launchRecord (h : Nat) : Nat := 2 ^ 32 + 2 ^ 38 + h * 2 ^ 72 + 2 * 2 ^ 78 + 5 * 2 ^ 128
def launching (h : Nat) : State :=
  let s := paged (run [])
  { s with mem := s.mem.write bankBase (leBytes 128 (launchRecord h)) }
def journalled : State := { launching 0 with launches := List.replicate Config.journalEntries launch7 }
theorem witness_launches :
    (∀ h ∈ [0, 3], performs (.launch g0 3 1) g0 (launching h) ∧ settled (launching h) ∧ (launching h).busyLines = [] ∧ (launching h).replies = [] ∧
      (acting (.launch g0 3 1) (launching h)).owesAdmin 0 2 = false) ∧
      performs (.launch g0 3 1) g0 journalled ∧ settled journalled ∧ (acting (.launch g0 3 1) journalled).journalRoom = false ∧
      (acting (.launch g0 3 1) (launching 0)).journalRoom = true ∧ (acting (.launch g0 3 1) (launching 0)).freeAreas 0 1 = some [0] := by
  unfold performs settled; decide +kernel
set_option maxRecDepth 100000 in
theorem witness_launch_records :
    State.load ((launching 3).ea 1 0) 128 (acting (.launch g0 3 1) (launching 3)) = .ok (leBytes 128 (launchRecord 3)) (acting (.launch g0 3 1) (launching 3)) ∧
    State.load ((launching 0).ea 1 0) 128 (acting (.launch g0 3 1) (launching 0)) = .ok (leBytes 128 (launchRecord 0)) (acting (.launch g0 3 1) (launching 0)) ∧
    State.load (journalled.ea 1 0) 128 (acting (.launch g0 3 1) journalled) = .ok (leBytes 128 (launchRecord 0)) (acting (.launch g0 3 1) journalled) ∧
    (acting (.launch g0 3 1) (launching 0)).checkLaunch 0 2 0 (leNat (leBytes 128 (launchRecord 0))) = .ok (image5, [0]) := by
  exact ⟨rfl, rfl, rfl, rfl⟩

/-- A gang of two members, on the first strands of cores 0 and 1. -/
def pair7 : Launch := { launch7 with width := 1, members := launch7.members ++ [{ core := 1, strand := 0, exited := false, dep := none, record := [], levels := Vector.replicate 6 Level.reset, schedNext := 0 }] }
def paired : State := { run [] with launches := [pair7] }
/-- The strand stands at a SEG bundle. -/
def atSeg (s : State) : State := { s with ctx := { s.ctx with seg := true } }
theorem witness_suspension :
    let s := atSeg paired
    performs (.suspend g0 0) g0 s ∧ settled s ∧ s.launch? 7 = some pair7 ∧ pair7.st = .running ∧ pair7.status = none ∧
      (∃ e ∈ State.liveMembers pair7, ((s.modMe (fun u => { u with life := .rendezvous, dep := some (BitVec.ofNat 32 (s.rdX 0).toNat) })).strand
        (State.Member.key e.2)).life ≠ .rendezvous) := by unfold performs settled; decide +kernel
/-- The one member of launch 7 suspends, its levels at rest and nothing landing, parked or faulted. -/
theorem witness_last_suspension :
    let s := atSeg (paged (run []))
    let m := s.modMe (fun u => { u with life := .rendezvous, dep := some (BitVec.ofNat 32 (s.rdX 0).toNat) })
    performs (.suspend g0 0) g0 s ∧ settled s ∧ s.launch? 7 = some launch7 ∧ State.liveMembers launch7 ≠ [] ∧ s.busyLines = [] ∧
      (∀ e ∈ State.liveMembers launch7, m.arrived (State.Member.key e.2) = true ∧ (m.strand (State.Member.key e.2)).held = []) ∧
      (State.liveMembers launch7).map (fun e => (e.1, State.Member.key e.2)) = [(0, s.meKey)] ∧ s.me.levels = Vector.replicate 6 Level.reset ∧
      s.me.landings = [] ∧ s.me.vland = [] ∧ s.me.parks = [] ∧ (∀ c ∈ s.me.tokens.toList, c.st ≠ .faulted) := by unfold performs settled; decide +kernel
theorem witness_exit :
    performs (.exit g0) g0 (run []) ∧ settled (run []) ∧ (run []).mmas = [] ∧ (run []).me.held = [] ∧ (run []).entryOwed 0 = false ∧
      (run []).me.tokens.all (fun t => t.st != .armed && t.st != .faulted) = true ∧ (run []).launch? 7 = some launch7 ∧ launch7.status = none ∧
      (∀ e ∈ State.liveMembers launch7, e.1 = (run []).me.member) := by unfold performs settled; decide +kernel
theorem witness_evpost :
    performs (.evpost g0 1 2) g0 (paged (run [(1, 5), (2, 6)])) ∧
      ((acting (.evpost g0 1 2) (paged (run [(1, 5), (2, 6)]))).ringPut 0 4 (List.replicate 32 0)).isSome = true ∧
    performs (.evpost g0 1 2) g0 (run [(1, 5), (2, 6)]) ∧ ((run []).hctx 0).rings[4].logd = 0 := by unfold performs; decide +kernel

/-- The strand's dictionary window: 256 entries at 0. -/
def windowed (xs : List (XReg × XWord)) : State :=
  let s := run xs
  (s.setMe { s.me with wsize := 256 }).setCore 0 { s.core 0 with windows := [⟨0, 256, 5, 0, false, 0, List.replicate 256 0⟩] }
theorem witness_dictld :
    performs (.dictld g0 3 1 2) g0 (windowed [(2, 0x10004)]) ∧ (windowed [(2, 0x10004)]).acts 0 = [] ∧ (windowed [(2, 0x10004)]).gemvBefore = false ∧ (windowed []).windowShared 0 = false ∧
      shows (windowed [(2, 0x10004)]) ((windowed [(2, 0x10004)]).ea 1 0) (48 * 1) (List.replicate (48 * 1) 0) := by
  refine ⟨by unfold performs; decide, by decide, rfl, by decide, shows_bank (addr := bankBase) (by decide) rfl (by decide) (by decide) (by decide)⟩
theorem witness_tlb_invalidations :
    performs (.tlbinvPage g0 3) g0 (paged (run [])) ∧ performs (.tlbinvHc g0 0) g0 (paged (run [])) ∧ performs (.tlbinvAll g0) g0 (paged (run [])) ∧
      (paged (run [])).walks = [] ∧ (paged (run [])).home = [] ∧ (∀ e ∈ (paged (run [])).strands, e.2.withheld = []) := by unfold performs; decide

/-- A notify descriptor at a3 whose queue lies in a page of class 1. -/
def notifying : State :=
  let s := run []
  { s with
    mem := s.mem.write 0x20000 (leBytes 32 (0x20000 + 4 * 2 ^ 72))
    clusters := [(0, { s.cluster 0 with tlb := [⟨0, 1, 0x20000, 0, true, false⟩, ⟨0, 2, 0x40000, 1, true, false⟩] })] }
set_option maxRecDepth 100000 in
theorem witness_notify_reads :
    State.load (notifying.ea 3 0) 32 (acting (.notify g0 3 1) notifying) = .ok (leBytes 32 (0x20000 + 4 * 2 ^ 72)) (acting (.notify g0 3 1) notifying) ∧
    State.load (0x20000 + 64) 8 (acting (.notify g0 3 1) notifying) = .ok (List.replicate 8 0) (acting (.notify g0 3 1) notifying) := ⟨rfl, rfl⟩
theorem witness_notify :
    let d := leNat (leBytes 32 (0x20000 + 4 * 2 ^ 72))
    performs (.notify g0 3 1) g0 notifying ∧ settled notifying ∧ notifying.me.held = [] ∧ (notifying.cluster 0).lines = [] ∧ notifying.agent = [] ∧
      notifying.busyLines = [] ∧ notifying.ea 3 0 % 32 = 0 ∧ d % 2 ^ 72 = 0x20000 ∧ d / 2 ^ 72 % 2 ^ 4 = 4 ∧ d / 2 ^ 224 % 2 ^ 32 = 0 ∧
      notifying.tlbHit 0 0 (notifying.ea 3 0) = some ⟨0, 1, 0x20000, 0, true, false⟩ ∧ notifying.tlbHit 0 0 0x20000 = some ⟨0, 2, 0x40000, 1, true, false⟩ ∧
      State.pkind 0x20000 ≠ .host ∧ State.pkind 0x40000 ≠ .host ∧ State.pkind 0x40080 ≠ .host := by unfold performs settled; decide +kernel

/-! Tables. Sequence 9 of context 0 has block 2 (of 16 tokens, 3 filled) at LBLK 0; block 3 is the one free block; sequence 1 has no block. -/

def blk2 : Blk := ⟨9, 0, 0, .live, 1, 3, false, 0x400000, 0⟩
def tabled (xs : List (XReg × XWord)) : State :=
  let s := paged (run xs)
  { (s.modHctx 0 (fun c => { c with med := ⟨0x400000, 0, 8, 3, 1, 4⟩ })) with
    blks := [(2, blk2), (3, { blk2 with st := .free, ref := 0, fill := 0, frame := 0x410000 })]
    slots := [((MKey.mk 0 9 0).hash, ⟨some (⟨0, 9, 0⟩, 2), 0⟩)] }
theorem witness_table_forms : ∀ i ∈ ([.kvlook g0 3 1 2, .kvapp g0 3 1 2, .kvfork g0 3 1 2, .kvtrunc g0 3 1 2, .pfxfind g0 3 1 2, .pfxins g0 3 1 2] : List Instr),
    i.guard? = some g0 ∧ (actForm (tabled [(1, 9), (2, 2)]) i).isSome = true ∧ performs i g0 (tabled [(1, 9), (2, 2)]) ∧ tablesReady (tabled [(1, 9), (2, 2)]) i := by
  unfold performs tablesReady settled; decide +kernel
/-- The acts of these forms end in a result, in a failure, and in a wait for the home. -/
theorem witness_table_acts :
    ((tabled []).kvApp 0 9 2).isOk = true ∧ (match (tabled []).kvLook 0 1 0 with | .error (.code 1) => true | _ => false) = true := by decide +kernel
theorem witness_look_and_append :
    (tabled []).mapped 0 9 0 = some 2 ∧ (tabled []).mapped 0 1 0 = none ∧ (tabled []).mapped 0 9 1 = none ∧ ((tabled []).blk 2).ref = 1 ∧
      ((tabled []).blk 2).fill + 13 ≤ 2 ^ ((tabled []).hctx 0).med.logtpb ∧ 2 ^ ((tabled []).hctx 0).med.logtpb < ((tabled []).blk 2).fill + 14 := by decide +kernel
theorem witness_inserted_mapping :
    (tabled []).findMap ⟨0, 1, 0⟩ = none ∧ ((tabled []).insertMap ⟨0, 1, 0⟩ 3).isSome = true := by decide +kernel
theorem witness_shared_blocks : ((tabled []).share 0 1 [2]).isOk = true := by decide +kernel
theorem witness_short_truncation : (((tabled []).blocksOf 0 9).map (fun b => ((tabled []).blk b).fill)).sum ≤ 3 := by decide +kernel
theorem witness_kvfree :
    (∀ xs ∈ ([[(1, 1)], [(1, 9)]] : List (List (XReg × XWord))), performs (.kvfree g0 1 2) g0 (tabled xs) ∧ tablesReady (tabled xs) (.kvfree g0 1 2)) ∧
      (tabled [(1, 1)]).blocksOf 0 1 = [] ∧ (tabled [(1, 9)]).blocksOf 0 9 = [2] ∧ ((tabled [(1, 9)]).rdX 2).toNat % 2 ^ 20 = 0 := by
  unfold performs tablesReady settled; decide +kernel
theorem witness_dropped_blocks :
    2 ≤ ({ tabled [] with blks := [(2, { blk2 with ref := 2 })] }.blk 2).ref ∧ ((tabled []).blk 2).ref = 1 ∧ ((tabled []).blk 2).st = .live ∧
      ({ tabled [] with blks := [(2, { blk2 with st := .retired })] }.blk 2).st = .retired := by decide +kernel
theorem witness_prefix_acts :
    (tabled []).findPfx 0 0x77 = none ∧ (tabled []).mapped 0 0 0 = none ∧ (tabled []).blocksOf 0 9 = [2] ∧ (tabled []).blocksOf 0 5 = [] ∧
      (State.pfxSlots 0x77).find? (fun n => ((tabled []).pfx.get? n).isNone) = some 0x77 ∧
      { tabled [] with pfx := [(0x77, ⟨0x77, 0, 3, [2]⟩)] }.findPfx 0 0x77 = some (0x77, ⟨0x77, 0, 3, [2]⟩) ∧ ((tabled []).share 0 1 [2]).isOk = true := by decide +kernel
/-- A sequence of 25 blocks is too long for a prefix. -/
theorem witness_long_sequence :
    let s := { tabled [] with slots := (List.range 25).foldl (fun m l => m.set (MKey.mk 0 9 l).hash ⟨some (⟨0, 9, l⟩, 2), 0⟩) [] }
    24 < (s.blocksOf 0 9).length ∧ s.mapped 0 0 0 = none := by decide +kernel

/-! Streams. Stream 3 of context 0 has generated 5 tokens; its state, snapshots, frames and deliveries lie in the first GiB. -/

def strm3 : StreamE :=
  { StreamE.reset with stva := 0x200000, snva := 0x210000, fva := 0x220000, dva := 0x230000, seq := 9, g := 5, p := 5, snb := 1, flog := 4, dlog := 4, epoch := 7, valid := true }
def streaming (e : StreamE) (xs : List (XReg × XWord)) : State :=
  let s := paged (run xs)
  { s with streams := [(3, e)] }
def heldStream : StreamE := { strm3 with held := true }
def revoked : StreamE := { strm3 with prevv := true, dtail := 16 }
theorem witness_stream_acts : ∀ e ∈ [strm3, heldStream, revoked],
    (streaming e []).streamOpen 0 3 = true ∧ (State.streamBegin 0 3 (streaming e [])).isOk = true ∧ ((streaming e []).dheadOf 0 3).isOk = true ∧
      ((streaming e []).hctx 0).med.count = 0 ∧ max e.sbase.toNat (max (e.g.toNat - 64) e.iend.toNat) ≤ e.g.toNat ∧
      (State.snapCopy 0 e.stva.toNat ((e.snva.toNat + e.g.toNat % 64 * (64 * e.snb)) % 2 ^ 72) (64 * e.snb) (streaming e [])).isOk = true := by decide +kernel
set_option maxRecDepth 100000 in
theorem witness_acknowledged_streams :
    State.streamBegin 0 3 (streaming strm3 []) = .ok (streaming strm3 []) ∧ State.streamBegin 0 3 (streaming heldStream []) = .ok (streaming heldStream []) ∧
      State.streamBegin 0 3 (streaming revoked []) = .ok (streaming revoked []) ∧ (streaming strm3 []).dheadOf 0 3 = .ok 0 := ⟨rfl, rfl, rfl, rfl⟩
/-- A stream that must keep its last tokens. -/
theorem witness_retained_cut : 4 < max ({ strm3 with sbase := 5 }).sbase.toNat (max (strm3.g.toNat - 64) strm3.iend.toNat) ∧ 4 ≤ strm3.g.toNat ∧ strm3.g.toNat < 6 := by decide
theorem witness_closed_streams : (tabled []).streamOpen 0 3 = false ∧ 0x30003 % 4096 = 3 := by decide
theorem witness_sframe :
    performs (.sframe g0 3 1 2) g0 (streaming strm3 [(2, 0x000E000000000003)]) ∧ tablesReady (streaming strm3 [(2, 0x000E000000000003)]) (.sframe g0 3 1 2) ∧
      spotOf 0 ((streaming strm3 []).ea 1 0) = .scr bankBase ∧
      (State.sframeAct 0 0x000E000000000003 (acting (.sframe g0 3 1 2) (streaming strm3 [(2, 0x000E000000000003)]))).isOk = true ∧
    performs (.sframe g0 3 1 2) g0 (streaming strm3 [(2, 3)]) ∧
      (match State.sframeAct 0 3 (acting (.sframe g0 3 1 2) (streaming strm3 [(2, 3)])) with | .error (.code 10) => true | _ => false) = true := by
  unfold performs tablesReady settled; decide +kernel
/-- A batch table whose row 0 is idle; row 1 runs stream 3 with a draft of 2. -/
def batched : State :=
  let s := streaming strm3 [(2, 2)]
  { s with mem := s.mem.write 0x300048 (leBytes 4 (3 + 2 * 2 ^ 24 + 2 ^ 31)) }
/-- What is left when a row has given no record. -/
def idleRow (r : Nat) (s : State) : Option State :=
  match State.rowAct 0 r s with
  | .ok (none, t) => some t
  | _ => none
/-- A row's record and what is left when it has given one. -/
def busyRow (r : Nat) (s : State) : Option (Nat × State) :=
  match State.rowAct 0 r s with
  | .ok (some (x, _), t) => some (x, t)
  | _ => none
theorem witness_btsnap :
    performs (.btsnap g0 1 2) g0 batched ∧ (acting (.btsnap g0 1 2) batched).tableReady = true ∧ spotOf 0 (batched.ea 1 0) = .scr bankBase ∧ batched.ctx.num = 0 ∧
      (match idleRow 0 (acting (.btsnap g0 1 2) batched) with
        | some t => t.me.hc == 0 && (match busyRow 1 t with
          | some (x, m) => m.me.hc == 0 && x == 3 + 2 ^ 12 + 2 * 2 ^ 24 + 5 * 2 ^ 64 + 5 * 2 ^ 96 && m.ctx == batched.ctx && !m.bankHeld bankBase 48 && m.ownBank bankBase &&
              (match State.store none (batched.ea 1 0) (leBytes 48 x) m with | .ok () v => v.mem.read (bankBase + 8) == 5 | _ => false)
          | none => false)
        | none => false) = true := by
  unfold performs; decide +kernel
theorem witness_obsel :
    performs (.obsel g0 3) g0 (run []) ∧ tablesReady (run []) (.obsel g0 3) ∧ (run []).image? 5 = some image5 ∧ image5.buckets = some [⟨true, 8, 8, 3⟩] ∧
      (run []).front.occ.toNat ≤ 8 ∧ (run []).front.draft.toNat ≤ 8 := by unfold performs tablesReady settled; decide +kernel
theorem witness_waiting_act :
    let s := { streaming strm3 [(1, 3), (2, 5)] with busyLines := [0x230040 / 64] }
    performs (.strunc g0 3 1 2) g0 s ∧ tablesReady s (.strunc g0 3 1 2) ∧
      (match State.struncAct 0 3 5 (acting (.strunc g0 3 1 2) s) with | .error (.hold ls) => ls == [0x230040 / 64] | _ => false) = true := by
  unfold performs tablesReady settled; decide +kernel

theorem witness_counter_forms : ∀ i ∈ ([.stage g0 1, .tokclr g0 1, .lnscfg g0 1 2, .lnsbrk g0, .seqlen g0 1, .cntrd g0 3 1, .cntrd g0 0 1, .cntclr g0 1] : List Instr),
    i.guard? = some g0 ∧ (counterForm (run [(1, 0x40)]) i).isSome = true ∧ counterFits (run [(1, 0x40)]) i ∧ performs i g0 (run [(1, 0x40)]) := by
  intro i h
  simp only [List.mem_cons, List.not_mem_nil, or_false] at h
  rcases h with rfl | rfl | rfl | rfl | rfl | rfl | rfl | rfl <;> unfold performs <;> simp only [counterFits] <;> decide
theorem witness_thermal_reads : ∀ n ∈ [1, 4], ((run [(1, BitVec.ofNat 64 (0x90 + n))]).rdX 1).toNat = 0x90 + n ∧ performs (.cntrd g0 3 1) g0 (run [(1, BitVec.ofNat 64 (0x90 + n))]) := by
  unfold performs; decide
theorem witness_bar :
    performs (.bar g0 1) g0 (run [(1, 15)]) ∧ ((run [(1, 15)]).rdX 1).toNat < 16 ∧ (run [(1, 15)]).launch? 7 = some launch7 ∧
      0 < (State.liveMembers launch7).length ∧ (∀ k, k < 16 → (launch7.bars.toList.getD k (0, 0)).1 < (State.liveMembers launch7).length) := by
  unfold performs; decide +kernel
theorem witness_bar_not_last :
    performs (.bar g0 1) g0 { paired with strands := (run [(1, 15)]).strands } ∧ paired.launch? 7 = some pair7 ∧ (State.liveMembers pair7).length = 2 ∧
      (∀ k, k < 16 → (pair7.bars.toList.getD k (0, 0)).1 < (State.liveMembers pair7).length) := by unfold performs; decide +kernel
theorem witness_loop_levels :
    (∀ c ∈ [3, 0x500000000003, 0x80000000003],
      let s := after (.lnscfg g0 1 2) (run [(1, 5), (2, BitVec.ofNat 64 c)])
      performs (.lnsrun g0 1) g0 s ∧ (s.rdX 1).toNat < 6 ∧ 1 ≤ (levelOf s.me 5).ctl.toNat % 512) := by unfold performs; decide +kernel
theorem witness_traps : ∀ n ∈ ([.short 0, .long 0xFFFFFFFF] : List Imm),
    (run []).ctx.admitted = false ∧ (run []).pendingWait false (.trap g0 n) = false ∧ (run []).holds g0 = true := by decide

/-- A fault record of context 0. -/
def faultRec0 : FaultRec :=
  { va := 0, info := 0, aux := 0, handle := 0, bundle := 0, seq := 9, stream := 1, hc := 0, member := 0, core := 0, strand := 0, slot := 0, cls := 2, code := 8, stamp := 0, fsect := 0, launch := some 7, op := none, copy := none }
/-- Context 0 has pending faults of strand 1 of core 0: a trap, and an operation. -/
def pended (xs : List (XReg × XWord)) : State :=
  let s := run xs
  { (s.modHctx 0 (fun c => { c with pend := [⟨0, 0x100, 8, 7, .trap 0 1⟩, ⟨1, 0x201, 1, 7, .op 0 1 4⟩] })) with
    strands := s.strands.set 1 { Strand.reset 0 with life := .running, launch := 7, holds := 1 } }
theorem witness_returns :
    (∀ w ∈ [5, 0x100, 0x200000100, 0x201], performs (.resume g0 1) g0 (pended [(1, BitVec.ofNat 64 w)])) ∧
      ((pended []).hctx 0).pend.find? (fun q => q.handle == 5) = none ∧
      ((pended []).hctx 0).pend.find? (fun q => q.handle == 0x100) = some ⟨0, 0x100, 8, 7, .trap 0 1⟩ ∧
      ((pended []).hctx 0).pend.find? (fun q => q.handle == 0x201) = some ⟨1, 0x201, 1, 7, .op 0 1 4⟩ ∧ ((pended []).core 0).halt = 0 := by
  unfold performs; decide +kernel
theorem witness_waiting_records :
    let s := (run []).modHctx 0 (fun c => { c with waiting := [faultRec0] })
    (s.hctx s.me.hc).waiting ≠ [] ∧ s.ctx.admitted = false ∧ s.pendingWait false (.trap g0 (.short 3)) = false ∧ s.holds g0 = true := by decide
theorem witness_fqpop :
    performs (.fqpop g0 3 1) g0 (run []) ∧ spotOf 0 ((run []).ea 1 0) = .scr bankBase ∧ ((run []).hctx 0).rings[5].logd = 0 ∧
      ((paged (run [])).hctx 0).rings[5].tail = ((paged (run [])).hctx 0).rings[5].head ∧ performs (.fqpop g0 3 1) g0 (paged (run [])) := by
  unfold performs; decide
theorem witness_fqpop_of_a_record :
    let s := (paged (run [])).modHctx 0 (fun c => { c with rings := c.rings.set 5 { c.rings[5] with tail := 1 } })
    performs (.fqpop g0 3 1) g0 s ∧ (s.hctx 0).rings[5].logd ≠ 0 ∧ (s.hctx 0).rings[5].tail ≠ (s.hctx 0).rings[5].head ∧
      (s.actRead 0 (((s.hctx 0).rings[5].base.toNat + 64 * ((s.hctx 0).rings[5].head.toNat % 2 ^ (s.hctx 0).rings[5].logd)) % 2 ^ 72) 64).isOk = true ∧
      s.bankHeld bankBase 64 = false ∧ s.ownBank bankBase = true := by unfold performs; decide +kernel

/-! Events. -/

/-- An outcome that is a next state with a property. -/
def goesTo (o : Host.Outcome State Fault Refusal) (p : State → Bool) : Bool :=
  match o with
  | .next t => p t
  | _ => false
/-- An outcome's state. -/
def stateOf (o : Host.Outcome State Fault Refusal) (s : State) : State :=
  match o with
  | .next t => t
  | _ => s
/-- The strand with one operation in a queue. -/
def withOp (s : State) (e : Engine) (slot : Nat) (i : Instr) (st : Stage) (g : Option Bool) : State :=
  s.modMe (fun t => { t with opNum := 1, ops := [⟨1, 0, e, slot, 0, 0, i, t.front, g, st, some t.eng, none, 0, none⟩] })
def opOf (s : State) : QOp := s.me.ops.headD ⟨0, 0, .a, 0, 0, 0, .lnsbrk g0, FrontRegs.reset 0, none, .queued, none, none, 0, none⟩
theorem witness_queued_lane_operation :
    let s := withOp (run []) .v0 6 (.vadd g0 3 1 2 1 .f32 .rup) .queued (some true)
    s.me.ops = [opOf s] ∧ (opOf s).stage = .queued ∧ (opOf s).guard = some true ∧ s.me.vland = [] ∧ (encode (opOf s).instr).isSome = true ∧
      (opOf s).instr.tile? = none ∧ State.isSuspend (opOf s) = false ∧ State.ordered (opOf s) = false ∧ readsMem (opOf s).instr = false ∧ laneEngine (opOf s).eng ∧ (s.core 0).halt = 0 :=
  ⟨rfl, rfl, rfl, rfl, by decide, rfl, rfl, rfl, rfl, trivial, by decide⟩
theorem witness_false_guard_in_a_queue :
    let s := withOp (run []) .v0 6 (.vadd ⟨false, 3⟩ 3 1 2 1 .f32 .rup) .queued none
    s.me.ops = [opOf s] ∧ (opOf s).guard = none ∧ (opOf s).instr.guard? = some ⟨false, 3⟩ ∧ s.mmas = [] ∧ State.isPending s.me (.p 3) = false ∧
      (((3 : PReg) == 0 || s.me.front.p[3]) != false) = false := ⟨rfl, rfl, rfl, rfl, by decide, by decide⟩
theorem witness_queued_store :
    let s := withOp (run []) .a 2 (.st g0 .d 1 1 (.short 0)) .queued (some true)
    s.me.ops = [opOf s] ∧ (opOf s).guard = some true ∧ s.copies = [] ∧ s.gemvs = [] ∧ State.isBankmode (opOf s).instr = false ∧ (opOf s).eng = .a ∧
      goesTo (exec (opOf s).instr ((s.forOp 0 (opOf s)).noteSide (opOf s).instr)) (fun m => decide ((m.strand 0).vland = [] ∧ m.ctx.res = .done)) = true :=
  ⟨rfl, rfl, rfl, rfl, rfl, rfl, by decide +kernel⟩
theorem witness_queued_load_that_waits :
    let s := withOp (run []) .a 2 (.ldvFeTake g0 true 3 1 (.short 2)) .queued (some true)
    s.me.ops = [opOf s] ∧ goesTo (exec (opOf s).instr ((s.forOp 0 (opOf s)).noteSide (opOf s).instr)) (fun m => decide ((m.strand 0).vland = [] ∧ m.ctx.res = .waiting ∧ m.readsAway 0 1 = false)) = true :=
  ⟨rfl, by decide +kernel⟩
/-- A load whose line is busy at its home has sent its read there; a store through a leaf without write permission faults. -/
theorem witness_queued_load_sent_on :
    let s := { withOp (run []) .a 2 (.ld g0 .d 3 3 (.short 2)) .queued (some true) with busyLines := [0x800] }
    s.me.ops = [opOf s] ∧ State.sendsOn (opOf s).instr = true ∧
      goesTo (exec (opOf s).instr ((s.forOp 0 (opOf s)).noteSide (opOf s).instr)) (fun m => decide ((m.strand 0).vland = [] ∧ m.ctx.res = .waiting ∧ m.readsAway 0 1 = true)) = true :=
  ⟨rfl, rfl, by decide +kernel⟩
theorem witness_queued_store_that_faults :
    let s := { withOp (run []) .a 2 (.st g0 .d 1 3 (.short 0)) .queued (some true) with clusters := [(0, { Cluster.reset with tlb := [⟨0, 1, 0x20000, 0, false, false⟩] })] }
    s.me.ops = [opOf s] ∧ goesTo (exec (opOf s).instr ((s.forOp 0 (opOf s)).noteSide (opOf s).instr)) (fun m => decide ((m.strand 0).vland = [] ∧ m.ctx.res = .faulted)) = true :=
  ⟨rfl, by decide +kernel⟩
theorem witness_started_lane_operation :
    let s := withOp (run []) .v0 6 (.vadd g0 3 1 2 1 .f32 .rup) .started (some true)
    s.me.ops = [opOf s] ∧ (opOf s).stage = .started ∧ laneEngine (opOf s).eng ∧ s.mmas = [] ∧ s.writesHeld 0 (s.actOf 0 (opOf s)) = false ∧
      goesTo (exec (opOf s).instr (s.forOp 0 (opOf s))) (fun m => decide ((m.strand 0).vland = [] ∧ m.ctx.res = .done)) = true :=
  ⟨rfl, rfl, trivial, rfl, by decide, by decide +kernel⟩
/-- A strand given one operation has no other. -/
theorem withOp_ops (e : Engine) (slot : Nat) (i : Instr) (st : Stage) (g : Option Bool) :
    (withOp (run []) e slot i st g).me.ops = [opOf (withOp (run []) e slot i st g)] ∧ (withOp (run []) e slot i st g).me.vland = [] := ⟨rfl, rfl⟩
theorem witness_begun_lane_operations : ∀ i ∈ ([.vadd g0 3 1 2 1 .f32 .rup, .vslideDn g0 3 1 3 0] : List Instr),
    let s := withOp (run []) .v0 6 i .started (some true)
    (opOf s).eng = .v0 ∧ (opOf s).stage = .started ∧ (laneResult (s.forOp 0 (opOf s)) (opOf s).instr).isSome = true := by decide +kernel
theorem witness_begun_votes : ∀ i ∈ ([.vany g0 3 1 2, .vextr g0 3 1 3, .ctopp g0 3 4] : List Instr),
    let s := withOp (run []) .x 7 i .started (some true)
    (opOf s).eng = .x ∧ (voteResult (s.forOp 0 (opOf s)) (opOf s).instr).isSome = true := by decide +kernel
theorem witness_nothing_else_begun : laneEngine .v0 ∧ laneEngine .x ∧ (run []).mmas = [] ∧ (run []).copies = [] ∧ (run []).gemvs = [] := ⟨trivial, trivial, rfl, rfl, rfl⟩
/-- ENGINE_OP_COMPLETE of VADD.I32 v3, v1, v2: lane 7 holds the sum, and the operation has left its queue. -/
theorem test_a_begun_operation_completes :
    let s := withOp ((run []).setMe { (run []).me with eng := { (run []).me.eng with v := ((run []).me.eng.v.set 1 (Vector.replicate 512 0x7FFFFFFF)).set 2 (Vector.replicate 512 2) } })
      .v0 6 (.vadd g0 3 1 2 0 .i32 .fmode) .started (some true)
    goesTo (exec (.engineOpComplete 0 0 .v0) s) (fun t => (t.strand 0).eng.v[3][7] == 0x80000001 && (t.strand 0).ops == []) = true := by decide +kernel
/-- One row of a queued BTSNAP: an idle row, a row with a record, and the end. -/
theorem witness_queued_batch_rows :
    let s (n : Nat) : State := let z := withOp batched .q 8 (.btsnap g0 1 2) .queued (some true)
      { z.modMe (fun t => { t with ops := t.ops.map (fun o => { o with acts := n }) }) with ctx := { z.ctx with num := 1, admitted := true } }
    (∀ n ∈ [0, 1, 2], performs (.btsnap g0 1 2) g0 (s n) ∧ (s n).ctx.num ≠ 0 ∧ (acting (.btsnap g0 1 2) (s n)).tableReady = true ∧
      ((s n).me.ops.find? (fun q => q.num == (s n).ctx.num)).map (fun o => (o.acts, o.got)) = some (n, none)) ∧
    ((idleRow 0 (acting (.btsnap g0 1 2) (s 0))).map (fun m => m.ctx)) = some (s 0).ctx ∧
    ((busyRow 1 (acting (.btsnap g0 1 2) (s 1))).map (fun m => (m.2.ctx, m.2.bankHeld bankBase 48, m.2.ownBank bankBase))) = some ((s 1).ctx, false, true) := by
  unfold performs; decide +kernel

def walking : State :=
  let s := paged (withOp (run []) .a 2 (.st g0 .d 1 1 (.short 0)) .walking (some true))
  { s with walks := [⟨0, 0, 5, 0x50000, 0, 0, 1⟩], clusters := [(0, { s.cluster 0 with tlb := [] })] }
theorem witness_walks :
    (walking.walk 0 0x50000).isSome = true ∧ (walking.cluster 0).tlb = [] ∧
      { walking with mem := [] }.walk 0 0x50000 = none ∧ walking.me.ops = [opOf walking] ∧ (opOf walking).num = 1 ∧ (opOf walking).stage = .walking := by
  refine ⟨by decide +kernel, by decide, by decide +kernel, rfl, rfl, rfl⟩
theorem witness_home_writes : ∀ b ∈ [[], [0x800]],
    let s := { run [] with home := [{ addr := 0x20004, pclass := 0, core := 0, strand := 0, hc := 0, num := 1, reply := false, kind := .write [1, 2] false, launch := 7 }], busyLines := b }
    s.agent = [] ∧ s.copies = [] ∧ s.busyLines.mem 0x800 = !b.isEmpty ∧ 0x20004 / 64 = 0x800 ∧ 0x20004 % 64 + 2 ≤ 64 ∧ State.pkind (0x800 * 64) ≠ .host := by decide
theorem witness_bank_change :
    let s := (run []).setBank 0 1 { owned with chg := some ⟨2, some 0, none, 0⟩ }
    (s.bank 0 1).chg = some ⟨2, some 0, none, 0⟩ ∧ (s.bank 0 1).mode ≠ 1 ∧ (s.bank 0 1).mode ≠ 2 ∧ s.bankInUse 0 1 ⟨2, some 0, none, 0⟩ = false := by decide +kernel

def copy0 : Copy :=
  { id := 0, core := 0, strand := 0, hc := 0, launch := 7, num := 0, cnt := 0, tok := some 3, src := 0xFFFF00000000000000, dst := 0xFFFF00000000010000
    len := 64, port := 0, addw := false, kind := .plain, slot := 3, word := 0, bundle := 0, next := 0, missing := [], bytes := 0, fl := 0, faulted := false, skipped := false, data := none }
theorem witness_copy_completion :
    let s := { run [] with copies := [copy0] }
    s.copyWaits copy0 = false ∧ s.copyHeld copy0 = false ∧ (s.mmas = [] ∧ s.home = [] ∧ s.replies = []) ∧ (s.core 0).halt = 0 ∧ copy0.data = none ∧ s.poison = [] ∧ s.me.withheld = [] ∧ copy0.src.toNat = spadVa + 0 ∧ copy0.dst.toNat = spadVa + 0x10000 := by
  decide +kernel
theorem witness_locks : ∀ cl b, ((run []).bank cl b).lock = 0 := by
  intro cl b
  unfold State.bank State.cluster run mem base
  simp only [State.setMe, State.setStrand, Map.getD, Map.get?, List.find?]
  by_cases h : (0 : Nat) = cl
  · subst h
    by_cases h0 : (0 : Nat) = b
    · subst h0; rfl
    · by_cases h1 : (1 : Nat) = b
      · subst h1; rfl
      · by_cases h2 : (2 : Nat) = b
        · subst h2; rfl
        · simp [h0, h1, h2, Bank.reset]
  · have : ((0 : Nat) == cl) = false := by simpa using h
    rw [this]; rfl

def gemv0 : Gemv :=
  { id := 0, core := 0, strand := 0, hc := 0, launch := 7, num := 0, cnt := 0, tok := some 3, desc := 0, dst := 0xFFFF00000000010000, input := 0xFFFF00000000000000
    wva := 0x10000, sva := 0x10100, n := 1, k := 32, word := 0, bundle := 0, faulted := false, skipped := false, out := none }
/-- Its outputs are formed, and then written. -/
theorem witness_gemv_output : ∀ bs ∈ ([[1, 2, 3, 4], []] : List (List Byte)),
    let c := { gemv0 with out := some (bs, 1) }
    let s := { run [] with gemvs := [c] }
    s.blocked 0 (s.gemvAct c) = false ∧ s.writesHeld 0 (s.gemvAct c) = false ∧ (bs ≠ [] → bs.length = 4 * c.n) ∧ 1 ≤ c.n := by decide +kernel
theorem witness_gemv_completion :
    let s := { run [] with gemvs := [gemv0] }
    s.blocked 0 (s.gemvAct gemv0) = false ∧ spotOf 0 gemv0.wva.toNat = .trans ∧ spotOf 0 gemv0.sva.toNat = .trans ∧
      spotOf 0 gemv0.input.toNat = .scr bankBase ∧ gemv0.dst.toNat = spadVa + 0x10000 ∧
      shows (asStrand s 0) gemv0.wva.toNat (1 * 32) (List.replicate (1 * 32) 0) ∧ shows (asStrand s 0) gemv0.sva.toNat (1 * (32 / 32)) (List.replicate (1 * (32 / 32)) 0) ∧
      shows (asStrand s 0) gemv0.input.toNat (32 + 32 / 32) (List.replicate (32 + 32 / 32) 0) := by
  refine ⟨by decide +kernel, by decide, by decide, by decide, by decide,
    shows_page (e := ⟨0, 1, 0x20000, 0, true, false⟩) (by decide) rfl rfl (by unfold quiet; decide) (by decide) (by decide) (by decide) (by decide),
    shows_page (e := ⟨0, 1, 0x20000, 0, true, false⟩) (by decide) rfl rfl (by unfold quiet; decide) (by decide) (by decide) (by decide) (by decide),
    shows_bank (addr := bankBase) (by decide) rfl rfl (by decide) (by decide)⟩

/-- The launch runs with a copy schedule of one entry. -/
def entry0 : SchedEnt := { soff := 0, doff := 0x10000, sbase := 6, dbase := 6, len := 64, stage := 1, tok := some 2, oc := false, port := 0, addw := false }
def scheduled (scnt : BitVec 16) (arm : Option (List Nat)) : State :=
  let s := run []
  { s.modMe (fun t => { t with schedOcArm := arm, schedTok := arm.isSome, front := { t.front with scnt := scnt } }) with
    launches := [{ launch7 with csched := true }], images := [{ image5 with cores := image5.cores.map (fun c => { c with sched := [entry0] }) }] }
theorem witness_copy_schedule :
    (scheduled 0 none).schedEntry 0 = some entry0 ∧ (scheduled 1 (some [])).schedEntry 0 = some entry0 ∧ (scheduled 0 none).me.front.scnt.toNat < entry0.stage ∧
      (scheduled 1 (some [])).me.schedTok = true ∧ (entering (scheduled 1 (some [])) 0).schedReleased 0 = false ∧
      (entering (scheduled 1 (some [])) 0).copyStop State.copyReach ((scheduled 1 (some [])).schedSpan 0 entry0).1 ((scheduled 1 (some [])).schedSpan 0 entry0).2
        64 64 64 0 false = none := by decide +kernel

def mma0 (k : Nat) (consumed : Bool) : Mma :=
  { id := 0, core := 0, strand := 0, num := 1, tile := 2, width := 1, trans := false, fmt := .i8, m := 1, n := 1, k := k
    opA := List.replicate (MFmt.extent .i8 3) 1, opB := List.replicate (MFmt.extent .i8 3) 1, banks := [0, 1], consumed := consumed, chunk := 0, fl := 0 }
theorem witness_matrix_events : ∀ b ∈ [false, true],
    let s := { withOp (run []) .m 4 (.mma g0 2 1 2 10 11 12 .i8) .started (some true) with mmas := [mma0 3 b] }
    s.mmaStarted (mma0 3 b) = true ∧ s.mmaHeld (mma0 3 b) = false ∧ (mma0 3 b).consumed = b ∧ (mma0 3 b).width ≤ 4 ∧ (mma0 3 b).m ≤ 64 ∧
      (mma0 3 b).n ≤ 64 * (mma0 3 b).width := by decide +kernel
theorem witness_matrix_chunks :
    let m := mma0 100 true
    let s := { withOp (run []) .m 4 (.mma g0 2 1 2 10 11 12 .i8) .started (some true) with mmas := [m] }
    (opOf s).eng = .m ∧ (opOf s).stage = .started ∧ (opOf s).num = m.num ∧ s.mmaHeld m = false ∧ m.chunk + 1 < m.fmt.chunks m.k := by
  decide +kernel
theorem witness_push_delivery :
    let e : PushEnt := ⟨0, 7, 0, 0, List.replicate 16 9, false, 0, 0, 0⟩
    let s := { run [] with pushes := [e] }
    s.launch? 7 = some launch7 ∧ s.image? 5 = some image5 ∧ image5.push[0]? = some (some { prod := 0, cons := 0, logd := 4, bank := 0, goff := 0 }) ∧
      (State.ringSlot launch7 { prod := 0, cons := 0, logd := 4, bank := 0, goff := 0 } 0).isSome = true ∧ s.pushWithheld e = false ∧ (∀ c, (s.core c).halt = 0) := by
  refine ⟨by decide, by decide, by decide, by decide, by decide, fun _ => rfl⟩
theorem witness_cycles :
    State.reset.active 0 = false ∧
      (let s := { State.reset with binding := [(0, { BindEnt.reset 0 with role := 0 })] }
       s.active 0 = true ∧ (s.core 0).halt = 0 ∧ (∀ i, i < 4 → s.strand (strandKey 0 i) = State.freedStrand (strandKey 0 i) (s.strand (strandKey 0 i))) ∧
         ((s.setCore 0 { s.core 0 with halt := 1 }).core 0).halt ≠ 0 ∧ (s.setCore 0 { s.core 0 with halt := 1 }).active 0 = true) := by
  refine ⟨by decide +kernel, by decide +kernel, by decide +kernel, ?_, by decide +kernel, by decide +kernel⟩
  intro i h
  match i, h with
  | 0, _ => rfl
  | 1, _ => rfl
  | 2, _ => rfl
  | 3, _ => rfl

theorem witness_platform_events :
    State.reset.plat.bringup.fail = false ∧ State.reset.plat.thermal.level = 0 ∧
      (∀ n ∈ [1, 4], ({ State.reset with plat := { State.reset.plat with thermal := { Thermal.reset with level := n } } }).plat.thermal.level = n) ∧
      (let s := { run [] with plat := { State.reset.plat with thermal := { Thermal.reset with level := 1 } }, launches := [{ launch7 with cls := 2 }] }
       s.launch? 7 = some { launch7 with cls := 2 } ∧ (State.liveMembers { launch7 with cls := 2 }).length = 1 ∧ 1 ≤ s.plat.thermal.level ∧ s.plat.thermal.level < 4) ∧
      { launch7 with cls := 2, st := .placing }.st = .placing := by decide
theorem witness_shutdown :
    let off := { State.reset with plat := { State.reset.plat with poweredOff := true } }
    off.plat.poweredOff = true ∧ Instr.lifetimeFlush ≠ .coldReset ∧ ((paged (run [])).hctx 0).st = .live ∧ (State.reset.hctx 0).st ≠ .live := by decide
/-- Flash whose repair block marks half 0 of deck 0 as failed, and flash whose limits block is older than the version recorded. -/
def repaired : Flash :=
  { Flash.reset with repairs := [CfgBlk.shipped ((Vector.replicate 4 Health.all).set 0 ⟨~~~1#72, 0xFFFFFFFF⟩)] }
def outdated : Flash := { Flash.reset with highest := #v[0, 0, 7] }
theorem witness_boots :
    State.chainOk repaired = true ∧ ((State.blocksInUse repaired).map (fun b => b.2.1.val[0])) = some ⟨~~~1#72, 0xFFFFFFFF⟩ ∧ State.bootOk outdated = false := by decide
theorem witness_errors : State.pkind (0x800 * 64) = .hbm := by decide
theorem witness_pool_snoops :
    State.pkind (Config.poolBase / 64 * 64) = .pool ∧ State.reset.ctx.defer = false ∧ State.reset.homeFree (Config.poolBase / 64) = true ∧
      State.reset.holders (Config.poolBase / 64) = [] ∧ { State.reset with busyLines := [Config.poolBase / 64] }.homeFree (Config.poolBase / 64) = false := by decide
/-- A host line that the agent holds in M. -/
def hostHeld : State := { State.reset with agent := [(Config.hostBase / 64, ⟨.m, List.replicate 64 1⟩)] }
theorem witness_host_snoops :
    State.pkind (Config.hostBase / 64 * 64) = .host ∧ hostHeld.ctx.defer = false ∧ hostHeld.clusters = [] ∧ hostHeld.homeFree (Config.hostBase / 64) = true ∧ hostHeld.plat.bringup.fail = false ∧
      hostHeld.agent.get? (Config.hostBase / 64) = some ⟨.m, List.replicate 64 1⟩ ∧ State.reset.agent.get? (Config.hostBase / 64) = none ∧ State.reset.homeFree (Config.hostBase / 64) = true := by decide
/-- A write of a strand to a pool page that is not COH-BI waits at its line. -/
def poolWaits : State :=
  { State.reset with home := [{ addr := Config.poolBase, pclass := 2, core := 0, strand := 0, hc := 0, num := 1, reply := false, kind := .write [1] false }] }
theorem witness_outside_pool_writes :
    State.pkind Config.poolBase = .pool ∧ poolWaits.homeFree (Config.poolBase / 64) = false ∧ poolWaits.outsideMay (Config.poolBase / 64) = true ∧
      Config.poolBase % 64 + 4 ≤ 64 ∧ State.pkind 0x20000 ≠ .pool := by decide
theorem witness_outside_writes :
    State.reset.outsideMay (0x20000 / 64) = true ∧ State.reset.homeFree (0x20000 / 64) = true ∧ State.reset.ctx.defer = false ∧
      { State.reset with busyLines := [0x20000 / 64] }.outsideMay (0x20000 / 64) = true ∧ { State.reset with busyLines := [0x20000 / 64] }.homeFree (0x20000 / 64) = false ∧ State.reset.plat.bringup.fail = false ∧ 0x20000 % 64 + 4 ≤ 64 ∧
      ({ State.reset with plat := { State.reset.plat with bringup := { Bringup.reset with fail := true } } }).plat.bringup.fail = true := by decide
theorem witness_dynamic_capacity : 0x10000 % 65536 = 0 ∧ 0x10000 + 0x10000 ≤ 2 ^ 42 ∧ State.reset.leafNames 0 0x10000 0x10000 = false := by decide
/-- A leaf of context 0 names the pool device's first page: the 1 GiB leaf of the page table lies there. -/
theorem witness_named_capacity :
    let s := paged State.reset
    { s with mem := s.mem.write 0x140000 (leBytes 8 (2 ^ 63 + 2 ^ 62 + 2 ^ 60 + Config.poolBase)) }.leafNames 0 0 0x10000 = true := by decide +kernel

/-! The mailbox. -/

def ringing (s : State) (c : List Nat) : State :=
  { s with mbox := { s.mbox with
      busy := true
      cmd := Vector.ofFn (fun i : Fin 64 => (leBytes 64 (c.getD 0 0 + c.getD 1 0 * 2 ^ 8 + c.getD 2 0 * 2 ^ 16 + c.getD 3 0 * 2 ^ 64 + c.getD 4 0 * 2 ^ 192 +
        c.getD 5 0 * 2 ^ 320 + c.getD 6 0 * 2 ^ 384 + c.getD 7 0 * 2 ^ 448)).getD i.val 0) } }
theorem witness_commands :
    State.reset.mbox.busy = false ∧
      (let s := ringing State.reset [1, 0, 5]; s.mbox.busy = true ∧ s.mbox.cmd[0].toNat = 1 ∧ State.fieldsOk { hc := true } (State.cmdOf s.mbox) = false) ∧
      rung (ringing State.reset [1, 5]) 1 { hc := true } ∧ rung (ringing State.reset [2, 5]) 2 { hc := true } ∧ rung (ringing State.reset [3, 63]) 3 { hc := true } := by
  unfold rung; decide
theorem witness_destroyed_context :
    let s := ringing (paged State.reset) [2]
    rung s 2 { hc := true } ∧ (s.hctx 0).st ≠ .free ∧ s.journal.any (fun l => l.hc == 0) = false ∧
      (ringing (run []) [2]).journal.any (fun l => l.hc == 0) = true := by unfold rung; decide

/-- An image of one gang core: two halfwords, one dictionary bundle, one segment. -/
def imageBytes : List Byte :=
  leBytes 32 (0x31584741 + 1 * 2 ^ 32 + 1 * 2 ^ 56 + 6 * 2 ^ 64 + 368 * 2 ^ 128) ++
  leBytes 16 (1 + 128 * 2 ^ 32 + 4 * 2 ^ 64 + 2 * 2 ^ 96) ++ leBytes 16 (2 + 144 * 2 ^ 32 + 48 * 2 ^ 64 + 1 * 2 ^ 96) ++
  leBytes 16 (3 + 255 * 2 ^ 16 + 192 * 2 ^ 32 + 4 * 2 ^ 64 + 1 * 2 ^ 96) ++ leBytes 16 (4 + 255 * 2 ^ 16 + 208 * 2 ^ 32 + 10 * 2 ^ 64 + 5 * 2 ^ 96) ++
  leBytes 16 (9 + 255 * 2 ^ 16 + 224 * 2 ^ 32 + 96 * 2 ^ 64 + 6 * 2 ^ 96) ++ leBytes 16 (7 + 320 * 2 ^ 32 + 48 * 2 ^ 64 + 1 * 2 ^ 96) ++
  List.replicate 80 0 ++ leBytes 10 (1 + 2 * 2 ^ 16 + 3 * 2 ^ 32 + 4 * 2 ^ 48 + 5 * 2 ^ 64) ++ List.replicate 150 0
def loading (c : List Nat) : State :=
  let s := paged State.reset
  ringing { s with mem := s.mem.write 0x200000 imageBytes } c
theorem witness_reside :
    rung (loading [0x10, 0, 0, 0x200000]) 0x10 { hc := true, va1 := true, va2 := true } ∧ (State.cmdOf (loading [0x10, 0, 0, 0x200000]).mbox).va1 = 0x200000 ∧
      ((loading []).hctx 0).st = .live ∧ (loading []).home = [] ∧ (loading []).busyLines = [] ∧
      (match (loading []).buildImage 0 0x200000 0 with | .ok (i, []) => i.latency == [1, 2, 3, 4, 5] | _ => false) = true ∧
    rung (ringing State.reset [0x10]) 0x10 { hc := true, va1 := true, va2 := true } ∧ (State.reset.hctx 0).st ≠ .live := by unfold rung; decide +kernel
theorem witness_unload : ∀ s ∈ [ringing (paged State.reset) [0x11, 0, 0, 0, 0, 5], ringing (paged (run [])) [0x11, 0, 0, 0, 0, 5]],
    rung s 0x11 { hc := true, w1 := true } ∧ (State.cmdOf s.mbox).w1 < 2 ^ 32 ∧ (s.hctx 0).st ≠ .free := by unfold rung; decide
theorem witness_ptewrite :
    let s := ringing (paged State.reset) [0x20, 0, 1, 0x40000000, 0, 2 ^ 63 + 2 ^ 62 + 2 ^ 30]
    let t := ringing (paged State.reset) [0x20, 0, 1, 0x40000000, 0, 2 ^ 63 + 1]
    rung s 0x20 { hc := true, sub := true, va1 := true, w1 := true } ∧ s.entryAt 0 1 0x40000000 = some 0x140008 ∧ (s.hctx 0).st ≠ .free ∧
      s.entryOk 1 (2 ^ 63 + 2 ^ 62 + 2 ^ 30) = true ∧ s.homeFree (0x140008 / 64) = true ∧ s.agent = [] ∧ State.pkind (0x140008 / 64 * 64) ≠ .host ∧
    rung t 0x20 { hc := true, sub := true, va1 := true, w1 := true } ∧ t.entryAt 0 1 0x40000000 = some 0x140008 ∧ t.entryOk 1 (2 ^ 63 + 1) = false := by
  unfold rung; decide +kernel
theorem witness_tlbdrop : ∀ n ∈ [0, 1],
    rung (ringing (paged (run [])) [0x21, 0, n]) 0x21 { hc := true, sub := true, va1 := true } ∧ ((paged (run [])).hctx 0).st ≠ .free ∧
      (ringing (paged (run [])) [0x21, 0, n]).walks = [] ∧ (ringing (paged (run [])) [0x21, 0, n]).home = [] ∧
      (∀ e ∈ (ringing (paged (run [])) [0x21, 0, n]).strands, e.2.withheld = []) := by unfold rung; decide

theorem witness_medreg :
    let s := ringing (paged State.reset) [0x30, 0, 0, 0, 0, 0x400000, 2 + 4 * 2 ^ 32, 4]
    rung s 0x30 { hc := true, w1 := true, w2 := true, w3 := true } ∧ (State.cmdOf s.mbox).w1 = 0x400000 ∧ (State.cmdOf s.mbox).w2 = 2 + 4 * 2 ^ 32 ∧
      (State.cmdOf s.mbox).w3 = 4 ∧ (s.hctx 0).st = .live ∧ (s.hctx 0).med.count = 0 ∧ s.ctxs.any (fun e => e.1 != 0 && e.2.med.count != 0) = false ∧
      (match s.arenaPages 0 0x400000 2 4 with
        | some ps => State.distinct (ps.map (fun p => p.2.1) ++ s.blks.map (fun e => e.2.frame))
        | none => false) = true := by unfold rung; decide +kernel
theorem witness_pfxremove :
    let s := ringing { tabled [] with pfx := [(0x77, ⟨0x77, 0, 3, [2]⟩)] } [0x31, 0, 0, 0, 0, 0x77]
    rung s 0x31 { hc := true, w1 := true } ∧ s.findPfx 0 0x77 = some (0x77, ⟨0x77, 0, 3, [2]⟩) ∧
      rung (ringing (tabled []) [0x31, 0, 0, 0, 0, 0x77]) 0x31 { hc := true, w1 := true } ∧ (tabled []).findPfx 0 0x77 = none := by unfold rung; decide +kernel
def openRecord : Nat := 2 ^ 397 + 4 * 2 ^ 408 + 4 * 2 ^ 412 + 1 * 2 ^ 416 + 9 * 2 ^ 704 + 0x230000 * 2 ^ 736 + 0x220000 * 2 ^ 808 + 0x210000 * 2 ^ 880 + 0x200000 * 2 ^ 952
theorem witness_streamopen :
    let s := ringing { paged State.reset with mem := (paged State.reset).mem.write 0x240000 (leBytes 128 openRecord) } [0x32, 0, 0, 0x240000, 0, 3]
    rung s 0x32 { hc := true, va1 := true, w1 := true } ∧ (State.cmdOf s.mbox).va1 = 0x240000 ∧ (State.cmdOf s.mbox).w1 = 3 ∧ (s.hctx 0).st = .live ∧ s.home = [] ∧ s.busyLines = [] ∧
      s.sysRead 0 0x240000 128 = some (leBytes 128 openRecord) ∧ (s.strm 3).valid = false := by unfold rung; decide +kernel
theorem witness_open_record :
    let v := leNat (leBytes 128 openRecord)
    let e := State.openEntry v
    v / 2 ^ 397 % 2 = 1 ∧ e.hc = 0 ∧ v % 2 ^ 397 = 0 ∧ e.snb ≤ 16384 ∧ 4 ≤ e.flog ∧ e.flog ≤ 12 ∧ 4 ≤ e.dlog ∧ e.dlog ≤ 12 ∧ e.stva.toNat % 64 = 0 ∧
      e.fva.toNat % 128 = 0 ∧ e.dva.toNat % 128 = 0 := by decide +kernel
theorem witness_streamclose : ∀ s ∈ [ringing (streaming strm3 []) [0x33, 0, 0, 0, 0, 3], ringing (paged (run [])) [0x33, 0, 0, 0, 0, 3]],
    rung s 0x33 { hc := true, w1 := true } ∧ (State.cmdOf s.mbox).w1 < 4096 := by unfold rung; decide
theorem witness_keyadd :
    let s := ringing (paged State.reset) [0x40, 0, 31, 0x240000]
    rung s 0x40 { sub := true, va1 := true } ∧ (State.cmdOf s.mbox).sub < 32 ∧ s.images.any (fun g => g.keySlot == some 31) = false ∧ s.home = [] ∧ s.busyLines = [] ∧
      (s.sysRead 0 0x240000 1952).isSome = true := by unfold rung; decide +kernel
theorem witness_clusterreset : rung (ringing State.reset [0x50, 0, 0, 0, 0, 31]) 0x50 { w1 := true } := by unfold rung; decide
theorem witness_dcaccept : rung (ringing State.reset [0x51, 0, 15, 0, 0, 0x10000, 0x10000]) 0x51 { sub := true, w1 := true, w2 := true } ∧
    State.extentOk 0x10000 0x10000 = true := by unfold rung; decide
theorem witness_dcrelease : ∀ es ∈ [[], [(0, 0x20000)]],
    let s := ringing { State.reset with pool := State.reset.pool.set 3 { PoolDev.reset 3 with extents := es } } [0x52, 0, 3, 0, 0, 0x10000, 0x10000]
    rung s 0x52 { sub := true, w1 := true, w2 := true } ∧ State.covers (s.poolDev 3).extents 0x10000 0x10000 = !es.isEmpty ∧ s.leafNames 3 0x10000 0x10000 = false := by
  unfold rung; decide +kernel
/-- The same extent while a leaf names the device's memory. -/
theorem witness_named_dcrelease :
    let z := paged State.reset
    let s := ringing { z with pool := z.pool.set 0 { PoolDev.reset 0 with extents := [(0, 0x20000)] }
                              mem := z.mem.write 0x140000 (leBytes 8 (2 ^ 63 + 2 ^ 62 + 2 ^ 60 + Config.poolBase)) } [0x52, 0, 0, 0, 0, 0x10000, 0x10000]
    rung s 0x52 { sub := true, w1 := true, w2 := true } ∧ State.covers (s.poolDev 0).extents 0x10000 0x10000 = true ∧ s.leafNames 0 0x10000 0x10000 = true := by
  unfold rung; decide +kernel
theorem witness_liferead :
    let s := ringing (paged State.reset) [0x60, 0, 0, 0x240000]
    rung s 0x60 { va1 := true } ∧ (State.cmdOf s.mbox).va1 % 8 = 0 ∧ (s.sysChunks 0 0x240000 160).all (fun x => s.homeFree (x.1.1 / 64)) = true ∧ ((s.tickMinutes.sysPa 0 0x240000 true).isSome) = true := by unfold rung; decide +kernel

/-! Streams, records and placement. -/

/-- The part once its stacks are trained and deck 0 has joined. -/
def brought (s : State) : State := { s with plat := { s.plat with bringup := { Bringup.reset with hbm := true, decks := 1 } } }
/-- A launch record for image 5. -/
def record5 : Nat := 2 ^ 32 + 2 ^ 38 + 5 * 2 ^ 128
/-- Stream 0 of context 0 in the first GiB: a ring with its TAIL word, or a notify queue with its template. -/
def serving (mode : BitVec 2) (tail : Nat) : State :=
  let s := brought (paged (run []))
  { (s.modHctx 0 (fun c => { c with streams := c.streams.set 0 ⟨0x250000, 0x260000, 0x270000, 0, 0, 4, mode, 0, false, true, false⟩ })) with
    mem := if mode = 1 then (s.mem.write 0x260000 (leBytes 4 tail)).write 0x250000 (leBytes 128 record5)
      else (s.mem.write 0x250000 (leBytes 8 tail)).write 0x270000 (leBytes 128 record5) }
theorem witness_served_streams : (∀ m ∈ [1, 3], ∀ tail ∈ [0, 1, 17],
      let s := serving (BitVec.ofNat 2 m) tail
      s.serves 0 = true ∧ ((s.hctx 0).streams[0].stopping = false) ∧ (s.hctx 0).streams[0].signal = true ∧ (s.home = [] ∧ s.busyLines = [] ∧ s.replies = []) ∧ (s.hctx 0).streams[0].mode = BitVec.ofNat 2 m ∧ s.owesAdmin 0 0 = false ∧
        (s.sysRead 0 0x260000 4).isSome = true ∧ (s.sysRead 0 0x250000 8).isSome = true) ∧ State.reset.serves 0 = false ∧
      2 ^ 4 < (17#32 - 0).toNat ∧ (StreamD.reset.stopping = false ∧ StreamD.reset.signal = false ∧ StreamD.reset.head = StreamD.reset.lastTail) := by decide +kernel
theorem witness_ring_record :
    let s := (serving 1 1).modStream 0 0 (fun d => { d with lastTail := 1, signal := false })
    s.sysRead 0 0x250000 128 = some (leBytes 128 record5) ∧
      (match s.takeRecord 0 0 (leNat (leBytes 128 record5)) false with
        | some m => (m.hctx 0).streams[0].head == 0 && (m.hctx 0).streams[0].lastTail == 1
        | none => false) = true := by decide +kernel
theorem witness_notify_record :
    let s := (serving 3 1).modStream 0 0 (fun d => { d with lastTail := 1, signal := false })
    s.sysRead 0 (0x250000 + 128) 64 = some (List.replicate 64 0) ∧ s.sysRead 0 0x270000 128 = some (leBytes 128 record5) ∧
      (match s.takeRecord 0 0 (State.buildRecord (leNat (leBytes 128 record5)) 0) true with
        | some m => (m.hctx 0).streams[0].head == 0 && (m.hctx 0).streams[0].lastTail == 1 &&
            ((m.modStream 0 0 (fun d => { d with head := d.head + 1 })).sysWrite 0 (0x250000 + 64) (leBytes 8 1)).isSome
        | none => false) = true := by decide +kernel

/-- A launch that has ended, of a context whose rings have room. -/
def ended (v : LStatus) : State :=
  { paged State.reset with launches := [{ launch7 with status := some v, members := [] }] }
theorem witness_completions :
    (∀ v ∈ [LStatus.done, .replayedDone, .failed 0x10, .lost],
      (ended v).nextOfStream 0 1 = some { launch7 with status := some v, members := [] } ∧
        (ended v).unperformed { launch7 with status := some v, members := [] } = false ∧ ((ended v).hctx 0).waiting = [] ∧ ((ended v).home = [] ∧ (ended v).busyLines = []) ∧
        ((ended v).ringPut 0 0 (State.completionBytes { launch7 with status := some v, members := [] } v)).isSome = true) ∧ (ended .done).nextOfStream 0 2 = none := by decide +kernel
theorem witness_fault_records :
    let s := (paged (run [])).modHctx 0 (fun c => { c with waiting := [{ faultRec0 with launch := none }] })
    let t := (run []).modHctx 0 (fun c => { c with waiting := [faultRec0] })
    (s.hctx 0).waiting = [{ faultRec0 with launch := none }] ∧ (s.writeFault 0 { faultRec0 with launch := none }).isSome = true ∧
      (t.hctx 0).waiting = [faultRec0] ∧ t.writeFault 0 faultRec0 = none ∧ ((run []).hctx 0).waiting = [] := by decide +kernel
theorem witness_watchdog_and_errors :
    (run []).launch? 7 = some launch7 ∧ launch7.st = .running ∧ launch7.status = none ∧ LState.ready ≠ .running ∧ (∀ e ∈ State.liveMembers launch7, ((run []).core e.2.core).halt = 0) ∧
      (∃ e ∈ State.liveMembers launch7, (((run []).setCore 0 { (run []).core 0 with halt := 1 }).core e.2.core).halt ≠ 0) ∧
      ((paged (run [])).hctx 0).st = .live ∧ ((run []).hctx 0).st ≠ .live := by decide

/-- Core 0 of a joined deck is bound; a launch of image 5 that has no strand yet. -/
def waiting7 (st : LState) (w : Bool) : Launch := { launch7 with st := st, members := [], waited := w }
def placeable (st : LState) (level : Nat) : State :=
  let s := brought (paged State.reset)
  { s with
    binding := [(0, { BindEnt.reset 0 with role := 0, halflo := 0, halfhi := 1 })]
    clusters := [(0, { Cluster.reset with banks := [(0, owned), (1, owned)] })]
    plat := { s.plat with thermal := { Thermal.reset with level := level } }
    images := [image5], launches := [waiting7 st false] }
theorem witness_placement :
    (placeable .ready 0).shed 1 = false ∧ (placeable .ready 3).shed 1 = true ∧ ((placeable .ready 0).hctx 0).pause = false ∧
      ((placeable .ready 0).findPlace false (waiting7 .ready false)).isSome = true ∧
      ({ placeable .ready 0 with launches := [waiting7 .ready true] }.findPlace false (waiting7 .ready true)).isSome = true ∧
      State.reset.launches = [] := by decide +kernel
/-- The launch placed: its one member stands on strand 0 of core 0. -/
def placed7 (susp : Bool) (rec_ : List Byte) : Launch :=
  { launch7 with st := .placing, everSusp := susp, members := launch7.members.map (fun m => { m with record := rec_ }) }
def placed (susp : Bool) (rec_ : List Byte) : State :=
  let s := placeable .placing 0
  { s with launches := [placed7 susp rec_], strands := [(0, { Strand.reset 0 with life := .placed, launch := 7, image := 5, tn := 4, wsize := 256 })] }
theorem witness_start :
    (placed false []).launch? 7 = some (placed7 false []) ∧ (placed7 false []).st = .placing ∧ (placed7 false []).status = none ∧
      (placed false []).gangReady (placed7 false []) = true ∧ (∀ e ∈ State.liveMembers (placed7 false []), (placed false []).parksUnder (State.Member.key e.2) = []) ∧
      (∀ a ∈ State.liveMembers (placed7 false []), ∀ b ∈ State.liveMembers (placed7 false []), State.Member.key a.2 = State.Member.key b.2 → a = b) ∧
      State.liveMembers (placed7 false []) ≠ [] := by decide +kernel
theorem witness_resumption :
    (∀ r ∈ [List.replicate 64 (0 : Byte), []],
      let l := placed7 true r
      let s := placed true r
      s.launch? 7 = some l ∧ l.everSusp = true ∧ (∀ e ∈ State.liveMembers l, s.parksUnder (State.Member.key e.2) = []) ∧ s.gangReady l = true ∧
        (s.home = [] ∧ s.busyLines = []) ∧ (State.liveMembers l).length = 1 ∧ (∀ e ∈ State.liveMembers l, s.recordKept (State.Member.key e.2) e.2 = !r.isEmpty)) := by decide +kernel
theorem witness_dependences :
    let l := { launch7 with st := .suspended }
    let m := { launch7 with st := .suspended, members := launch7.members.map (fun m => { m with dep := some 0x30000000 }) }
    { run [] with launches := [l] }.launch? 7 = some l ∧ l.members.all (({ run [] with launches := [l] }).depMet l) = true ∧
      { run [] with launches := [m] }.launch? 7 = some m ∧ m.members.all (({ run [] with launches := [m] }).depMet m) = false := by decide +kernel

/-! What the host reads. -/

/-- HALTSTAT (R459) at 0x4010: 0 while the core runs; level 1 with nothing in progress is QUIET. BRINGUP (R473) at 0x1000: all stacks trained and deck 0 joined. -/
theorem test_host_reads_of_halt_and_bring_up :
    (State.reset.readBar 0x4010, (State.reset.setCore 0 { State.reset.core 0 with halt := 1 }).readBar 0x4010) = (0, 9) ∧
      (brought State.reset).readBar 0x1000 = 0x21 := by decide +kernel
/-- CONTROL (R462) of context 0 at 0x201E8: STATE is LIVE, TLBGRANT is set; a word beyond the block's fields reads zero. -/
theorem test_host_reads_of_a_context :
    (paged State.reset).readBar 0x201E8 = 0x10002 ∧ (paged State.reset).readBar 0x201C0 = 0x100000 ∧ (paged State.reset).readBar 0x20280 = 0 := by decide +kernel

theorem witness_host_writes :
    (16 < 64 ∧ 16 % 8 = 0) ∧ (0x1000 : BitVec 64).toNat % 64 = 0 ∧
      ((run []).hctx 0).pend.find? (fun q => q.handle == (5 : BitVec 64).toNat % 2 ^ 32) = none ∧
      ((pended []).hctx 0).pend.find? (fun q => q.handle == (0x200000100 : BitVec 64).toNat % 2 ^ 32) = some ⟨0, 0x100, 8, 7, .trap 0 1⟩ ∧
      ((pended []).core 0).halt = 0 ∧ (0x200000100 : BitVec 64).getLsbD 32 = false ∧
      (((pended []).setCore 0 { (pended []).core 0 with halt := 1 }).core 0).halt ≠ 0 ∧
      (∀ j, j < 64 → ((run []).hctx j).resumes = []) := by
  refine ⟨by decide, by decide, by decide, by decide, by decide, by decide, by decide, fun _ _ => rfl⟩
/-- Stream 1 is off and may start; stream 0 runs, with every record taken. -/
def modes : State := (paged State.reset).modHctx 0 (fun c => { c with streams :=
  (c.streams.set 0 ⟨0x250000, 0x260000, 0x270000, 0, 0, 4, 1, 0, false, false, false⟩).set 1 ⟨0x250000, 0x260000, 0x270000, 0, 0, 4, 0, 0, false, false, false⟩ })
theorem witness_stream_modes :
    (modes.hctx 0).streams[1].mode = 0 ∧ State.modeOk (modes.hctx 0).streams[1] 1 = true ∧ modes.modeReaches 0 (modes.hctx 0).streams[1] 1 = true ∧
      State.modeOk (modes.hctx 0).streams[1] 2 = false ∧ (modes.hctx 0).streams[0].mode ≠ 0 ∧
      (modes.hctx 0).streams[0].head = (modes.hctx 0).streams[0].lastTail ∧ (2 : BitVec 2) ≠ 0 := by decide +kernel
theorem witness_pause :
    (run []).launch? 7 = some launch7 ∧ launch7.hc = 0 ∧ launch7.st = .running ∧ launch7.status = none ∧ State.liveMembers launch7 ≠ [] ∧ { launch7 with st := .placing }.st = .placing := by decide

/-! The binder. -/

theorem witness_wake_tests :
    (State.reset.deck 0).tests.contains (.half 71) = true ∧ (State.reset.deck 0).health.halfOk 71 = true ∧ State.reset.plat.bringup.fail = false ∧
      (State.reset.deck 0).job = none ∧ (State.reset.deck 0).reqs = [.bringup] ∧ (State.reset.deck 0).tests ≠ [] ∧ (State.reset.deck 0).health.feOk 31 = true ∧ State.reset.joined 0 = false := by
  decide +kernel
/-- Deck 0 has passed its wake tests; half 5 and front end 3 failed them. -/
def tested : State :=
  State.reset.modDeck 0 (fun k => { k with tests := [], health := ⟨k.health.halfok &&& ~~~(1#72 <<< 5), k.health.feok &&& ~~~(1#32 <<< 3)⟩ })
theorem witness_binding :
    (tested.deck 0).job = none ∧ (tested.deck 0).reqs = [.bringup] ∧ (tested.deck 0).tests = [] ∧ (tested.deck 0).tests.contains (.half 5) = false ∧ (tested.deck 0).health.feOk 3 = false ∧
      (bindDeck (tested.deck 0).health).length = 31 ∧ (bindDeck (tested.deck 0).health).all (fun b => b.1 != 3) = true ∧
      (∀ b ∈ bindDeck (tested.deck 0).health, b.1 < 32 ∧ ((bindDeck (tested.deck 0).health).filter (fun e => e.1 == b.1)).length = 1 ∧ b.2.1 < 72 ∧ b.2.2 < 72) := by
  decide +kernel
/-- Cluster 0 of a joined deck is marked for width 2, and its binder has been asked. -/
def rebinding : State :=
  let s := (brought State.reset).modDeck 0 (fun k => { k with reqs := [.rebind 0], tests := [] })
  { s.setCluster 0 { Cluster.reset with mark := some 2 } with
    binding := (List.range 4).map (fun j => (j, { BindEnt.reset j with bgen := 1, role := 0, halflo := BitVec.ofNat 7 (2 * j), halfhi := BitVec.ofNat 7 (2 * j + 1) })) }
theorem witness_rebinding :
    (State.reset.cluster 0).mark = none ∧ (rebinding.cluster 0).mark = some 2 ∧ rebinding.clusterBusy 0 = false ∧ (rebinding.deck 0).reqs = [.rebind 0] ∧
      (rebinding.deck 0).job = none ∧ (∀ j, j < 4 → 2 ^ (rebinding.bindEnt (4 * 0 + j)).wcode.toNat = (rebinding.cluster 0).width) ∧ rebinding.partialCluster 0 = false := by
  decide +kernel
/-- The two steps of a rebind (R36): position 1 is UNBOUND under generation 2, then a member of driver 0 under generation 3. -/
theorem test_a_rebind_writes_its_entries_twice :
    let t := stateOf (exec (.rebind 0 none) rebinding) rebinding
    let u := stateOf (exec (.rebind 0 none) t) t
    ((t.bindEnt 1).role, (t.bindEnt 1).bgen, (t.cluster 0).width, (t.deck 0).job.isSome) = (2, 2, 1, true) ∧
      ((u.bindEnt 1).role, (u.bindEnt 1).bgen, (u.bindEnt 1).driver, (u.cluster 0).width, (u.deck 0).job.isSome) = (1, 3, 0, 2, false) := by decide +kernel
theorem witness_power_gating :
    rebinding.joined 0 = true ∧ (rebinding.deck 0).job = none ∧ rebinding.halfUsed 0 71 = false ∧ State.reset.joined 0 = false := by decide +kernel

/-! Steps. -/

/-- ADD x5, x5, −3 fetched by strand 0 of core 0, as its only bundle. -/
def fetched : State := (State.reset.withFetchWord 32 0x4100A2FD).modStrand 0 (fun t => { t with segFresh := false })
theorem witness_poised_strand : poised fetched 0 0 where
  sched := rfl
  power := rfl
  turn := rfl
  active := by decide +kernel
  core := by decide +kernel
  others := by
    intro i h h0
    match i, h, h0 with
    | 1, _, _ => rfl
    | 2, _, _ => rfl
    | 3, _, _ => rfl
  runs := by decide +kernel
  still := by refine ⟨rfl, rfl, rfl, rfl, rfl, rfl⟩
  plain := by refine ⟨rfl, rfl, rfl, rfl, rfl⟩
  loops := by decide +kernel
  entries := by decide +kernel
def addOp : SlotOp := ⟨0, 0x4100A2FD, .addImm g0 5 5 (.short (-3))⟩
theorem witness_step_performs :
    fetched.fetch 0 = .bundle 1 (bundleOf 0 0x4100A2FD) ∧ decodeBundle (bundleOf 0 0x4100A2FD) = .ok ⟨BitVec.ofNat 32 (2 ^ 31)⟩ [addOp] ∧
      (let h : Header := ⟨BitVec.ofNat 32 (2 ^ 31)⟩
       h.seg = false ∧ h.yield = false ∧ (∀ i, i < 8 → h.waits i = false) ∧ suppressed (fetched.strand 0) h = false) ∧
      engineOf addOp.slot addOp.instr = none ∧ addOp.instr.isCounter = false ∧ addOp.instr.landing? = none ∧ addOp.instr.guard? = some g0 ∧
      (asStrand fetched 0).holds g0 = true := by decide +kernel
theorem witness_step_without_checks : ∀ z : State, z.slotWait addOp.instr = false ∧ z.issueStop addOp.instr = none := fun _ => ⟨rfl, rfl⟩
theorem witness_step_effect :
    let m := stateOf (exec addOp.instr (issuing fetched 0 0 addOp)) fetched
    let u := fetched.strand 0
    let w := m.strand 0
    w.life = .running ∧ w.rolling = none ∧ w.ops = [] ∧ w.redirects = [] ∧ w.vland = [] ∧ w.pc = u.pc ∧ w.marked = none ∧
      w.launch = u.launch ∧ w.image = u.image ∧ w.member = u.member ∧ m.images = fetched.images ∧ (∀ l ∈ w.levels.toList, l.run = false) ∧
      w.front.x[5] = 0xFFFFFFFFFFFFFFFD := by decide +kernel

/-- VADD.F32 v3, v1, v2 fetched in slot V0. -/
def vaddWord : Nat := ((encode (.vadd g0 3 1 2 1 .f32 .rup)).map (·.2.1)).getD 0
def fetchedLanes : State := (State.reset.withFetchWord 48 vaddWord).modStrand 0 (fun t => { t with segFresh := false })
def vaddOp : SlotOp := ⟨5, vaddWord, .vadd g0 3 1 2 1 .f32 .rup⟩
theorem witness_poised_lanes : poised fetchedLanes 0 0 where
  sched := rfl
  power := rfl
  turn := rfl
  active := by decide +kernel
  core := by decide +kernel
  others := by
    intro i h h0
    match i, h, h0 with
    | 1, _, _ => rfl
    | 2, _, _ => rfl
    | 3, _, _ => rfl
  runs := by decide +kernel
  still := by refine ⟨rfl, rfl, rfl, rfl, rfl, rfl⟩
  plain := by refine ⟨rfl, rfl, rfl, rfl, rfl⟩
  loops := by decide +kernel
  entries := by decide +kernel
theorem witness_step_queues :
    fetchedLanes.fetch 0 = .bundle 1 (bundleOf 5 vaddWord) ∧ decodeBundle (bundleOf 5 vaddWord) = .ok ⟨BitVec.ofNat 32 (2 ^ 31)⟩ [vaddOp] ∧
      engineOf vaddOp.slot vaddOp.instr = some .v0 ∧ vaddOp.instr.landing? = none ∧ vaddOp.instr.token? = none ∧ vaddOp.instr.tile? = none ∧
      vaddOp.instr.guard? = some g0 ∧ (asStrand fetchedLanes 0).holds g0 = true ∧ unprotects vaddOp.instr = false ∧ isExit vaddOp.instr = false ∧
      writesOcc vaddOp.instr = false := by decide +kernel
theorem witness_queued_without_checks :
    (∀ z : State, z.slotWait vaddOp.instr = false ∧ z.issueStop vaddOp.instr = none) ∧ laneEngine .v0 ∧
      (∀ q : QOp, q.instr = vaddOp.instr → State.isSuspend q = false) ∧
      (∀ z : State, z.enterMma 1 vaddOp.instr = z ∧ z.reserve vaddOp.instr = z) :=
  ⟨fun _ => ⟨rfl, rfl⟩, trivial, fun q h => by unfold State.isSuspend; rw [h]; rfl, fun _ => ⟨rfl, rfl⟩⟩

theorem witness_next_event :
    State.reset.schedule = [] ∧ State.reset.plat.poweredOff = false ∧ State.reset.nextEvent = some (.selectorCycle 0) ∧ encode (.selectorCycle 0) = none ∧
      ({ State.reset with schedule := [.add g0 3 1 2] }).schedule = [.add g0 3 1 2] ∧ (encode (.add g0 3 1 2)).isSome = true := by
  refine ⟨rfl, rfl, rfl, rfl, rfl, rfl⟩
theorem witness_no_event : { State.reset with nextCore := 100000 }.nextEvent = none := by decide +kernel
theorem witness_unperformed_slots :
    let u := run []
    let pending := u.modMe (fun t => { t with pend := { t.pend with x := t.pend.x.set 1 true } })
    (Instr.add g0 3 1 2).guard? = some g0 ∧ pending.ctx.admitted = false ∧ pending.pendingWait false (.add g0 3 1 2) = true ∧
      u.pendingWait false (.add ⟨false, 3⟩ 3 1 2) = false ∧ (Instr.add ⟨false, 3⟩ 3 1 2).always = false ∧ u.holds ⟨false, 3⟩ = false ∧
      (mem []).issueStop (.ld g0 .d 3 1 (.long 5 2)) = some (.trap 6 0) ∧ u.issueStop (.kvlook g0 3 1 2) = some .violation ∧
      u.launch? 7 = some launch7 := by decide +kernel
theorem witness_round_trip : (encode (.cmrg g0 6 7)).isSome = true ∧ (Instr.cmrg g0 6 7).wf = true ∧ 0x0300030E < 2 ^ SlotKind.x.width ∧
    decodeSlot .x 0x0300030E none = some (.cmrg g0 6 7) := by decide
theorem witness_memory : Mem.wf [(5, 1), (9, 2)] = true ∧ Mem.wf [] = true := by decide
theorem no_jobs_at_reset (d : Nat) : (State.reset.deck d).job = none := by
  by_cases hd : d < 4
  · exact (by decide +kernel : ∀ d, d < 4 → (State.reset.deck d).job = none) d hd
  · unfold State.deck
    rw [List.getD_eq_default _ _ (by simp; omega)]
    rfl
theorem witness_kept_invariant : Keeps { State.reset with nextCore := 100000 } ∧ goesTo (step { State.reset with nextCore := 100000 }) (fun t => t.nextCore == 0) = true := by
  refine ⟨{ mem := rfl, widths := fun c => ?_, marks := fun c w h => ?_, wcodes := fun n => ?_, jobs := ?_, launches := fun l h => ?_, images := fun l h => ?_, idle := rfl },
    by decide +kernel⟩
  · exact (by decide : Cluster.reset.width ≤ 4)
  · exact absurd (show Cluster.reset.mark = some w from h) (by intro h; cases h)
  · exact (by decide : (0 : BitVec 2).toNat ≤ 2)
  · intro d j h
    exact absurd ((no_jobs_at_reset d).symm.trans h) nofun
  · exact absurd (show l ∈ ([] : List Launch) from h) (List.not_mem_nil)
  · exact absurd (show l ∈ ([] : List Image) from h) (List.not_mem_nil)

/-! ### Witnesses of the clauses on parks, copies on write, turns and starts -/

/-- Nothing waits and nothing is busy at the homes of the states of the commands, the records and the fault queue. -/
theorem witness_free_homes : ∀ s ∈ ([ringing (paged State.reset) [2], ringing (paged State.reset) [0x20, 0, 1, 0x40000000, 0, 2 ^ 63 + 2 ^ 62 + 2 ^ 30],
      ringing (paged State.reset) [0x30, 0, 0, 0, 0, 0x400000, 2 + 4 * 2 ^ 32, 4], ringing { tabled [] with pfx := [(0x77, ⟨0x77, 0, 3, [2]⟩)] } [0x31, 0, 0, 0, 0, 0x77],
      ringing (streaming strm3 []) [0x33, 0, 0, 0, 0, 3], ringing (paged State.reset) [0x60, 0, 0, 0x240000], ended .done, paged (run []), placed true []] : List State),
    s.home = [] ∧ s.busyLines = [] := by decide +kernel

/-- Whether a tile's or a bank's place for a park is free on core 0 (R249). -/
def tileOpen (s : State) (t u : Nat) : Bool :=
  !(List.range 4).any (fun i => (s.strand i).parks.any (fun q => q.2.loc == 1 && q.2.tile == t && q.2.sub == u)) &&
  (List.range 4).all (fun i => (s.strand i).life == .free || decide (t < (s.strand i).tb ∨ (s.strand i).tb + (s.strand i).tn ≤ t))
def bankOpen (s : State) (b u : Nat) : Bool :=
  (s.strand b).life == .free && !(List.range 4).any (fun i => (s.strand i).parks.any (fun q => q.2.loc == 2 && q.2.bstrand == b && q.2.sub == u))
/-- v5 has the first free place of tile 4; the strand's window takes every tile; no strand is free, and v3's slot of the save area is mapped. -/
def spills (n : Nat) : State :=
  let s := mem []
  let full := s.setMe { s.me with tn := 32 }
  match n with
  | 0 => s.setMe { s.me with parks := [(5, ⟨1, 0, 4, 0, Vector.replicate 512 1⟩)] }
  | 1 => full
  | _ => { full with
      strands := full.strands ++ (List.range 3).map (fun i => (i + 1, { Strand.reset 0 with life := .running }))
      clusters := [(0, { full.cluster 0 with tlb := [⟨0, full.spillVa 0 3 / 65536, 0x40000, 0, true, false⟩] })] }
theorem witness_first_parks :
    (∀ n ∈ [0, 1, 2], performs (.spill g0 3) g0 (spills n) ∧ (spills n).me.parks.get? 3 = none) ∧
      (tileOpen (spills 0) 4 1 = true ∧ ∀ t ∈ List.range 32, ∀ u ∈ List.range 32, tileOpen (spills 0) t u = true → 4 < t ∨ (4 = t ∧ 1 ≤ u)) ∧
      ((∀ t ∈ List.range 32, ∀ u ∈ List.range 32, tileOpen (spills 1) t u = false) ∧ bankOpen (spills 1) 1 0 = true ∧
        ∀ b ∈ List.range 4, ∀ u ∈ List.range 32, bankOpen (spills 1) b u = true → 1 ≤ b) := by unfold performs; decide +kernel
theorem witness_parks_in_memory :
    (∀ t ∈ List.range 32, ∀ u ∈ List.range 32, tileOpen (spills 2) t u = false) ∧ (∀ b ∈ List.range 4, ∀ u ∈ List.range 32, bankOpen (spills 2) b u = false) ∧
      (spills 2).spillVa 0 3 % 65536 + 4 * (spills 2).lanes ≤ 65536 ∧
      (spills 2).tlbHit 0 0 ((spills 2).spillVa 0 3) = some ⟨0, (spills 2).spillVa 0 3 / 65536, 0x40000, 0, true, false⟩ ∧ (spills 2).linePoison = [] := by
  decide +kernel
/-- v3 lies in its slot of the save area. -/
def inMemory : State := (spills 2).setMe { (spills 2).me with parks := [(3, ⟨3, 0, 0, 0, Vector.replicate 512 7⟩)] }
theorem witness_fill_from_memory :
    performs (.fill g0 3 (.short 1)) g0 inMemory ∧ performs (.spill g0 3) g0 inMemory ∧ (inMemory.me.parks.get? 3).map (·.loc) = some 3 := by
  unfold performs; decide +kernel
/-- FILL of a park in memory lands its copy. -/
theorem test_fill_from_memory : (after (.fill g0 3 (.short 1)) inMemory).me.landings.map (·.data) = [some (.v (Vector.replicate 512 7))] := by decide +kernel

/-- The cached line holds poison: of device HBM, and of the pool. -/
def soiled (line : Nat) : State :=
  let s := cached [(1, 64)]
  { s with clusters := [(0, { s.cluster 0 with tlb := [⟨0, 1, line * 64, 3, true, false⟩], lines := [(line, ⟨List.replicate 64 7, 2, 3, 0, 0, 64, true⟩)] })] }
theorem witness_flush_of_poison : ∀ line ∈ [0x800, Config.poolBase / 64],
    performs (.flush g0 1 3) g0 (soiled line) ∧ (soiled line).cachedIn ((soiled line).ea 3 0) 64 = [(line, ⟨List.replicate 64 7, 2, 3, 0, 0, 64, true⟩)] ∧
      (soiled line).homeFree line = true ∧ (State.pkind (line * 64) = .hbm ∨ State.pkind (line * 64) = .pool) := by unfold performs; decide +kernel

theorem witness_exit_of_one_of_two :
    performs (.exit g0) g0 paired ∧ settled paired ∧ paired.mmas = [] ∧ paired.me.held = [] ∧ paired.entryOwed 0 = false ∧
      paired.me.tokens.all (fun t => t.st != .armed && t.st != .faulted) = true ∧ paired.launch? 7 = some pair7 ∧ pair7.status = none ∧
      ((State.liveMembers pair7).filter (fun e => e.1 != paired.me.member)).map (fun e => State.Member.key e.2) = [4] ∧ (paired.strand 4).life ≠ .rendezvous := by
  unfold performs settled; decide +kernel
/-- EXIT of one member of two: the launch runs on with the other. -/
theorem test_exit_of_one_of_two :
    (after (.exit g0) paired).launches.map (fun l => (l.status, l.members.map (·.exited))) = [(none, [true, false])] := by decide +kernel

/-- The sequence's last block is full; shared; its successor is mapped; or no block is free. -/
def filledUp : State := { tabled [] with blks := (tabled []).blks.set 2 { blk2 with fill := 16 } }
def sharedUp : State := { tabled [] with blks := (tabled []).blks.set 2 { blk2 with ref := 2 } }
def gapped (l : Nat) : State := { filledUp with slots := filledUp.slots.set (MKey.mk 0 9 l).hash ⟨some (⟨0, 9, l⟩, 4), 0⟩ }
def drained (s : State) : State := s.modHctx 0 (fun c => { c with med := { c.med with nfree := 0 } })
theorem witness_appended_blocks :
    filledUp.mapped 0 9 1 = none ∧ filledUp.mapped 0 9 0 = some 2 ∧ (filledUp.blk 2).fill = 16 ∧ filledUp.mapped 0 9 2 = none ∧
      (filledUp.takeBlock 0).map (·.1) = some 3 ∧ ((filledUp.takeBlock 0).bind (fun e => e.2.insertMap ⟨0, 9, 1⟩ 3)).isSome = true ∧
      (filledUp.blk 3).st ≠ .retired ∧ (filledUp.med 0).freehead = 3 ∧ (filledUp.med 0).nfree ≠ 0 ∧
      (gapped 2).mapped 0 9 2 = some 4 ∧ (gapped 2).mapped 0 9 1 = none ∧ (gapped 1).mapped 0 9 1 = some 4 ∧
      (tabled []).mapped 0 9 1 = none ∧ ((tabled []).blk 2).fill < 16 ∧ ((drained filledUp).med 0).nfree = 0 ∧ ((drained filledUp).takeBlock 0).isNone = true := by decide +kernel
theorem witness_copied_block :
    sharedUp.mapped 0 9 0 = some 2 ∧ sharedUp.mapped 0 9 1 = none ∧ (sharedUp.blk 2).ref ≠ 1 ∧ (sharedUp.blk 2).fill + 13 ≤ 16 ∧ 16 < (sharedUp.blk 2).fill + 14 ∧
      (match sharedUp.takeBlock 0 with
        | some (b, t) => b == 3 && (match t.copyBlock 0 2 3 (3 * 4096) with | .ok v => (v.mapped 0 9 0).isSome | _ => false)
        | none => false) = true ∧ ((drained sharedUp).takeBlock 0).isNone = true := by decide +kernel
/-- KVAPP to a shared block: the sequence has a copy of its own, block 3, with the new fill. -/
theorem test_append_copies_a_shared_block :
    (match sharedUp.kvApp 0 9 2 with
      | .ok (v, t) => (v, t.mapped 0 9 0, (t.blk 3).fill, (t.blk 3).ref, (t.blk 2).ref) == (0x400000 + 0x10000 * 3 + 3 * 4096, some 3, 5, 1, 1)
      | _ => false) = true := by decide +kernel

/-- Sequence 9 has blocks 2 and 3 of 16 tokens each; block 4 is free. -/
def twoBlocks (r : Nat) : State :=
  let s := tabled []
  { s.modHctx 0 (fun c => { c with med := { c.med with freehead := 4 } }) with
    blks := [(2, { blk2 with fill := 16, ref := r }), (3, { blk2 with lblk := 1, fill := 16, frame := 0x410000 }), (4, { blk2 with st := .free, ref := 0, fill := 0, frame := 0x420000 })]
    slots := s.slots.set (MKey.mk 0 9 1).hash ⟨some (⟨0, 9, 1⟩, 3), 0⟩ }
theorem witness_cuts :
    (twoBlocks 1).blocksOf 0 9 = [2, 3] ∧ (twoBlocks 1).seqLength 0 9 = 32 ∧ (∀ r ∈ [1, 2],
      let t := withoutBlocks 0 9 [(3, 1)] (twoBlocks r)
      t.mapped 0 9 0 = some 2 ∧ (t.blk 2).fill = 16 ∧ (t.blk 2).ref = r) ∧
      (withoutBlocks 0 9 [(3, 1), (2, 0)] (twoBlocks 1)).mapped 0 9 0 = none ∧
      (let t := withoutBlocks 0 9 [(3, 1)] (twoBlocks 2)
       (match t.takeBlock 0 with
        | some (b, x) => b == 3 && (match x.copyBlock 0 2 3 (5 * 4096) with | .ok v => (v.mapped 0 9 0).isSome | _ => false)
        | none => false) = true) ∧
      (let s := { tabled [] with slots := (twoBlocks 1).slots }
       ((s.blocksOf 0 9).map (fun b => (s.blk b).fill)).sum = 3) := by decide +kernel
/-- A cut inside the last kept block that needs a block of its own, with none free; and one past what a short last block holds. -/
theorem witness_cuts_without_blocks :
    (let s := drained { tabled [] with blks := (tabled []).blks.set 2 { blk2 with ref := 2 } }
     (s.blocksOf 0 9 = [2] ∧ s.seqLength 0 9 = 3 ∧ (withoutBlocks 0 9 [] s).mapped 0 9 0 = some 2 ∧ (s.blk 2).ref ≠ 1 ∧ (s.takeBlock 0).isNone = true)) ∧
    (let s := { twoBlocks 1 with blks := (twoBlocks 1).blks.set 2 { blk2 with fill := 4 } }
     s.seqLength 0 9 = 20 ∧ (withoutBlocks 0 9 [(3, 1)] s).mapped 0 9 0 = some 2 ∧ ((withoutBlocks 0 9 [(3, 1)] s).blk 2).fill ≤ 10) := by decide +kernel
/-- KVTRUNC to 5 tokens: block 3 goes back to the free list, block 2 counts 5. -/
theorem test_truncation :
    (match (twoBlocks 1).kvTrunc 0 9 5 with
      | .ok (n, t) => (n, t.mapped 0 9 1, (t.blk 2).fill, (t.blk 3).st, (t.med 0).freehead) == (1, none, 5, .free, 3)
      | _ => false) = true := by decide +kernel

theorem witness_forks :
    ((twoBlocks 1).share 0 7 [2]).isOk = true ∧ ((9 + 1 * 2 ^ 32) / 2 ^ 32 % 2 ^ 20 = 1 ∧ (9 + 3 * 2 ^ 32) / 2 ^ 32 % 2 ^ 20 = 3) ∧ (∀ i ∈ List.range 4, (twoBlocks 1).mapped 0 7 i = none) ∧
      (match (twoBlocks 1).share 0 9 [2] with | .error (.code 7) => true | _ => false) = true ∧ ((twoBlocks 65535).blk 2).ref = 65535 ∧ (twoBlocks 65535).mapped 0 7 0 = none := by decide +kernel
theorem test_fork_shares_its_parents_blocks :
    (match (twoBlocks 1).kvFork 0 7 (9 + 1 * 2 ^ 32) with
      | .ok (v, t) => (v, t.mapped 0 7 0, t.mapped 0 7 1, (t.blk 2).ref) == (1, some 2, none, 2)
      | _ => false) = true := by decide +kernel
/-- A prefix entry for the hash of sequence 9's one block. -/
def recorded (n : Nat) : State := { tabled [] with pfx := [(0x77, ⟨0x77, 0, n, [5]⟩)] }
theorem witness_recorded_prefix :
    (∀ n ∈ [3, 4], (recorded n).mapped 0 7 0 = none ∧ (recorded n).blocksOf 0 9 = [2] ∧ (recorded n).findPfx 0 0x77 = some (0x77, ⟨0x77, 0, n, [5]⟩)) ∧
      (recorded 3).seqLength 0 9 = 3 ∧ ((recorded 3).blk 5).ref < 65535 ∧ (((recorded 3).moveAll 0 9 7 0 [2]).bind (fun t => t.mapAll 0 9 0 [5])).isSome = true ∧
      ((recorded 3).removeMap ⟨0, 9, 0⟩).mapped 0 9 0 = none := by decide +kernel
theorem test_an_inserted_prefix_replaces_its_blocks :
    (match (recorded 3).pfxIns 0 0x77 (9 + 7 * 2 ^ 32) with
      | .ok (v, t) => (v, t.mapped 0 7 0, t.mapped 0 9 0, (t.blk 5).ref) == (0x4000000000000003, some 2, some 5, 1)
      | _ => false) = true := by decide +kernel

/-- Cuts of stream 3 to position 4: its delivery ring has room, or has none. -/
theorem witness_cuts_of_a_stream : ∀ e ∈ [strm3, { strm3 with dtail := 16 }],
    let s := streaming e []
    4 < e.g.toNat ∧ max e.sbase.toNat (max (e.g.toNat - 64) e.iend.toNat) ≤ 4 ∧ s.homeFree (State.medLine 0) = true ∧ s.homePoison (State.medLine 0) = false ∧
      (match State.snapCopy 0 ((e.snva.toNat + 4 % 64 * (64 * e.snb)) % 2 ^ 72) e.stva.toNat (64 * e.snb) s with
        | .ok m =>
            let x : State := (m.unhold 0 3).modStrm 3 (fun _ => { e with pend := 0, held := false, epoch := e.epoch + 1, p := BitVec.ofNat 32 (min e.p.toNat 4) })
            m.streams == s.streams && (x.dheadOf 0 3).isOk &&
              (match x.actWrite 0 ((e.dva.toNat + 128 + 16 * (e.dtail.toNat % 2 ^ e.dlog)) % 2 ^ 72) 16 (4 * 2 ^ 96 + (e.epoch + 1).toNat * 2 ^ 48 + 2) with
                | .ok y => y.streams == x.streams && ((y.modStrm 3 (fun d => { d with dtail := d.dtail + 1 })).actWrite 0 e.dva.toNat 4 (e.dtail + 1).toNat).isOk
                | _ => false)
        | _ => false) = true := by decide +kernel
theorem test_a_cut_revokes_what_lay_above :
    (match State.struncAct 0 3 4 (streaming strm3 []) with
      | .ok (v, t) => (v, (t.strm 3).g, (t.strm 3).epoch, (t.strm 3).dtail, (t.strm 3).prevv) == (4, 4, 8, 1, false)
      | _ => false) = true ∧
    (match State.struncAct 0 3 4 (streaming { strm3 with dtail := 16 } []) with
      | .ok (_, t) => ((t.strm 3).g, (t.strm 3).prev, (t.strm 3).prevv) == (4, 4, true)
      | _ => false) = true := by decide +kernel

/-- The next record of the notify queue has INDEX 9 where 0 is due. -/
theorem witness_mismatched_index :
    let s := { serving 3 2 with mem := (serving 3 2).mem.write (0x250000 + 128) (leBytes 64 (9 * 2 ^ 64)) }
    s.serves 0 = true ∧ (s.hctx 0).streams[0].signal = true ∧ s.sysRead 0 0x250000 8 = some (leBytes 8 2) ∧ (2 : Word32) ≠ 0 ∧ (2#32 - 0).toNat ≤ 2 ^ 4 ∧ s.owesAdmin 0 0 = false ∧
      (s.modStream 0 0 (fun d => { d with lastTail := 2, signal := false, stalled := false })).sysRead 0 (0x250000 + 128) 64 = some (leBytes 64 (9 * 2 ^ 64)) := by decide +kernel

theorem witness_started_members :
    (∀ e ∈ State.liveMembers (placed7 false []), e.2.strand < 4 ∧ ((placed false []).strand (State.Member.key e.2)).launch = 7) ∧ (placed7 false []).csched = false ∧
      ((placed false []).strand 0).tn = 4 ∧ (placed false []).image? 5 = some image5 := by decide +kernel
theorem witness_resumed_members :
    let l := placed7 true (List.replicate 64 0)
    let s := placed true (List.replicate 64 0)
    (∀ e ∈ State.liveMembers l, s.recordKept (State.Member.key e.2) e.2 = true ∧ s.restorePoison l e = none) ∧
      (∀ a ∈ State.liveMembers l, ∀ b ∈ State.liveMembers l, State.Member.key a.2 = State.Member.key b.2 → a = b) ∧ State.liveMembers l ≠ [] := by decide +kernel
/-- Front end 1 of the marked cluster has died. -/
def lamed : State := rebinding.modDeck 0 (fun k => { k with health := { k.health with feok := k.health.feok &&& ~~~(1#32 <<< 1) } })
theorem witness_rebinding_around_a_dead_front_end :
    (lamed.deck 0).health.feOk 1 = false ∧ (lamed.halvesOf 1).isSome = true ∧ lamed.clusterBusy 0 = false ∧ (lamed.deck 0).reqs = [.rebind 0] ∧ (lamed.deck 0).job = none := by decide +kernel
/-- R26: the cluster comes out at width 1, the dead position bound to nothing. -/
theorem test_rebinding_around_a_dead_front_end :
    let u := stateOf (exec (.rebind 0 none) (stateOf (exec (.rebind 0 none) lamed) lamed)) lamed
    ((u.cluster 0).width, (u.bindEnt 1).role, (u.bindEnt 1).halves.isNone, (u.bindEnt 0).role) = (1, 3, true, 0) := by decide +kernel
/-- A GEMV's outputs are formed and its token is ARMED: the bytes count once they are written (R411). -/
theorem test_a_gemv_counts_its_bytes_as_it_writes :
    let s := (run []).setMe { (run []).me with tokens := (run []).me.tokens.set 3 ⟨.armed, 0⟩ }
    (after (.gemvComplete 0) { s with gemvs := [{ gemv0 with out := some ([1, 2, 3, 4], 1) }] }).me.tokens[3] = ⟨.armed, 4⟩ := by decide +kernel
/-- The faulted operation of strand 1: a store through the leaf that its cluster holds. -/
def faultedOp : QOp := ⟨4, 0, .a, 2, 0, 0, .st g0 .d 1 3 (.short 0), regs [(1, 5)] [(3, 0x10000)], some true, .faulted, none, none, 0, none⟩
def stopped : State :=
  let s := pended [(1, 0x201)]
  { s with strands := s.strands.set 1 { Strand.reset 0 with life := .running, launch := 7, holds := 1, ops := [faultedOp] } }
theorem witness_return_to_an_operation :
    performs (.resume g0 1) g0 stopped ∧ ((stopped.hctx 0).pend.find? (fun q => q.handle == 0x201)).map (·.subj) = some (.op 0 1 4) ∧
      (stopped.strand 1).ops.find? (fun q => q.num == 4) = some faultedOp ∧ (stopped.core 0).halt = 0 := by unfold performs; decide +kernel
/-- RESUME of a faulted operation: it is queued again, and its page will be translated afresh (R503). -/
theorem test_a_replayed_operation_walks_again :
    let t := after (.resume g0 1) stopped
    (t.strand 1).ops.map (·.stage) = [.queued] ∧ (t.strand 1).holds = 0 ∧ (stopped.cluster 0).tlb ≠ [] ∧ (t.cluster 0).tlb = [] := by decide +kernel
/-- The launch's plan gives it 32 bytes of bank 1, which hold a byte, a full granule and a poisoned one. -/
def planned : State :=
  let s := placed false []
  let a := bankAddr 0 (65536 + 16)
  { s with
    images := [{ image5 with cores := image5.cores.map (fun k => { k with spad := [⟨0, 0, 1, 16, 32⟩] }) }]
    mem := s.mem.write a [7], full := NSet.add [] (a / 16), poison := NSet.add [] (a / 16 + 1) }
theorem witness_started_plan :
    planned.gangReady (placed7 false []) = true ∧ planned.launch? 7 = some (placed7 false []) ∧
      (planned.image? 5).map (fun g => g.cores.map (fun k => k.spad.length)) = some [1] := by decide +kernel
theorem test_a_start_clears_its_plan :
    ((after (.gangStart 7) planned).mem, (after (.gangStart 7) planned).full, (after (.gangStart 7) planned).poison) = ((placed false []).mem, [], []) := by decide +kernel

end Sys2Proof.Tests
end

section
/-! Memory and the state after cold reset: O60, O57 and O59. -/

namespace Sys2Proof.Proofs

open Machine Claims

/-- Settles O60: each clause is the law of Mem of its operation. -/
theorem memoryReadsBackAndIsCanonical : Obligations.MemoryReadsBackAndIsCanonical := by
  intro m n a k bs hm
  exact ⟨m.wf_write a bs hm, m.wf_zero a k hm, m.read_write a bs, m.read_zero a k, m.readN_write a bs,
    fun hn h => m.ext_wf n hm hn h⟩

/-! ### The tables right after cold reset: every entry reads as its reset value (R4) -/

section
variable (p : Plat) (n : Nat)

@[simp] theorem strand_start : (State.start p).strand n = Strand.reset (n / 4) := rfl
@[simp] theorem core_start : (State.start p).core n = Core.reset := rfl
@[simp] theorem cluster_start : (State.start p).cluster n = Cluster.reset := rfl
@[simp] theorem bank_start (b : Nat) : (State.start p).bank n b = Bank.reset := rfl
@[simp] theorem hctx_start : (State.start p).hctx n = Hctx.reset := rfl
@[simp] theorem bindEnt_start : (State.start p).bindEnt n = BindEnt.reset n := rfl

end

/-- p0 is true after reset and every other predicate false (R150). -/
theorem reset_preds (core : Nat) (i : Fin 16) : (FrontRegs.reset core).p[i] = decide (i = 0) := by
  fin_cases i <;> rfl

/-- q0 is all-true after reset and every other mask zero (R181). -/
theorem reset_masks (i : Fin 8) : EngineRegs.reset.q[i] = if i = 0 then BitVec.allOnes 512 else 0 := by
  fin_cases i <;> rfl

/-- Every level of the sequencer is idle after reset. -/
theorem reset_levels (core : Nat) : ∀ l ∈ (Strand.reset core).levels.toList, l.run = false ∧ l.ctl = 0 := by
  intro l hl
  obtain rfl : l = Level.reset := by simpa [Strand.reset] using hl
  exact ⟨rfl, rfl⟩

/-- Every deck of the first reset is healthy, owes every wake test, and has no work of its binder's under way. -/
theorem reset_decks : State.reset.plat.decks = Vector.replicate 4 (Deck.start Health.all) := by
  simp [State.reset, State.start, Plat.start]

/-- Settles O57: each table reads as its reset value. -/
theorem resetLeavesTheStatedValues : Obligations.ResetLeavesTheStatedValues := by
  refine ⟨fun k => ?_, fun c => ⟨rfl, rfl, rfl, rfl⟩, fun c => ⟨rfl, rfl, rfl, rfl⟩, fun c b => rfl, fun a => rfl, rfl, rfl, rfl,
    fun n => rfl, fun h => ⟨rfl, rfl, rfl, rfl, rfl⟩, rfl, rfl, rfl, rfl, rfl, rfl, rfl, rfl, rfl, fun d => ?_⟩
  · exact ⟨rfl, rfl, rfl, rfl, reset_preds (k / 4), reset_masks, rfl, rfl, rfl, rfl, rfl, rfl, rfl, rfl, rfl, rfl, rfl,
      reset_levels (k / 4)⟩
  · simp only [reset_decks, Fin.getElem_fin, Vector.getElem_replicate]
    exact ⟨rfl, rfl⟩

/-- Settles O59: every table is empty and reads as its reset value. -/
theorem theInvariantHoldsAtReset : Obligations.TheInvariantHoldsAtReset where
  mem := rfl
  widths c := by simp [State.reset, Cluster.reset]
  marks c w h := by simp [State.reset, Cluster.reset] at h
  wcodes n := by simp [State.reset, BindEnt.reset]
  jobs d j h := by
    have hd : State.reset.deck d = Deck.start Health.all := by
      rw [State.deck, reset_decks, Vector.toList_replicate, List.getD_eq_getElem?_getD, List.getElem?_getD_replicate_default_eq]
    rw [hd] at h
    cases h
  launches l h := by cases h
  images i h := by cases h
  idle := rfl

end Sys2Proof.Proofs
end

section
/-! What the writes of the I/O die leave alone: a record raised for the host changes memory, the lists of homes, cluster copies and the fields of contexts and launches that such writes touch, and nothing else. -/

namespace Sys2Proof.Machine

namespace Map

/-- An entry whose value is mapped. -/
theorem get?_map {α : Type} (m : Map α) (f : Nat → α → α) (k : Nat) :
    get? (m.map (fun e => (e.1, f e.1 e.2))) k = (get? m k).map (f k) := by
  induction m with
  | nil => rfl
  | cons e m ih =>
      rw [List.map_cons, get?_cons, get?_cons, ih]
      by_cases h : e.1 = k <;> simp [h]

end Map

namespace State

/-- From s to t the writes of an agent of the I/O die may have changed memory, copies of lines, the lists of homes, contexts and launches; the rest stays, and so does the standing of every context. -/
structure SysChange (s t : State) : Prop where
  rest : { t with
    clusters := s.clusters, ctxs := s.ctxs, mem := s.mem, linePoison := s.linePoison, agent := s.agent, busyLines := s.busyLines
    home := s.home, launches := s.launches } = s
  st : ∀ h, (t.hctx h).st = (s.hctx h).st

namespace SysChange

variable {s t u : State}

theorem refl (s : State) : SysChange s s := ⟨rfl, fun _ => rfl⟩

theorem trans (a : SysChange s t) (b : SysChange t u) : SysChange s u where
  rest := (congrArg (fun v : State => { v with
    clusters := s.clusters, ctxs := s.ctxs, mem := s.mem, linePoison := s.linePoison, agent := s.agent, busyLines := s.busyLines
    home := s.home, launches := s.launches }) b.rest).trans a.rest
  st h := (b.st h).trans (a.st h)

theorem strands (a : SysChange s t) : t.strands = s.strands := congrArg (·.strands) a.rest
theorem strand (a : SysChange s t) (k : Nat) : t.strand k = s.strand k := by simp [State.strand, a.strands]
theorem ctx (a : SysChange s t) : t.ctx = s.ctx := congrArg (·.ctx) a.rest
theorem walks (a : SysChange s t) : t.walks = s.walks := congrArg (·.walks) a.rest
theorem me (a : SysChange s t) : t.me = s.me := by simp [State.me, State.meKey, a.strand, a.ctx]

/-- A fold of acts each of which is such a change. -/
theorem foldl {α : Type} {f : State → α → State} (h : ∀ s e, SysChange s (f s e)) (l : List α) :
    ∀ s, SysChange s (l.foldl f s) := by
  induction l with
  | nil => exact refl
  | cons e l ih => exact fun s => (h s e).trans (ih _)

end SysChange

variable (s : State)

/-! ### The operations that a write of the I/O die is made of -/

theorem dropLine_sysChange (cl line : Nat) : SysChange s (s.dropLine cl line) := ⟨rfl, fun _ => rfl⟩

theorem invalidateOthers_sysChange (cl line : Nat) : SysChange s (s.invalidateOthers cl line) :=
  SysChange.foldl (fun s c => by
    split
    · exact .refl s
    · exact s.dropLine_sysChange c line) _ s

theorem agentTake_sysChange (line : Nat) (st : Mesi) : SysChange s (s.agentTake line st) := by
  unfold agentTake
  split
  · exact ⟨rfl, fun _ => rfl⟩
  · exact .refl s

theorem homeWrite_sysChange (pa : Nat) (bs : List Byte) (src : Bool) : SysChange s (s.homeWrite pa bs src) := by
  refine (s.agentTake_sysChange (pa / 64) .m).trans ?_
  unfold homeWrite
  dsimp only
  split
  · split <;> exact ⟨rfl, fun _ => rfl⟩
  · split <;> split <;> exact ⟨rfl, fun _ => rfl⟩

/-- A signal of the scheduler leaves every context's standing. -/
theorem st_noteWrite (pa n h : Nat) : ((s.noteWrite pa n).hctx h).st = (s.hctx h).st := by
  have e : (s.noteWrite pa n).ctxs.get? h = (s.ctxs.get? h).map (s.signalTails pa n h) := Map.get?_map _ _ _
  simp only [hctx, Map.getD, e]
  cases s.ctxs.get? h <;> rfl

theorem noteWrite_sysChange (pa n : Nat) : SysChange s (s.noteWrite pa n) := ⟨rfl, s.st_noteWrite pa n⟩

theorem homePut_sysChange (pa : Nat) (bs : List Byte) (src : Bool) : SysChange s (s.homePut pa bs src) :=
  (s.homeWrite_sysChange pa bs src).trans (noteWrite_sysChange _ _ _)

theorem sysPut_sysChange (pa pclass : Nat) (bs : List Byte) : SysChange s (s.sysPut pa pclass bs) :=
  SysChange.foldl (fun s c => by
    dsimp only
    split
    · split
      · exact (s.invalidateOthers_sysChange _ _).trans (homePut_sysChange _ _ _ _)
      · exact s.homePut_sysChange _ _ _
    · exact ⟨rfl, fun _ => rfl⟩) _ s

theorem sysWrite_sysChange {t : State} {h va : Nat} {bs : List Byte} (e : s.sysWrite h va bs = some t) : SysChange s t := by
  unfold sysWrite at e
  split at e
  · cases e
  · cases e
    exact SysChange.foldl (fun s e => s.sysPut_sysChange _ _ _) _ s

/-- A change of a context's block that keeps its standing. -/
theorem modHctx_sysChange (h : Nat) (f : Hctx → Hctx) (hf : (f (s.hctx h)).st = (s.hctx h).st) : SysChange s (s.modHctx h f) where
  rest := rfl
  st j := by
    rw [hctx_modHctx]
    split
    · next e => rw [hf, e]
    · rfl

/-! ### Turns -/

theorem joinLines_sysChange (o : HReq) (lines : List Nat) : SysChange s (joinLines o lines s) := by
  obtain ⟨h, e⟩ := joinLines_frame (s := s) (o := o) (lines := lines)
  rw [e]
  exact ⟨rfl, fun _ => rfl⟩

theorem giveBack_sysChange {t : State} (o : HReq) (lines : List Nat) (a : SysChange s t) : SysChange s (giveBack o lines s t) := by
  unfold giveBack
  split
  · exact a.trans ⟨rfl, fun _ => rfl⟩
  · exact a

theorem asMine_sysChange (o : HReq) (lines : List Nat) : SysChange s (s.asMine o lines) := by
  unfold asMine
  split
  · exact ⟨rfl, fun _ => rfl⟩
  · exact .refl s

/-! ### Records -/

theorem ringPut_sysChange {t : State} {h : Nat} {r : Fin 6} {rec : List Byte} (e : s.ringPut h r rec = some t) : SysChange s t := by
  simp only [ringPut] at e
  split at e
  · cases e
  · split at e
    · cases e
    · split at e
      · cases e
      · next u hu =>
          cases e
          exact (s.sysWrite_sysChange hu).trans (u.modHctx_sysChange _ _ rfl)

theorem writeFault_sysChange {t : State} {h : Nat} {r : FaultRec} (e : s.writeFault h r = some t) : SysChange s t := by
  simp only [writeFault] at e
  split at e
  · split at e
    · cases e
    · split at e
      · cases e
      · next u hu =>
          cases e
          exact (s.ringPut_sysChange hu).trans (u.modHctx_sysChange _ _ rfl)
  · exact s.ringPut_sysChange e

/-- A record put into a ring in its turn, or its turns taken. -/
theorem ringTurn_sysChange (o : HReq) (h : Nat) (r : Fin 6) (n : Nat) {put : State → Option State} {wait : State → State}
    (hp : ∀ s t, put s = some t → SysChange s t) (hw : ∀ s, SysChange s (wait s)) :
    SysChange s (s.ringTurn o h r n put wait) := by
  unfold ringTurn
  dsimp only
  split
  · split
    · next t ht => exact s.giveBack_sysChange o _ ((s.asMine_sysChange o _).trans (hp _ _ ht))
    · exact (s.giveBack_sysChange o [] (.refl s)).trans (hw _)
  · exact (s.joinLines_sysChange o _).trans (hw _)

/-- A record raised: at most memory, homes, copies, contexts and launches change, and no context's standing. -/
theorem raise_sysChange (h : Nat) (r : FaultRec) : SysChange s (s.raise h r) := by
  have later : ∀ s : State, SysChange s (s.modHctx h (fun c => { c with waiting := c.waiting ++ [r] })) :=
    fun s => s.modHctx_sysChange h _ rfl
  unfold raise
  dsimp only
  split
  · exact s.ringTurn_sysChange _ h 5 64 (fun s _ e => s.writeFault_sysChange e) later
  · exact later s

/-- A record raised behind others waits behind them (R437). -/
theorem raise_waits (h : Nat) (r : FaultRec) (hw : (s.hctx h).waiting ≠ []) :
    s.raise h r = s.modHctx h (fun c => { c with waiting := c.waiting ++ [r] }) := by
  simp [raise, hw]

end State

end Sys2Proof.Machine
end

section
/-! Killing a context, the critical shutdown and cold reset: O43. -/

namespace Sys2Proof.Machine.State

variable (s : State)

/-- A context's block is read in the table of contexts alone. -/
theorem hctx_of_ctxs {s t : State} (h : t.ctxs = s.ctxs) (j : Nat) : t.hctx j = s.hctx j := by simp [hctx, h]

/-- A fold of acts that leave the table of contexts alone leaves it. -/
theorem foldl_ctxs {α : Type} {f : State → α → State} (h : ∀ s e, (f s e).ctxs = s.ctxs) (l : List α) :
    ∀ s, (l.foldl f s).ctxs = s.ctxs := by
  induction l with
  | nil => exact fun _ => rfl
  | cons e l ih => exact fun s => (ih _).trans (h s e)

theorem unlockBank_ctxs (cl b : Nat) : (s.unlockBank cl b).ctxs = s.ctxs := by
  unfold unlockBank
  dsimp only
  split <;> rfl

theorem unlock_ctxs (m : Mma) : (s.unlock m).ctxs = s.ctxs := by
  unfold unlock
  split
  · rfl
  · exact foldl_ctxs (fun s b => s.unlockBank_ctxs _ _) _ s

theorem discardWork_ctxs (k : Nat) : (s.discardWork k).ctxs = s.ctxs :=
  foldl_ctxs unlock_ctxs (s.mmas.filter (fun m => strandKey m.core m.strand == k)) s

theorem releaseWindow_ctxs (k : Nat) : (s.releaseWindow k).ctxs = s.ctxs := by
  unfold releaseWindow
  dsimp only
  split <;> rfl

theorem askRebind_ctxs (cl : Nat) : (s.askRebind cl).ctxs = s.ctxs := by
  unfold askRebind
  split <;> rfl

/-- A strand freed adds to its context's accounting, and leaves every context's standing. -/
theorem freeStrand_st (k j : Nat) : ((s.freeStrand k).hctx j).st = (s.hctx j).st := by
  let u := (s.discardWork k).account k
  have e : (s.freeStrand k).ctxs = u.ctxs := (askRebind_ctxs _ _).trans (u.releaseWindow_ctxs k)
  calc ((s.freeStrand k).hctx j).st = (u.hctx j).st := by rw [hctx_of_ctxs e]
    _ = ((s.discardWork k).hctx j).st := (modHctx_sysChange _ _ _ rfl).st j
    _ = (s.hctx j).st := by rw [hctx_of_ctxs (s.discardWork_ctxs k)]

theorem evictStrand_st (k j : Nat) : ((s.evictStrand k).hctx j).st = (s.hctx j).st := by
  refine (freeStrand_st _ k j).trans (congrArg Hctx.st (hctx_of_ctxs ?_ j))
  refine foldl_ctxs (fun s h => ?_) _ s
  split <;> rfl

theorem retireFrames_ctxs (h : Nat) : (s.retireFrames h).ctxs = s.ctxs := by
  unfold retireFrames
  dsimp only
  rw [foldl_ctxs]
  · refine foldl_ctxs (fun s e => ?_) _ s
    split <;> rfl
  · exact fun _ _ => rfl

/-- Strands evicted one after another leave every context's standing. -/
theorem evictStrands_st (ks : List Nat) (j : Nat) : ∀ s : State, ((ks.foldl evictStrand s).hctx j).st = (s.hctx j).st := by
  induction ks with
  | nil => exact fun _ => rfl
  | cons k ks ih => exact fun s => (ih _).trans (s.evictStrand_st k j)

/-- A killed context is KILLED, and every other context stands as before (R452). -/
theorem kill_st (h : Nat) (r : FaultRec) (j : Nat) : ((s.kill h r).hctx j).st = if j = h then .killed else (s.hctx j).st := by
  unfold kill
  dsimp only
  rw [(raise_sysChange _ _ _).st]
  simp only [hctx, modHctx, setHctx, Map.getD_set]
  by_cases e : j = h
  · simp [e]
  · simp only [e, if_false, retireFrames_ctxs]
    rw [foldl_ctxs]
    · exact evictStrands_st _ j s
    · exact fun _ _ => rfl

/-- Contexts killed one after another are KILLED, and every other context stands as before. -/
theorem kills_st (r : Nat → FaultRec) (j : Nat) (hs : List Nat) :
    ∀ s : State, ((hs.foldl (fun s h => s.kill h (r h)) s).hctx j).st = if j ∈ hs then .killed else (s.hctx j).st := by
  induction hs with
  | nil => simp
  | cons h hs ih =>
      intro s
      rw [List.foldl_cons, ih, kill_st]
      by_cases e : j ∈ hs <;> by_cases e' : j = h <;> simp [e, e']

/-- The critical shutdown kills the live contexts of the part's 64 and leaves the standing of the others (R477). -/
theorem criticalShutdown_st (j : Nat) :
    (s.criticalShutdown.hctx j).st = if j < 64 ∧ (s.hctx j).st = .live then .killed else (s.hctx j).st := by
  have e : s.criticalShutdown.ctxs =
      (((List.range 64).filter (fun h => (s.hctx h).st == .live)).foldl (fun s h => s.kill h (ctxRecord h 0x20 0 0 0)) s).ctxs := by
    simp only [criticalShutdown, storeLife, tickMinutes, modLife]
  rw [hctx_of_ctxs e, kills_st]
  simp only [List.mem_filter, List.mem_range, beq_iff_eq]

/-! ### Cold reset -/

/-- The two counts that stop at their greatest value are one. -/
theorem satSucc_eq_upOne {n : Nat} (v : BitVec n) : satSucc v = Claims.upOne v := by
  have h : v = BitVec.allOnes n ↔ v.toNat + 1 = 2 ^ n := by
    have := Nat.two_pow_pos n
    rw [← BitVec.toNat_inj, BitVec.toNat_allOnes]
    omega
  simp only [satSucc, Claims.upOne, h]

/-- Boot that does not verify leaves flash and the repair marks (R470). -/
theorem boot_fails {f : Flash} (h : bootOk f = false) (marks : Vector Health 4) : boot f marks = (f, marks) := by
  unfold boot
  split
  · rfl
  · next hc =>
      have hb : blocksInUse f = none := by simp_all [bootOk]
      rw [hb]

/-- Boot that verifies puts in force what the blocks in use say (R470). -/
theorem boot_verifies {f : Flash} {i r l} (hc : chainOk f = true) (hb : blocksInUse f = some (i, r, l)) (marks : Vector Health 4) :
    boot f marks = ({ f with highest := #v[i.version, r.version, l.version], identity := i.val, limit := l.val }, r.val) := by
  simp [boot, hc, hb]

/-- The decks after cold reset start from the marks that boot gives. -/
theorem coldReset_health (d : Fin 4) :
    s.coldReset.plat.decks[d].health = (boot s.plat.flash (s.plat.decks.map (·.repair))).2[d] := by
  simp [coldReset, State.start, Plat.start, Deck.start]

/-- Memory after cold reset: what lies below the banks stays, the banks read zero (R4, R241). -/
theorem coldReset_read (a : Nat) : s.coldReset.mem.read a = if a < bankBase then s.mem.read a else 0 := by
  have e := s.mem.read_filter (fun x => decide (x < bankBase)) a
  simpa only [coldReset, Mem.unlisted, decide_eq_true_eq] using e

/-! ### Power -/

/-- Without power a step with nothing scheduled stops (R477). -/
theorem step_unpowered_idle (h : s.plat.poweredOff = true) : step { s with schedule := [] } = .fault .poweredOff := by
  simp [step, h]

/-- Without power a scheduled event other than cold reset stops (R477). -/
theorem step_unpowered (h : s.plat.poweredOff = true) {i : Instr} (is : List Instr) (hi : i ≠ .coldReset) :
    step { s with schedule := i :: is } = .fault .poweredOff := by
  simp [step, h, hi]

end Sys2Proof.Machine.State

namespace Sys2Proof.Proofs

open Machine

/-- Settles O43: a kill changes one context's standing, and cold reset is the start over the platform that boot leaves. -/
theorem shutdownRemovesPowerAndColdResetReturnsTheResetValues :
    Obligations.ShutdownRemovesPowerAndColdResetReturnsTheResetValues := by
  intro s
  refine ⟨⟨s.criticalShutdown, rfl, rfl, rfl, fun h hh hl => ?_, fun h hh hl => ?_⟩,
    fun hp => ⟨s.step_unpowered_idle hp, fun i is hi => s.step_unpowered hp is hi⟩,
    ⟨s.coldReset, rfl, rfl, s.coldReset_read, rfl, rfl, rfl, rfl, rfl, ?_, rfl, fun hb => ⟨?_, fun d => ?_⟩, fun i r l hc hb => ?_⟩⟩
  · rw [s.criticalShutdown_st, if_pos ⟨hh, hl⟩]
  · rw [s.criticalShutdown_st, if_neg (fun e => hl e.2)]
  · simp only [← State.satSucc_eq_upOne]
    rfl
  · exact congrArg Prod.fst (State.boot_fails hb _)
  · rw [s.coldReset_health, State.boot_fails hb]
    simp
  · have hboot := State.boot_verifies hc hb (s.plat.decks.map (·.repair))
    have hflash : s.coldReset.plat.flash = _ := congrArg Prod.fst hboot
    refine ⟨congrArg Flash.highest hflash, congrArg Flash.identity hflash, congrArg Flash.limit hflash, fun d => ?_⟩
    rw [s.coldReset_health, hboot]

end Sys2Proof.Proofs
end

section
/-! TRAP and RESUME: O36. -/

namespace Sys2Proof.Machine.State

variable (s : State)

@[simp] theorem hctx_setRes (r : Res) (h : Nat) : (s.setRes r).hctx h = s.hctx h := rfl

/-- What a trap leaves: the strand holds it, the record is raised, nothing else of the strands changes (R10, R434). -/
theorem takeTrap_me (code aux info : Nat) : (s.takeTrap code aux info).me =
    { s.me with trap := some ⟨code, aux, info, s.ctx.slot⟩, holds := s.me.holds + 1 } := by
  unfold takeTrap
  dsimp only
  rw [me_setRes, (raise_sysChange _ _ _).me, me_modMe]

theorem takeTrap_others (code aux info : Nat) (k : Nat) (hk : k ≠ s.meKey) : (s.takeTrap code aux info).strand k = s.strand k := by
  refine ((raise_sysChange _ _ _).strand k).trans ?_
  rw [strand_modMe, if_neg hk]

theorem takeTrap_ctx (code aux info : Nat) : (s.takeTrap code aux info).ctx = { s.ctx with res := .stopped } := by
  simp only [takeTrap, setRes, (raise_sysChange _ _ _).ctx]
  rfl

/-- The record of a trap taken while records of its context wait joins them at their end (R437). -/
theorem takeTrap_waiting (code aux info : Nat) (hw : (s.hctx s.me.hc).waiting ≠ []) :
    ((s.takeTrap code aux info).hctx s.me.hc).waiting = (s.hctx s.me.hc).waiting ++
      [{ s.myRecord code with aux := aux, info := info, slot := s.ctx.slot }] := by
  have e : (s.modMe (fun t => { t with trap := some ⟨code, aux, info, s.ctx.slot⟩, holds := t.holds + 1 })).hcid = s.me.hc := by
    rw [hcid, me_modMe]
  simp only [takeTrap, e]
  rw [raise_waits _ _ _ (by simpa using hw)]
  rw [hctx_setRes, hctx_modHctx, if_pos rfl, hctx_modMe]

end Sys2Proof.Machine.State

namespace Sys2Proof.Proofs

open Machine Claims

/-- A natural immediate as the registers hold it (R156). -/
theorem toNat_n64 (n : Imm) : n.n64.toNat = naturalImm n := by
  cases n with
  | short i => simp [Imm.n64, naturalImm]; omega
  | long l => simp [Imm.n64, naturalImm]; omega

/-- TRAP with a true guard is its issue check, which takes the trap of code 8 (R176, R500). -/
theorem exec_trap (g : Guard) (n : Imm) (s : State) (ha : s.ctx.admitted = false) (hp : s.pendingWait false (.trap g n) = false)
    (hg : s.holds g = true) : exec (.trap g n) s = .next (s.takeTrap 8 (naturalImm n) 0) := by
  have e := s.slotOp_stops (.trap g n) g (fun s => s.takeTrap 8 n.n64.toNat 0) (.soft n.n64.toNat) ha hp
    (by rw [hg, Bool.or_true]) rfl rfl
  rw [← toNat_n64]
  exact e

/-- TRAP takes its trap of code 8 (R10, R434 to R437). -/
theorem trapHoldsTheStrandAndRaisesItsRecord : Claims.trapHoldsTheStrandAndRaisesItsRecord := by
  intro g n s ha hp hg
  refine ⟨_, exec_trap g n s ha hp hg, s.takeTrap_me 8 _ 0, s.takeTrap_ctx 8 _ 0, s.takeTrap_others 8 _ 0, fun hw => ?_⟩
  exact ⟨_, s.takeTrap_waiting 8 _ 0 hw, rfl, rfl, rfl, rfl, rfl⟩

/-- A performing form whose issue sets no SIDE bit is its effect (R105, R454). -/
theorem slotOp_performs {i : Instr} {g : Guard} {s : State} (eff : State → State) (hp : performs i g s) (hi : State.sideForm i = false) :
    s.slotOp i g eff = .next (eff s) := by
  have hn : s.noteSide i = s := by simp [State.noteSide, hi]
  rcases hp with h | ⟨hp, hg, hw, hs⟩
  · exact s.slotOp_admitted i g eff h
  · cases ha : s.ctx.admitted with
    | true => exact s.slotOp_admitted i g eff ha
    | false => rw [s.slotOp_runs i g eff ha hp (by simpa using hg) hw hs, hn]

theorem exec_resume {g : Guard} {x : XReg} {s : State} (hp : performs (.resume g x) g s) :
    exec (.resume g x) s = .next (s.resumeOp x) := slotOp_performs (State.resumeOp x) hp rfl

end Sys2Proof.Proofs

namespace Sys2Proof.Machine.State

variable {s : State}

/-- RESUME of a handle that stands for nothing does nothing (R443). -/
theorem resumeOp_stale {x : XReg} (hf : (s.hctx s.me.hc).pend.find? (fun q => q.handle == (s.rdX x).toNat % 2 ^ 32) = none) :
    s.resumeOp x = s := by
  simp only [resumeOp, resumeWaits, resumeFault, hcid, hf, Bool.false_eq_true, if_false]

/-- RESUME without ABORT, of a fault whose core is not halted: its entry is freed and its subject returns (R443, R460). -/
theorem resumeOp_returns {x : XReg} {p : PendFault}
    (hf : (s.hctx s.me.hc).pend.find? (fun q => q.handle == (s.rdX x).toNat % 2 ^ 32) = some p)
    (hh : (s.core (s.subjStrand p.subj).1).halt = 0) (hb : (s.rdX x).getLsbD 32 = false) :
    s.resumeOp x = (s.modHctx s.me.hc (fun c => { c with pend := c.pend.filter (fun q => q.entry != p.entry) })).resumeSubj
      ((s.rdX x).getLsbD 33) p.subj := by
  simp only [resumeOp, resumeWaits, resumeFault, hcid, hf, hh, hb, bne_self_eq_false, Bool.false_eq_true, if_false]

/-- A trapped strand's return (R443). -/
theorem resumeSubj_trap (skip : Bool) (c n : Nat) : s.resumeSubj skip (.trap c n) =
    s.setStrand (strandKey c n) { s.strand (strandKey c n) with
      trap := none, skipNext := skip, holds := (s.strand (strandKey c n)).holds - 1 } := by
  simp only [resumeSubj, releaseHold, modStrand_modStrand]
  rfl

/-- From s to t a cluster's TLB has forgotten the leaves of which f holds, and nothing else has changed. -/
structure Forgets (s t : State) (cl : Nat) (f : TlbEnt → Bool) : Prop where
  rest : { t with clusters := s.clusters } = s
  cluster : ∀ c, t.cluster c =
    if c = cl then { s.cluster c with tlb := (s.cluster c).tlb.filter (fun e => !f e) } else s.cluster c

namespace Forgets

variable {t u : State} {cl : Nat} {f g : TlbEnt → Bool}

theorem trans (a : Forgets s t cl f) (b : Forgets t u cl g) : Forgets s u cl (fun e => f e || g e) where
  rest := (congrArg (fun v : State => { v with clusters := s.clusters }) b.rest).trans a.rest
  cluster c := by
    rw [b.cluster, a.cluster]
    split <;> simp [List.filter_filter, Bool.and_comm]

/-- Leaves forgotten for each element of a list. -/
theorem foldl {α : Type} {act : State → α → State} {f : α → TlbEnt → Bool} (h : ∀ s a, Forgets s (act s a) cl (f a)) (l : List α) :
    ∀ s, Forgets s (l.foldl act s) cl (fun e => l.any (f · e)) := by
  induction l with
  | nil => exact fun s => ⟨rfl, fun c => by simp⟩
  | cons a l ih => exact fun s => (h s a).trans (ih _)

theorem of_modCluster (s : State) (cl : Nat) (f : TlbEnt → Bool) :
    Forgets s (s.modCluster cl (fun c => { c with tlb := c.tlb.filter (fun e => !f e) })) cl f := by
  refine ⟨rfl, fun c => ?_⟩
  rw [cluster_modCluster]
  split
  · next e => rw [e]
  · rfl

/-- The state apart from its clusters. -/
theorem eq (a : Forgets s t cl f) : t = { s with clusters := t.clusters } :=
  (congrArg (fun v : State => { v with clusters := t.clusters }) a.rest :)

end Forgets

/-- The leaves of every page of some extents are forgotten (R503). -/
theorem tlbForgetAll_forgets (s : State) (cl h : Nat) (es : List Extent) : Forgets s (s.tlbForgetAll cl h es) cl
    (fun e => es.any (fun x => (pagesOf x.va x.len).any (fun a => leafCovers e h a.1))) :=
  Forgets.foldl (fun s x => Forgets.foldl (fun s a => Forgets.of_modCluster s cl (leafCovers · h a.1)) (pagesOf x.va x.len) s) es s

/-- The leaves that the replay of an operation of extents es has its cluster forget: those of its pages, or all of its context where it has no extents of its own (R375, R503). -/
def replayForgets (h : Nat) (es : List Extent) (e : TlbEnt) : Bool :=
  e.hc == h && (es.isEmpty || es.any (fun x => (pagesOf x.va x.len).any (fun a => leafCovers e h a.1)))

theorem replayForgets_nil (h : Nat) : replayForgets h [] = (fun e => e.hc == h) := by
  funext e
  simp [replayForgets]

/-- A leaf that covers a page is one of its context. -/
theorem replayForgets_of_ne_nil {h : Nat} {es : List Extent} (hes : es ≠ []) :
    replayForgets h es = (fun e => es.any (fun x => (pagesOf x.va x.len).any (fun a => leafCovers e h a.1))) := by
  funext e
  cases he : e.hc == h <;> simp [replayForgets, leafCovers, he, hes]

theorem forgetOp_forgets {k num : Nat} {o : QOp} (ho : (s.strand k).ops.find? (fun q => q.num == num) = some o) :
    Forgets s (s.forgetOp k num) (k / 16) (replayForgets (s.strand k).hc (extents (s.forOp k o) o.instr)) := by
  simp only [forgetOp, ho]
  split
  · next he =>
      rw [he, replayForgets_nil]
      exact Forgets.of_modCluster s (k / 16) (fun e => e.hc == (s.strand k).hc)
  · next he =>
      rw [replayForgets_of_ne_nil he]
      exact tlbForgetAll_forgets s (k / 16) (s.strand k).hc _

/-- A faulted operation's return: it is queued again, its strand has one hold less, and its cluster forgets the leaves of its pages (R443, R503). -/
theorem resumeSubj_op {c n num : Nat} {o : QOp} (ho : (s.strand (strandKey c n)).ops.find? (fun q => q.num == num) = some o) :
    let k := strandKey c n
    let t := s.resumeSubj false (.op c n num)
    { t with clusters := s.clusters } = s.setStrand k { s.strand k with
      ops := (s.strand k).ops.map (fun o => if o.num = num then { o with stage := .queued } else o)
      holds := (s.strand k).holds - 1 } ∧
    ∀ cl, t.cluster cl = if cl = k / 16 then { s.cluster cl with
        tlb := (s.cluster cl).tlb.filter (fun e => !replayForgets (s.strand k).hc (extents (s.forOp k o) o.instr) e) }
      else s.cluster cl := by
  intro k t
  have hf := forgetOp_forgets ho
  refine ⟨?_, fun cl => hf.cluster cl⟩
  simp only [t, k, resumeSubj, releaseHold, modStrand_modStrand, Bool.false_eq_true, if_false]
  rw [hf.eq]
  rfl

end Sys2Proof.Machine.State

namespace Sys2Proof.Proofs

open Machine Claims

/-- RESUME of a handle that stands for nothing, of a trap and of a faulted operation (R443, R503). -/
theorem resumeReturnsFromATrapOrAHeldFault : Claims.resumeReturnsFromATrapOrAHeldFault := by
  intro g x s p c n i w h k freed hp
  rw [exec_resume hp]
  refine ⟨fun hf => congrArg _ (State.resumeOp_stale hf), fun hf hh hb => ⟨fun hs => ?_, fun num o hs hw ho => ?_⟩⟩
  · have hr := State.resumeOp_returns hf (by rw [hs]; exact hh) hb
    rw [hr, hs, State.resumeSubj_trap]
    rfl
  · have hr := State.resumeOp_returns hf (by rw [hs]; exact hh) hb
    rw [hs, hw] at hr
    exact ⟨_, congrArg _ hr, State.resumeSubj_op ho⟩

/-- Settles O36: a trap is what its issue check takes, a return is what its subject gives. -/
theorem trapsTakeTheirExceptionAndResumeReturns : Obligations.TrapsTakeTheirExceptionAndResumeReturns :=
  ⟨trapHoldsTheStrandAndRaisesItsRecord, resumeReturnsFromATrapOrAHeldFault⟩

end Sys2Proof.Proofs
end

section
/-! Engines: how an operation that is alone in its strand starts and completes (R115 to R121). -/

namespace Sys2Proof.Machine

/-- A slot operation's meaning as issue and the engines call it is its meaning in the dispatch; what has no encoding is an event. -/
theorem performOut_eq_exec {i : Instr} (h : (encode i).isSome = true) (s : State) : performOut i s = exec i s := by
  cases i
  all_goals try exact absurd h Bool.false_ne_true
  all_goals rfl

theorem perform_eq {i : Instr} (h : (encode i).isSome = true) {s m : State} (he : exec i s = .next m) : perform i s = m := by
  rw [perform, performOut_eq_exec h, he]

@[simp] theorem strandKey_div (c : Nat) (n : Fin 4) : strandKey c n.val / 4 = c := by
  simp only [strandKey]
  omega

/-- Matrix operations write tiles: a form without a tile is none (R209). -/
theorem isMat_of_tile? {i : Instr} (h : i.tile? = none) : State.isMat i = false := by
  cases i
  case mma | mmat => cases h
  all_goals rfl

namespace State

variable {s : State} {k : Nat} {t : Strand} {o : QOp} {e : Engine}

/-! ### A strand with one queued operation -/

theorem headOf_alone (hops : t.ops = [o]) (he : o.eng = e) (hs : o.stage ≠ .sent) : headOf t e = some o := by
  simp [headOf, hops, he, hs]

theorem barred_alone (hops : t.ops = [o]) : barred t o = false := by simp [barred, hops]

theorem readsReady_alone (hops : t.ops = [o]) (hv : t.vland = []) : readsReady t o = true := by simp [readsReady, hops, hv]

theorem writesReady_alone (hops : t.ops = [o]) (hv : t.vland = []) : writesReady t o = true := by simp [writesReady, hops, hv]

/-- A change of the one operation of a strand. -/
theorem modOp_alone (hops : (s.strand k).ops = [o]) (f : QOp → QOp) :
    s.modOp k o.num f = s.setStrand k { s.strand k with ops := [f o] } := by simp [modOp, modStrand, hops]

/-- Where nothing else of a strand is in flight, its accesses are those of its one operation. -/
theorem acts_alone (hops : (s.strand k).ops = [o]) (hc : s.copies = []) (hg : s.gemvs = [])
    (hh : ∀ r ∈ s.home, sentAct k r = none) : ∀ b ∈ s.acts k, b.num = o.num := by
  have hs : s.home.filterMap (sentAct k) = [] := List.filterMap_eq_nil_iff.mpr hh
  intro b hb
  simp only [acts, hops, hs, hc, hg, List.filter_nil, List.map_nil, List.append_nil, List.mem_map, List.mem_filter,
    List.mem_singleton] at hb
  obtain ⟨q, ⟨rfl, _⟩, rfl⟩ := hb
  rfl

/-- And it waits for no other access of its strand (R262). -/
theorem accessWaits_alone (hops : (s.strand k).ops = [o]) (hc : s.copies = []) (hg : s.gemvs = [])
    (hh : ∀ r ∈ s.home, sentAct k r = none) : s.accessWaits k o = false := by
  have ha := acts_alone hops hc hg hh
  have hb : s.blocked k (s.actOf k o) = false := by
    rw [blocked, List.any_eq_false]
    intro b hb
    simp [ha b hb, actOf]
  have hw : s.writesHeld k (s.actOf k o) = false := by
    rw [writesHeld, Bool.and_eq_false_iff, List.any_eq_false]
    refine Or.inr fun b hb => ?_
    simp [ha b hb, actOf]
  have hu : s.gemvUnread k o.cnt = false := by simp [gemvUnread, hops, hg]
  simp [accessWaits, hb, hw, hu]

/-- An operation with no access in the order of R262 waits for none. -/
theorem accessWaits_unordered (h : ordered o = false) : s.accessWaits k o = false := by simp [accessWaits, h]

theorem headWaits_alone (hops : (s.strand k).ops = [o]) (hv : (s.strand k).vland = []) (ha : s.accessWaits k o = false) :
    s.headWaits k o = false := by
  simp [headWaits, barred_alone hops, readsReady_alone hops hv, ha]

theorem resolveGuard_some {b : Bool} (hg : o.guard = some b) : s.resolveGuard k o = some (b, s) := by simp [resolveGuard, hg]

/-- A guard that stands in a predicate resolves to its value, which the operation keeps (R119). -/
theorem resolveGuard_none {g : Guard} (hg : o.guard = none) (hi : o.instr.guard? = some g)
    (hp : isPending (s.strand k) (.p g.p.val) = false) : s.resolveGuard k o =
      some ((g.p == 0 || (s.strand k).front.p[g.p.val]) != g.neg,
        s.modOp k o.num (fun q => { q with guard := some ((g.p == 0 || (s.strand k).front.p[g.p.val]) != g.neg) })) := by
  simp only [resolveGuard, hg, hi, hp, Bool.false_eq_true, if_false]

/-- A queued operation of a core that is not halted is not held back (R460). -/
theorem takes_queued (hst : o.stage = .queued) (hh : (s.core (k / 4)).halt = 0) :
    ((s.core (k / 4)).halt != 0 && !s.hasTurn k o.num || o.stage != .queued) = false := by simp [hh, hst]

/-- An engine takes the one operation of a strand, whose guard holds and which waits for nothing. -/
theorem startOp_begins (hops : (s.strand k).ops = [o]) (he : o.eng = e) (hst : o.stage = .queued) (hg : o.guard = some true)
    (hh : (s.core (k / 4)).halt = 0) (hw : s.headWaits k o = false) (defer : Bool) :
    s.startOp k e defer = (beginOp defer s k o).idle := by
  have hq : headOf (s.strand k) e = some o := headOf_alone hops he (by simp [hst])
  have ho : { o with guard := some true } = o := by rw [← hg]
  simp only [startOp, hq, takes_queued hst hh, resolveGuard_some hg, ho, hw, Bool.false_eq_true, if_false]

/-- An engine drops the one operation of a strand, whose guard has become false (R119). -/
theorem startOp_drops {g : Guard} (hops : (s.strand k).ops = [o]) (he : o.eng = e) (hst : o.stage = .queued) (hg : o.guard = none)
    (hi : o.instr.guard? = some g) (hp : isPending (s.strand k) (.p g.p.val) = false)
    (hf : ((g.p == 0 || (s.strand k).front.p[g.p.val]) != g.neg) = false) (hh : (s.core (k / 4)).halt = 0) (defer : Bool) :
    s.startOp k e defer = ((s.modOp k o.num (fun q => { q with guard := some false })).dropGuard k o).idle := by
  have hq : headOf (s.strand k) e = some o := headOf_alone hops he (by simp [hst])
  simp only [startOp, hq, takes_queued hst hh, resolveGuard_none hg hi hp, hf, Bool.false_eq_true, if_false]

/-- The operations of the vector engines and of X have two phases. -/
theorem twoPhase_of_lane (he : o.eng = e) (hl : Claims.laneEngine e) : twoPhase o = true := by
  cases e
  case v0 | v1 | x => simp only [twoPhase, he]
  all_goals exact hl.elim

/-- The operations of A, C and Q perform in one act. -/
theorem twoPhase_of_one (he : o.eng = e) (h : e = .a ∨ e = .c ∨ e = .q) : twoPhase o = false := by
  rcases h with rfl | rfl | rfl <;> simp [twoPhase, he]

/-- A queue head with the engine registers it has read (R118, R121). -/
def latchedOp (s : State) (k : Nat) (o : QOp) : QOp :=
  { o with cap := if (engineRefs (·.rd) o.instr).isEmpty && !twoPhase o || o.cap.isSome then o.cap else some (s.strand k).eng }

/-- A form of two phases has read every engine register once it has begun (R118). -/
theorem latchedOp_twoPhase (ht : twoPhase o = true) : latchedOp s k o = { o with cap := some (o.cap.getD (s.strand k).eng) } := by
  cases hc : o.cap <;> simp [latchedOp, ht, hc]

theorem latchedOp_eq_ite :
    (if (engineRefs (·.rd) o.instr).isEmpty && !twoPhase o || o.cap.isSome then o else { o with cap := some (s.strand k).eng }) =
      latchedOp s k o := by
  unfold latchedOp
  split <;> rfl

theorem modOp_latched (hops : (s.strand k).ops = [o]) :
    s.modOp k (latchedOp s k o).num (fun q => { q with cap := (latchedOp s k o).cap }) =
      s.setStrand k { s.strand k with ops := [latchedOp s k o] } := modOp_alone hops _

/-- The machine acting for an operation that begins, alone in its strand. -/
def beginning (s : State) (k : Nat) (o : QOp) (defer : Bool) : State :=
  let y := (s.setStrand k { s.strand k with ops := [latchedOp s k o] }).forOp k (latchedOp s k o)
  { y with ctx := { y.ctx with defer := defer } }

/-- An operation of a vector engine or of X that begins is started (R118). -/
theorem beginOp_twoPhase (hops : (s.strand k).ops = [o]) (hs : isSuspend o = false) (ht : twoPhase o = true)
    (hr : readsMem o.instr = false) (defer : Bool) :
    beginOp defer s k o = s.setStrand k { s.strand k with ops := [{ latchedOp s k o with stage := .started }] } := by
  have hs' : isSuspend (latchedOp s k o) = false := hs
  have ht' : twoPhase (latchedOp s k o) = true := ht
  have hr' : readsMem (latchedOp s k o).instr = false := hr
  simp only [beginOp, latchedOp_eq_ite, modOp_latched hops, hs', ht', hr', Bool.false_and, Bool.false_eq_true, if_false, if_true]
  have hops' : ((s.setStrand k { s.strand k with ops := [latchedOp s k o] }).strand k).ops = [latchedOp s k o] := by
    rw [strand_setStrand, if_pos rfl]
  rw [modOp_alone hops', strand_setStrand, if_pos rfl]
  simp only [setStrand, Map.set_set]

/-- An operation of one act that begins performs (R118). -/
theorem beginOp_oneAct (hops : (s.strand k).ops = [o]) (hs : isSuspend o = false) (ht : twoPhase o = false) (defer : Bool) :
    beginOp defer s k o = (perform o.instr ((beginning s k o defer).noteSide o.instr)).settleOp k (latchedOp s k o) := by
  have hs' : isSuspend (latchedOp s k o) = false := hs
  have ht' : twoPhase (latchedOp s k o) = false := ht
  simp only [beginOp, latchedOp_eq_ite, modOp_latched hops, hs', ht', Bool.false_and, Bool.false_eq_true, if_false]
  rfl

/-! ### What becomes of an operation that has been tried -/

/-- With no withheld landing write an operation leaves its queue alone (R116, R118). -/
theorem leaveQueue_alone (hv : (s.strand k).vland = []) (o : QOp) :
    s.leaveQueue k o = s.setStrand k { s.strand k with ops := (s.strand k).ops.filter (fun q => q.num != o.num) } := by
  have hv' : ((s.popOp k o.num).strand k).vland = [] := by rw [popOp, strand_modStrand_self, hv]
  rw [leaveQueue, settleVland, hv']
  rfl

/-- An operation of one act that has performed leaves its queue (R116). -/
theorem settleOp_done (hr : s.ctx.res = .done) (hb : isBankmode o.instr = false) (ht : o.instr.tile? = none)
    (hv : (s.strand k).vland = []) :
    s.settleOp k o = s.setStrand k { s.strand k with ops := (s.strand k).ops.filter (fun q => q.num != o.num) } := by
  have hw : ((Res.done = Res.waiting) : Prop) = False := by simp
  simp only [settleOp, hr, hw, hb, ht, isMat_of_tile? ht, decide_false, Bool.false_and, Bool.false_eq_true, if_false, bne_self_eq_false]
  exact leaveQueue_alone hv o

/-- One that waits stays queued, or is sent on to its homes (R257). -/
theorem settleOp_waiting (hr : s.ctx.res = .waiting) :
    s.settleOp k o = s.setStrand k { s.strand k with ops := (s.strand k).ops.map (fun q =>
      if q.num ≠ o.num then q
      else if sendsOn o.instr && s.readsAway k o.num then { q with stage := .sent }
      else if q.stage = .sent then { q with stage := .queued } else q) } := by
  cases ha : sendsOn o.instr && s.readsAway k o.num <;> simp [settleOp, hr, ha, modOp, modStrand]

/-- One that has faulted or stopped stays as its meaning left it. -/
theorem settleOp_held (hd : s.ctx.res ≠ .done) (hw : s.ctx.res ≠ .waiting) : s.settleOp k o = s := by
  simp [settleOp, hd, hw]

end State
end Sys2Proof.Machine
end

section
/-! Operations that perform nothing, completion, and the events of engines: the first part of O38. -/

namespace Sys2Proof.Machine

/-! ### A pending bit set or cleared leaves the registers, and the numbers of the queued operations -/

theorem setPend_front (v : Bool) (t : Strand) (r : GReg) : (setPend v t r).front = t.front := by
  unfold setPend
  split <;> rfl

theorem setPend_eng (v : Bool) (t : Strand) (r : GReg) : (setPend v t r).eng = t.eng := by
  unfold setPend
  split <;> rfl

/-- A guard that takes its value leaves the numbers of the queued operations. -/
theorem takeGuards_nums (n : Nat) (v : Bool) (ops : List QOp) : (State.takeGuards n v ops).map (·.num) = ops.map (·.num) := by
  rw [State.takeGuards, List.map_map]
  refine List.map_congr_left fun o _ => ?_
  dsimp only [Function.comp]
  split
  · split <;> rfl
  · rfl

theorem setPend_nums (v : Bool) (t : Strand) (r : GReg) : (setPend v t r).ops.map (·.num) = t.ops.map (·.num) := by
  unfold setPend
  split
  case h_2 n =>
    dsimp only
    split
    · rfl
    · exact takeGuards_nums _ _ _
  all_goals rfl

/-- Pending bits cleared one after another keep what clearing one keeps. -/
theorem foldl_setPend {α : Type} (f : Strand → α) (hf : ∀ t r, f (setPend false t r) = f t) (rs : List GReg) :
    ∀ t, f (rs.foldl (setPend false) t) = f t := by
  induction rs with
  | nil => exact fun _ => rfl
  | cons r rs ih => exact fun t => (ih _).trans (hf t r)

namespace State

variable {s : State} {k : Nat} {o : QOp} {e : Engine}

/-- A reservation given back changes launches alone. -/
theorem unreserve_frame (s : State) (k : Nat) (o : QOp) : ∃ ls, s.unreserve k o = { s with launches := ls } := by
  unfold unreserve
  split
  · exact ⟨_, rfl⟩
  · exact ⟨s.launches, rfl⟩

/-- A strand whose token is as it was before an operation. -/
def tokenBack (o : QOp) (t : Strand) : Strand :=
  match o.instr.token?, o.tok with
  | some i, some v => { t with tokens := t.tokens.set i.val v }
  | _, _ => t

theorem tokenBack_keeps (o : QOp) (t : Strand) :
    (tokenBack o t).front = t.front ∧ (tokenBack o t).eng = t.eng ∧ (tokenBack o t).ops = t.ops := by
  unfold tokenBack
  split <;> exact ⟨rfl, rfl, rfl⟩

/-- A strand without an operation that has performed nothing (R119). -/
def withoutOp (o : QOp) (t : Strand) : Strand :=
  let t := (pendDests o.instr).foldl (setPend false) (tokenBack o t)
  { t with
    ops := t.ops.filter (fun q => q.num != o.num)
    landings := t.landings.filter (fun l => l.num != o.num)
    pend := if writesOcc o.instr then { t.pend with occ := false } else t.pend }

theorem withoutOp_front (o : QOp) (t : Strand) : (withoutOp o t).front = t.front :=
  (foldl_setPend Strand.front (setPend_front false) _ _).trans (tokenBack_keeps o t).1

theorem withoutOp_eng (o : QOp) (t : Strand) : (withoutOp o t).eng = t.eng :=
  (foldl_setPend Strand.eng (setPend_eng false) _ _).trans (tokenBack_keeps o t).2.1

/-- A strand whose queued operations all have one number is left with none. -/
theorem withoutOp_ops {o : QOp} {t : Strand} (h : t.ops.map (·.num) = [o.num]) : (withoutOp o t).ops = [] := by
  have e := foldl_setPend (fun t => t.ops.map (·.num)) (setPend_nums false) (pendDests o.instr) (tokenBack o t)
  rw [(tokenBack_keeps o t).2.2, h] at e
  refine List.filter_eq_nil_iff.mpr fun q hq => ?_
  have : q.num ∈ [o.num] := e ▸ List.mem_map_of_mem hq
  simpa using this

/-- With no matrix operation in flight, an operation without a tile that performs nothing changes launches and its own strand (R119). -/
theorem dropOp_alone (hm : s.mmas = []) (ht : o.instr.tile? = none) :
    ∃ ls, s.dropOp k o = ({ s with launches := ls }).modStrand k (withoutOp o) := by
  obtain ⟨ls, hu⟩ := s.unreserve_frame k o
  refine ⟨ls, ?_⟩
  simp only [dropOp, hu, ht, hm, List.filter_nil, List.foldl_nil]
  rfl

theorem dropGuard_plain (hs : isSuspend o = false) : s.dropGuard k o = s.dropOp k o := by simp [dropGuard, hs]

/-- An engine completes the one operation of a strand: it performs and leaves its queue (R118, R135). -/
theorem completeOp_alone {m : State} (hops : (s.strand k).ops = [o]) (hv : (s.strand k).vland = []) (he : o.eng = e)
    (hst : o.stage = .started) (hm : s.mmas = []) (h2 : twoPhase o = true) (hw : s.writesHeld k (s.actOf k o) = false)
    (hp : perform o.instr (s.forOp k o) = m) (hd : m.ctx.res = .done) (ht : o.instr.tile? = none) :
    s.completeOp k e = (m.leaveQueue k o).idle := by
  have hq : headOf (s.strand k) e = some o := headOf_alone hops he (by simp [hst])
  simp only [completeOp, hq, hst, hm, h2, hw, writesReady_alone hops hv, hp, hd, ht, List.find?_nil, bne_self_eq_false, Bool.not_true,
    Bool.or_false, Bool.false_eq_true, if_false]

end State
end Sys2Proof.Machine

namespace Sys2Proof.Proofs

open Machine Claims

/-- Setting a strand changes that strand alone. -/
theorem onlyStrand_setStrand (s : State) (k : Nat) (u : Strand) : OnlyStrand s (s.setStrand k u) k u where
  mine := (s.strand_setStrand k k u).trans (if_pos rfl)
  others j h := (s.strand_setStrand k j u).trans (if_neg h)
  rest := rfl

/-- Starting and completing at an engine (R115 to R121). -/
theorem enginesStartAndComplete : Claims.enginesStartAndComplete := by
  intro c n e defer s o k u o' y z left hops he hv henc ht hs
  have hk : k / 4 = c.val := strandKey_div c.val n
  refine ⟨fun hst hg hh hord hr hl => ?_, fun g hst hg hi hh hm hp hf => ?_, fun m hst hg hh hc hgv hhome hone hb hex hmv => ?_,
    fun m hst hl hm hw hex hd hmv => ?_⟩
  · have h2 := State.twoPhase_of_lane he hl
    have hwait := State.headWaits_alone hops hv (State.accessWaits_unordered hord)
    refine ⟨_, congrArg Host.Outcome.next (State.startOp_begins hops he hst hg (hk ▸ hh) hwait defer), ?_⟩
    rw [State.beginOp_twoPhase hops hs h2 hr, State.latchedOp_twoPhase h2]
    exact onlyStrand_setStrand s.idle k _
  · refine ⟨_, congrArg Host.Outcome.next (State.startOp_drops hops he hst hg hi hp hf (hk ▸ hh) defer), ?_⟩
    let v : Strand := { u with ops := [{ o with guard := some false }] }
    obtain ⟨ls, hd⟩ := State.dropOp_alone (s := s.setStrand k v) (k := k) hm ht
    have hv' : (s.setStrand k v).strand k = v := (s.strand_setStrand k k v).trans (if_pos rfl)
    rw [State.modOp_alone hops, State.dropGuard_plain hs, hd]
    have hmine : (({ s.setStrand k v with launches := ls }.modStrand k (State.withoutOp o)).idle).strand k = State.withoutOp o v :=
      (State.strand_modStrand_self _ _ _).trans (congrArg (State.withoutOp o) hv')
    rw [hmine]
    exact ⟨State.withoutOp_ops rfl, State.withoutOp_front o v, State.withoutOp_eng o v, rfl, fun j hj =>
      (State.strand_modStrand _ _ _ _).trans ((if_neg hj).trans ((s.strand_setStrand k j v).trans (if_neg hj)))⟩
  · have h2 := State.twoPhase_of_one he hone
    have hwait := State.headWaits_alone hops hv (State.accessWaits_alone hops hc hgv hhome)
    have hlatch : State.latchedOp s k o = o' := by simp only [State.latchedOp, h2, Bool.not_false, Bool.and_true]; rfl
    have hperf : perform o.instr ((State.beginning s k o defer).noteSide o.instr) = m := by
      simp only [State.beginning, hlatch]
      exact perform_eq henc hex
    have hstart : exec (.engineOpStart c n e defer) s = .next (m.settleOp k o').idle := by
      refine congrArg Host.Outcome.next ((State.startOp_begins hops he hst hg (hk ▸ hh) hwait defer).trans ?_)
      rw [State.beginOp_oneAct hops hs h2, hperf, hlatch]
    refine ⟨fun hd => ⟨_, hstart, ?_⟩, fun hw => ⟨_, hstart, ?_⟩, fun hd hw => ?_⟩
    · rw [State.settleOp_done (o := o') hd hb ht hmv]
      exact onlyStrand_setStrand m.idle k _
    · rw [State.settleOp_waiting hw]
      exact onlyStrand_setStrand m.idle k _
    · rw [hstart, State.settleOp_held hd hw]
  · have hperf := perform_eq henc hex
    refine ⟨_, congrArg Host.Outcome.next (State.completeOp_alone hops hv he hst hm (State.twoPhase_of_lane he hl) hw hperf hd ht), ?_⟩
    rw [State.leaveQueue_alone hmv]
    exact onlyStrand_setStrand m.idle k _

end Sys2Proof.Proofs
end

section
/-! Landing data, walks, home requests and bank-mode changes: the second part of O38. -/

namespace Sys2Proof.Machine

namespace NSet

theorem mem_filter (s : NSet) (p : Nat → Bool) (n : Nat) : mem (s.filter p) n = (mem s n && p n) := by
  rw [Bool.eq_iff_iff]
  simp [mem]

theorem mem_del (s : NSet) (k n : Nat) : (s.del k).mem n = (s.mem n && !(n == k)) := mem_filter s _ n

/-- A removed range is gone, the rest stays. -/
theorem mem_delRange (s : NSet) (lo k n : Nat) : (s.delRange lo k).mem n = (s.mem n && !decide (lo ≤ n ∧ n < lo + k)) := by
  refine (mem_filter s _ n).trans (congrArg _ ?_)
  rw [Bool.eq_iff_iff]
  simp

end NSet

namespace State

variable {s : State} {k : Nat} {o : QOp}

/-! ### Walks (R375) -/

/-- The one walk in progress has found its leaf. -/
theorem endWalk_found {w : Walk} {e : TlbEnt} (hw : s.walks = [w]) (he : s.walk w.hc w.va = some e)
    (ht : (s.cluster w.cluster).tlb = []) :
    s.endWalk 0 = walkAgain (({ s with walks := [] } : State).setCluster w.cluster { s.cluster w.cluster with tlb := [e] }) w := by
  have he' : ({ s with walks := [] } : State).walk w.hc w.va = some e := he
  have ht' : (({ s with walks := [] } : State).cluster w.cluster).tlb = [] := ht
  simp only [endWalk, hw, List.length_singleton, Nat.lt_add_one, getElem?_pos, List.getElem_singleton, he', modCluster, ht', BEq.rfl,
    Bool.and_self, Bool.not_true, List.filter_cons, List.filter_nil, Bool.false_eq_true, if_false, if_true, List.any_nil, List.nil_append,
    List.foldl_cons, List.foldl_nil]
  rfl

/-- The one walk in progress has found no leaf. -/
theorem endWalk_missing {w : Walk} (hw : s.walks = [w]) (he : s.walk w.hc w.va = none) :
    s.endWalk 0 = walkFault { s with walks := [] } w := by
  have he' : ({ s with walks := [] } : State).walk w.hc w.va = none := he
  simp [endWalk, hw, he']

/-- The walk's operation, alone in its strand, takes its translation fault. -/
theorem walkFault_alone {w : Walk} (hops : (s.strand (strandKey w.core w.strand)).ops = [o]) (hn : o.num = w.num)
    (hst : o.stage = .walking) (hg : ∀ g tk d a t, o.instr ≠ .gemv g tk d a t) :
    s.walkFault w = ((s.forOp (strandKey w.core w.strand) o).holdFault 1 w.va).idle := by
  have hf : (s.strand (strandKey w.core w.strand)).ops.find? (fun o => o.num == w.num && o.stage == .walking) = some o := by
    simp [hops, hn, hst]
  simp only [walkFault, hf]

@[simp] theorem meKey_forOp : (s.forOp k o).meKey = k := by
  simp only [meKey, forOp, strandKey]
  omega

@[simp] theorem strand_dropTurns (r : HReq) : (dropTurns r s).strand k = s.strand k := rfl

/-- What a held fault leaves: the operation stands FAULTED, its strand has one hold more (R438). -/
theorem holdFault_strand (code va : Nat) : (s.holdFault code va).strand s.meKey = { s.me with
    holds := s.me.holds + 1, ops := s.me.ops.map (fun o => if o.num = s.ctx.num then { o with stage := .faulted } else o) } := by
  refine ((raise_sysChange _ _ _).strand s.meKey).trans ?_
  rw [strand_dropTurns, modMe, strand_modStrand_self]
  rfl

theorem holdFault_walks (code va : Nat) : (s.holdFault code va).walks = s.walks := by
  unfold holdFault
  dsimp only
  exact (raise_sysChange _ _ _).walks

/-! ### Homes (R13, R257) -/

/-- A line that is no host line is not the host-line agent's to take (R240). -/
theorem agentTake_other {line : Nat} (hh : pkind (line * 64) ≠ .host) (st : Mesi) : s.agentTake line st = s := by
  simp [agentTake, hh]

/-- A write at the home of a line that no agent holds changes its bytes, and its poison when it writes the line whole (R246). -/
theorem homeWrite_onlyMem {pa : Nat} {bs : List Byte} (ha : s.agent = []) (hh : pkind (pa / 64 * 64) ≠ .host) :
    Claims.OnlyMem s (s.homeWrite pa bs false) pa bs := by
  have hget : s.agent.get? (pa / 64) = none := by rw [ha]; rfl
  have e : s.homeWrite pa bs false =
      { s with mem := s.mem.write pa bs, linePoison := if bs.length = 64 then s.linePoison.del (pa / 64) else s.linePoison } := by
    simp only [homeWrite, agentTake_other hh, hget, Bool.false_eq_true, if_false]
    split <;> rfl
  rw [e]
  refine ⟨fun a => Mem.read_write _ _ _ _, fun n => ?_, rfl⟩
  by_cases hl : bs.length = 64 <;> simp [hl, NSet.mem_del]

theorem runNext_busy {line : Nat} (h : s.busyLines.mem line = true) : s.runNext line = s := by simp [runNext, h]

/-- The one request waiting at a line, a write of bytes that needs no copy invalidated, runs. -/
theorem runNext_write {q : HReq} {bs : List Byte} (hq : s.home = [q]) (hk : q.kind = .write bs false)
    (hb : s.busyLines.mem (q.addr / 64) = false) (hc : coherent (q.addr / 64) q.pclass = false) (h1 : s.copies = []) (h2 : s.gemvs = []) :
    s.runNext (q.addr / 64) = ({ s with home := [] } : State).homePut q.addr bs false := by
  let u := ({ s with home := [] } : State).homePut q.addr bs false
  have hr : ({ s with home := [] } : State).runHome q = u := by
    simp only [runHome, hk, hc, Bool.false_and, Bool.false_eq_true, if_false]
    rfl
  have hu := homePut_sysChange { s with home := [] } q.addr bs false
  have hu1 : u.copies = [] := (congrArg (·.copies) hu.rest).trans h1
  have hu2 : u.gemvs = [] := (congrArg (·.gemvs) hu.rest).trans h2
  have ha : u.afterHome q = u := by simp only [afterHome, hk, hu1, hu2, List.find?_nil]
  have hd : dropFirst (q.addr / 64) [q] = [] := by simp [dropFirst]
  have hf : [q].find? (fun r => r.addr / 64 == q.addr / 64) = some q := by simp
  have ht : (q.kind == .turn || (q.kind == .chkout && s.wayWaits (clusterOf q.core) (q.addr / 64))) = false := by
    simp [hk]
  simp only [runNext, hb, hq, hf, hd, ht, hr, Bool.false_eq_true, if_false]
  exact ha

/-! ### Bank-mode changes (R244) -/

theorem bank_modBank (cl b : Nat) (f : Bank → Bank) : (s.modBank cl b f).bank cl b = f (s.bank cl b) := by
  simp only [bank, modBank, setBank, cluster_modCluster, if_true, Map.getD_set_self]

/-- The granules of an extent that begins and ends between granules (R245). -/
theorem granSpan_aligned {a n : Nat} (ha : a % 16 = 0) (hn : n % 16 = 0) (h0 : n ≠ 0) : granSpan a n = (a / 16, n / 16) := by
  have h : (a + n - 1) / 16 + 1 - a / 16 = n / 16 := by omega
  simp only [granSpan, h0, if_false, gran, h]

/-- The granules of a bank. -/
theorem granSpan_bank (cl b : Nat) : granSpan (bankAddr cl (b * 65536)) 65536 = (bankAddr cl (b * 65536) / 16, 4096) := by
  have ha : bankAddr cl (b * 65536) % 16 = 0 := by
    simp only [bankAddr, bankBase]
    omega
  rw [granSpan_aligned ha (by norm_num) (by norm_num)]

/-- A bank that is no cache way and changes its mode is cleared, and takes its new mode and owner (R244). -/
theorem convertBank_clears {cl b mode : Nat} {owner : Option Nat} (h1 : (s.bank cl b).mode ≠ 1) (hm : (s.bank cl b).mode ≠ mode) :
    s.convertBank cl b mode owner = (((s.bankClear (bankAddr cl (b * 65536)) 65536).modBank cl b
      (fun k => { k with fhead := 0, ftail := 0 })).modBank cl b
      (fun k => { k with mode := mode, owner := if mode = 1 then none else owner, chg := none })) := by
  simp only [convertBank, hm, h1, if_false]

/-- A change of a bank that nothing uses ends by converting the bank (R244). -/
theorem changeBank_converts {cl b : Nat} {x : Change} (hx : (s.bank cl b).chg = some x) (hs : x.strand = none)
    (h1 : (s.bank cl b).mode ≠ 1) (hu : s.bankInUse cl b x = false) :
    s.changeBank cl b = s.convertBank cl b x.mode x.owner := by
  have hw : ((s.bank cl b).mode == 1) = false := by simpa using h1
  simp only [changeBank, hx, hu, hw, hs, Bool.false_and, Bool.or_false, Bool.false_eq_true, if_false]

end State
end Sys2Proof.Machine

namespace Sys2Proof.Proofs

open Machine Claims

/-- LANDING_DATA_ARRIVAL marks the landing's data as arrived (R57). -/
theorem landingDataArrival_onlyStrand (c : Fin 128) (n : Fin 4) (num : Nat) (s : State) :
    let k := strandKey c.val n.val
    ∃ t, exec (.landingDataArrival c n num) s = .next t ∧ OnlyStrand s t k { s.strand k with
      landings := (s.strand k).landings.map (fun l => if l.num = num ∧ l.data.isSome = true then { l with arrived := true } else l) } :=
  ⟨_, rfl, onlyStrand_setStrand s _ _⟩

/-- TLB_WALK_COMPLETE of a walk that has found its leaf gives it to the TLB and its operation tries again (R375). -/
theorem tlbWalkComplete_found {s : State} {w : Walk} {e : TlbEnt} (hw : s.walks = [w]) (he : s.walk w.hc w.va = some e)
    (ht : (s.cluster w.cluster).tlb = []) :
    ∃ t, exec (.tlbWalkComplete 0) s = .next t ∧ t.walks = [] ∧ t.cluster w.cluster = { s.cluster w.cluster with tlb := [e] } ∧
      (∀ j, j ≠ strandKey w.core w.strand → t.strand j = s.strand j) ∧
      (t.strand (strandKey w.core w.strand)).ops = (s.strand (strandKey w.core w.strand)).ops.map (fun o =>
        if o.num = w.num ∧ o.stage = .walking then { o with stage := .queued } else o) ∧
      { t with walks := s.walks, clusters := s.clusters, strands := s.strands } = s := by
  refine ⟨_, congrArg Host.Outcome.next (State.endWalk_found hw he ht), rfl, ?_, fun j hj => ?_, ?_, rfl⟩
  · exact (State.cluster_setCluster _ _ _ _).trans (if_pos rfl)
  · exact (State.strand_modStrand _ _ _ _).trans (if_neg hj)
  · rw [State.walkAgain, State.modOp, State.strand_modStrand_self]
    refine List.map_congr_left fun o _ => ?_
    by_cases h1 : o.num = w.num <;> by_cases h2 : o.stage = .walking <;> simp [h1, h2]

/-- TLB_WALK_COMPLETE of a walk that has found no leaf faults its operation (R375, R438). -/
theorem tlbWalkComplete_missing {s : State} {w : Walk} {o : QOp} (hw : s.walks = [w]) (he : s.walk w.hc w.va = none)
    (hops : (s.strand (strandKey w.core w.strand)).ops = [o]) (hn : o.num = w.num) (hst : o.stage = .walking)
    (hg : ∀ g tk d a t, o.instr ≠ .gemv g tk d a t) :
    ∃ t, exec (.tlbWalkComplete 0) s = .next t ∧ t.walks = [] ∧
      (t.strand (strandKey w.core w.strand)).ops = [{ o with stage := .faulted }] ∧
      (t.strand (strandKey w.core w.strand)).holds = (s.strand (strandKey w.core w.strand)).holds + 1 := by
  let u : State := ({ s with walks := [] } : State).forOp (strandKey w.core w.strand) o
  have hend : s.endWalk 0 = (u.holdFault 1 w.va).idle :=
    (State.endWalk_missing hw he).trans (State.walkFault_alone hops hn hst hg)
  have hkey : u.meKey = strandKey w.core w.strand := State.meKey_forOp
  have hme : u.me = s.strand (strandKey w.core w.strand) := congrArg s.strand hkey
  have hstrand := State.holdFault_strand (s := u) 1 w.va
  rw [hkey, hme, hops] at hstrand
  refine ⟨_, congrArg Host.Outcome.next hend, State.holdFault_walks _ _, ?_, congrArg Strand.holds hstrand⟩
  refine (congrArg Strand.ops hstrand).trans ?_
  simp [u, State.forOp]

/-- HOME_REQUEST_RUN of a write changes its bytes and signals the scheduler (R13, R246, R330). -/
theorem homeRequestRun_write {s : State} {q : HReq} {bs : List Byte} (hq : s.home = [q]) (hk : q.kind = .write bs false)
    (ha : s.agent = []) (hp : q.pclass ≠ 1) (hh : State.pkind (q.addr / 64 * 64) ≠ .host) (h1 : s.copies = []) (h2 : s.gemvs = [])
    (hb : s.busyLines.mem (q.addr / 64) = false) :
    ∃ m, exec (.homeRequestRun (q.addr / 64)) s = .next (m.noteWrite q.addr bs.length) ∧ OnlyMem { s with home := [] } m q.addr bs := by
  have hc : State.coherent (q.addr / 64) q.pclass = false := by simp [State.coherent, hp, hh]
  exact ⟨_, congrArg Host.Outcome.next (State.runNext_write hq hk hb hc h1 h2), State.homeWrite_onlyMem ha hh⟩

/-- BANK_MODE_CHANGE clears the bank and sets its mode (R244). -/
theorem bankModeChange_clears {cl : Fin 32} {b : Fin 128} {s : State} {x : Change} (hx : (s.bank cl.val b.val).chg = some x)
    (hs : x.strand = none) (h1 : (s.bank cl.val b.val).mode ≠ 1) (hm : (s.bank cl.val b.val).mode ≠ x.mode)
    (hu : s.bankInUse cl.val b.val x = false) :
    let base := bankAddr cl.val (b.val * 65536)
    ∃ t, exec (.bankModeChange cl b) s = .next t ∧
      t.bank cl.val b.val = { s.bank cl.val b.val with
        mode := x.mode, owner := if x.mode = 1 then none else x.owner, chg := none, fhead := 0, ftail := 0 } ∧
      (∀ a, t.mem.read a = if base ≤ a ∧ a < base + 65536 then 0 else s.mem.read a) ∧
      (∀ g, t.full.mem g = (s.full.mem g && !decide (base / 16 ≤ g ∧ g < base / 16 + 4096))) ∧
      (∀ g, t.poison.mem g = (s.poison.mem g && !decide (base / 16 ≤ g ∧ g < base / 16 + 4096))) := by
  refine ⟨_, congrArg Host.Outcome.next ((State.changeBank_converts hx hs h1 hu).trans (State.convertBank_clears h1 hm)), ?_, ?_, ?_, ?_⟩
  · rw [State.bank_modBank, State.bank_modBank]
    simp only [State.bankClear, State.granSpan_bank]
    rfl
  · exact s.mem.read_zero _ _
  · intro g
    simp only [State.bankClear, State.granSpan_bank]
    exact NSet.mem_delRange _ _ _ g
  · intro g
    simp only [State.bankClear, State.granSpan_bank]
    exact NSet.mem_delRange _ _ _ g

/-- Arrival of landing data, the end of a walk, a request at its home, the end of a bank-mode change. -/
theorem dataWalksAndHomesArrive : Claims.dataWalksAndHomesArrive := by
  intro c n cl b num line s
  refine ⟨landingDataArrival_onlyStrand c n num s, fun w e hw he ht => tlbWalkComplete_found hw he ht,
    fun w o hw he hops hn hst _ hg => tlbWalkComplete_missing hw he hops hn hst hg,
    fun q bs hq hk hline _ ha hp hh h1 h2 => ⟨fun hb => ?_, fun hb => ?_⟩, fun x hx hs h1 hm hu => bankModeChange_clears hx hs h1 hm hu⟩
  · subst hline
    exact homeRequestRun_write hq hk ha hp hh h1 h2 hb
  · exact congrArg Host.Outcome.next (State.runNext_busy hb)

/-- Settles O38: the engines' events and the arrivals, each from the lemma of its event. -/
theorem engineLandingWalkHomeAndBankEvents : Obligations.EngineLandingWalkHomeAndBankEvents :=
  ⟨enginesStartAndComplete, dataWalksAndHomesArrive⟩

end Sys2Proof.Proofs
end

section
/-! What every step keeps, but for the operation in progress: its bounds, and how the state's accessors keep them (spec 01 R25, 02 R46, 09 R233). -/

namespace Sys2Proof.Machine

/-- The bounds that every step keeps, on the parts of the state they speak of: canonical memory, cluster widths and marked widths, width codes written and still to be written, launch widths, image widths. -/
structure Within (m : Mem) (cls : Map Cluster) (binding : Map BindEnt) (decks : Vector Deck 4) (ls : List Launch) (is : List Image) : Prop where
  mem : m.wf = true
  width : ∀ c, (cls.getD c Cluster.reset).width ≤ 4
  mark : ∀ c w, (cls.getD c Cluster.reset).mark = some w → w ≤ 4
  wcode : ∀ n, (binding.getD n (BindEnt.reset n)).wcode.toNat ≤ 2
  job : ∀ d j, (decks.toList.getD d (Deck.start Health.all)).job = some j → ∀ e ∈ j.ents, e.2.wcode.toNat ≤ 2
  launch : ∀ l ∈ ls, l.width ≤ 4
  image : ∀ i ∈ is, i.width ≤ 4

namespace State

/-- What every step keeps, but for the operation in progress. Two states that agree on the parts it names are kept alike by definition, so a change of any other part needs no lemma. -/
def Kept (s : State) : Prop := Within s.mem s.clusters s.binding s.plat.decks s.launches s.images

variable {s t : State}

theorem keeps_iff : Claims.Keeps s ↔ Kept s ∧ s.ctx = Ctx.idle :=
  ⟨fun ⟨mem, width, mark, wcode, job, launch, image, idle⟩ => ⟨⟨mem, width, mark, wcode, job, launch, image⟩, idle⟩,
   fun ⟨⟨mem, width, mark, wcode, job, launch, image⟩, idle⟩ => ⟨mem, width, mark, wcode, job, launch, image, idle⟩⟩

/-! ### Shapes of a change -/

/-- The parts that the bounds do not name are free. -/
theorem Kept.frame {strands cores ctxs full poison linePoison agent busyLines home replies copies gemvs mmas pushes walks blks slots cells
    pfx streams pool mbox keys reserved retired ctx schedule nextCore fresh nextId nextGang} (h : Kept s) :
    Kept ⟨strands, cores, s.clusters, ctxs, s.mem, full, poison, linePoison, agent, busyLines, home, replies, s.launches, s.images, copies, gemvs, mmas, pushes, walks,
      blks, slots, cells, pfx, streams, s.binding, pool, mbox, keys, reserved, retired, s.plat, ctx, schedule, nextCore, fresh, nextId, nextGang⟩ := h

theorem Kept.ite {c : Prop} [Decidable c] (ht : Kept s) (hu : Kept t) : Kept (if c then s else t) := by
  split
  · exact ht
  · exact hu

/-- A fold of acts that each keep. -/
theorem Kept.foldl {α : Type} {f : State → α → State} {l : List α} (h : Kept s) (hf : ∀ s, ∀ a ∈ l, Kept s → Kept (f s a)) :
    Kept (l.foldl f s) :=
  List.foldlRecOn (motive := Kept) l f h (fun s hs a ha => hf s a ha hs)

/-- A fold that collects a value beside the state. -/
theorem Kept.foldl_snd {α β : Type} {f : β × State → α → β × State} {l : List α} {b : β} (h : Kept s)
    (hf : ∀ b s a, Kept s → Kept (f (b, s) a).2) : Kept (l.foldl f (b, s)).2 :=
  List.foldlRecOn (motive := fun p : β × State => Kept p.2) l f h (fun p hp a _ => hf p.1 p.2 a hp)

/-- A fold that uses up a value beside the state. -/
theorem Kept.foldl_fst {α β : Type} {f : State × β → α → State × β} {l : List α} {b : β} (h : Kept s)
    (hf : ∀ s b a, Kept s → Kept (f (s, b) a).1) : Kept (l.foldl f (s, b)).1 :=
  List.foldlRecOn (motive := fun p : State × β => Kept p.1) l f h (fun p hp a _ => hf p.1 p.2 a hp)

theorem Kept.getD {o : Option State} (h : Kept s) (ho : ∀ t, o = some t → Kept t) : Kept (o.getD s) := by
  cases o with
  | none => exact h
  | some t => exact ho t rfl

/-! ### The parts that the bounds name -/

theorem Kept.writeMem {a bs} (h : Kept s) : Kept { s with mem := s.mem.write a bs } := { h with mem := Mem.wf_write _ _ _ h.mem }

theorem Kept.zeroMem {a n} (h : Kept s) : Kept { s with mem := s.mem.zero a n } := { h with mem := Mem.wf_zero _ _ _ h.mem }

theorem Kept.setCluster {c : Nat} {k : Cluster} (h : Kept s) (hw : k.width ≤ 4) (hm : ∀ w, k.mark = some w → w ≤ 4) :
    Kept (s.setCluster c k) where
  mem := h.mem
  width j := by
    rw [show (s.setCluster c k).clusters = s.clusters.set c k from rfl, Map.getD_set]
    split
    · exact hw
    · exact h.width j
  mark j w hj := by
    rw [show (s.setCluster c k).clusters = s.clusters.set c k from rfl, Map.getD_set] at hj
    split at hj
    · exact hm w hj
    · exact h.mark j w hj
  wcode := h.wcode
  job := h.job
  launch := h.launch
  image := h.image

/-- A change of a cluster that leaves its width and its mark. -/
theorem Kept.modCluster {c : Nat} {f : Cluster → Cluster} (h : Kept s) (hw : (f (s.cluster c)).width = (s.cluster c).width)
    (hm : (f (s.cluster c)).mark = (s.cluster c).mark) : Kept (s.modCluster c f) :=
  h.setCluster (hw ▸ h.width c) (fun w e => h.mark c w (hm ▸ e))

/-- A change of every listed cluster that leaves widths and marks. -/
theorem Kept.mapClusters {f : Cluster → Cluster} (h : Kept s) (hw : ∀ c, (f c).width = c.width)
    (hm : ∀ c, (f c).mark = c.mark) : Kept { s with clusters := s.clusters.map (fun e => (e.1, f e.2)) } := by
  have hc : ∀ c, let k := Map.getD (s.clusters.map (fun e => (e.1, f e.2))) c Cluster.reset
      k.width = (s.cluster c).width ∧ k.mark = (s.cluster c).mark := by
    intro c
    simp only [Map.getD, Map.get?_map s.clusters (fun _ k => f k), cluster]
    cases s.clusters.get? c with
    | none => exact ⟨rfl, rfl⟩
    | some k => exact ⟨hw k, hm k⟩
  exact { h with
    width := fun c => (hc c).1 ▸ h.width c
    mark := fun c w e => h.mark c w ((hc c).2 ▸ e) }

/-- Leaves dropped from every cluster's TLB. -/
theorem Kept.filterTlbs {p : TlbEnt → Bool} (h : Kept s) :
    Kept { s with clusters := s.clusters.map (fun e => (e.1, { e.2 with tlb := e.2.tlb.filter p })) } :=
  h.mapClusters (f := fun k => { k with tlb := k.tlb.filter p }) (fun _ => rfl) (fun _ => rfl)

/-- A deck after a change of some deck (R356). -/
theorem deck_modDeck (s : State) (d j : Nat) (f : Deck → Deck) :
    (s.modDeck d f).deck j = if j = d ∧ j < 4 then f (s.deck j) else s.deck j := by
  have hd : ∀ u : State, ∀ i, u.deck i = if hi : i < 4 then u.plat.decks[i] else Deck.start Health.all := by
    intro u i
    by_cases hi : i < 4 <;> simp [deck, List.getD_eq_getElem?_getD, hi]
  rw [hd, hd]
  by_cases hj : j < 4
  · by_cases hjd : j = d
    · subst hjd
      simp [modDeck, hj]
    · simp [modDeck, hj, hjd]
  · simp [hj]

/-- A change of a deck whose job, if it has one, is within its bounds. -/
theorem Kept.modDeck_job {d : Nat} {f : Deck → Deck} (h : Kept s)
    (hf : ∀ j, (f (s.deck d)).job = some j → ∀ e ∈ j.ents, e.2.wcode.toNat ≤ 2) : Kept (s.modDeck d f) :=
  { h with
    job := fun i j hj => by
      change ((s.modDeck d f).deck i).job = some j at hj
      rw [deck_modDeck] at hj
      split at hj
      · next e => exact hf j (e.1 ▸ hj)
      · exact h.job i j hj }

/-- A change of a deck that leaves its job. -/
theorem Kept.modDeck {d : Nat} {f : Deck → Deck} (h : Kept s) (hf : (f (s.deck d)).job = (s.deck d).job) :
    Kept (s.modDeck d f) :=
  h.modDeck_job (fun j hj => h.job d j (hf ▸ hj))

/-- A change of launches that leaves their widths. -/
theorem Kept.mapLaunches {f : Launch → Launch} (h : Kept s) (hf : ∀ l, (f l).width = l.width) :
    Kept { s with launches := s.launches.map f } :=
  { h with
    launch := fun l hl => by
      obtain ⟨k, hk, rfl⟩ := List.mem_map.mp hl
      exact hf k ▸ h.launch k hk }

theorem Kept.modLaunch {id : Nat} {f : Launch → Launch} (h : Kept s) (hf : ∀ l, (f l).width = l.width) :
    Kept (s.modLaunch id f) :=
  h.mapLaunches (fun l => by
    split
    · exact hf l
    · rfl)

/-! ### Banks, homes and lines (R240, R243, R245) -/

theorem Kept.setBank {cl b k} (h : Kept s) : Kept (s.setBank cl b k) := h.modCluster rfl rfl

theorem Kept.modBank {cl b f} (h : Kept s) : Kept (s.modBank cl b f) := h.setBank

theorem Kept.notePoison {a n src} (h : Kept s) : Kept (s.notePoison a n src) := by
  unfold State.notePoison
  split <;> exact h

theorem Kept.bankWrite {a bs src} (h : Kept s) : Kept (s.bankWrite a bs src) := h.writeMem.notePoison

theorem Kept.setFull {a n b} (h : Kept s) : Kept (s.setFull a n b) := h

theorem Kept.bankWriteFe {a bs src} (h : Kept s) : Kept (s.bankWriteFe a bs src) := h.bankWrite.setFull

theorem Kept.bankClear {a n} (h : Kept s) : Kept (s.bankClear a n) := h.zeroMem

theorem Kept.bankReset {cl b} (h : Kept s) : Kept (s.bankReset cl b) := h.bankClear.setBank

theorem Kept.agentTake {line st} (h : Kept s) : Kept (s.agentTake line st) := by
  unfold State.agentTake
  split <;> exact h

theorem Kept.homeWrite {pa bs src} (h : Kept s) : Kept (s.homeWrite pa bs src) := by
  have ha : Kept (s.agentTake (pa / 64) .m) := h.agentTake
  unfold State.homeWrite
  extract_lets line t u
  have hu : Kept u := by
    unfold u
    split
    · exact ha
    · exact ha.writeMem
  split
  · exact hu
  · split <;> exact hu

theorem Kept.noteWrite {pa n} (h : Kept s) : Kept (s.noteWrite pa n) :=
  h.mapLaunches (fun l => by split <;> rfl)

theorem Kept.homePut {pa bs src} (h : Kept s) : Kept (s.homePut pa bs src) := h.homeWrite.noteWrite

theorem Kept.homeMerge {line mask data bad} (h : Kept s) : Kept (s.homeMerge line mask data bad) :=
  h.homePut.ite (h.foldl (fun _ _ _ h => h.homePut.ite h))

theorem Kept.setLine {cl line l} (h : Kept s) : Kept (s.setLine cl line l) := h.modCluster rfl rfl

theorem Kept.dropLine {cl line} (h : Kept s) : Kept (s.dropLine cl line) := h.modCluster rfl rfl

theorem Kept.sendDirty {core strand num launch bundle line l} (h : Kept s) :
    Kept (s.sendDirty core strand num launch bundle line l) := h.ite (h.homeMerge.ite h)

theorem Kept.evictLine {cl line} (h : Kept s) : Kept (s.evictLine cl line) := by
  unfold State.evictLine
  split
  · exact h.sendDirty.dropLine
  · exact h

theorem Kept.takeWay {cl line r} (h : Kept s) (e : s.takeWay cl line = some r) : Kept r.2 := by
  unfold State.takeWay at e
  dsimp only at e
  split at e
  · cases e
    exact h
  · split at e
    · cases e
      exact h.evictLine
    · cases e

theorem Kept.fill {c cl line pclass} (h : Kept s) : Kept (s.fill c cl line pclass) := by
  unfold State.fill
  split
  · exact h
  · next e => exact (h.takeWay e).agentTake.setLine

theorem Kept.invalidateOthers {cl line} (h : Kept s) : Kept (s.invalidateOthers cl line) :=
  h.foldl (fun _ _ _ h => h.ite h.dropLine)

end State
end Sys2Proof.Machine
end

section
/-! What every step keeps: registers, turns, the writes of the I/O die, records, traps, the end of a launch and of a context. -/

namespace Sys2Proof.Machine.State

variable {s t : State}

/-! ### Registers and landings -/

theorem Kept.wrX {r v} (h : Kept s) : Kept (s.wrX r v) := h.ite h
theorem Kept.wrP {r v} (h : Kept s) : Kept (s.wrP r v) := h.ite h
theorem Kept.wrV {r m f} (h : Kept s) : Kept (s.wrV r m f) := h
theorem Kept.wrQ {r m f} (h : Kept s) : Kept (s.wrQ r m f) := h.ite h
theorem Kept.addFlags {f} (h : Kept s) : Kept (s.addFlags f) := h
theorem Kept.land {dest lat cls d} (h : Kept s) : Kept (s.land dest lat cls d) := h
theorem Kept.setRes {r} (h : Kept s) : Kept (s.setRes r) := h
theorem Kept.wait (h : Kept s) : Kept s.wait := h

/-! ### Turns (R13, R257) -/

theorem Kept.askLine {r} (h : Kept s) : Kept (askLine r s) := h.ite h

theorem Kept.joinLines {o lines} (h : Kept s) : Kept (joinLines o lines s) := by
  obtain ⟨_, e⟩ := joinLines_frame (s := s) (o := o) (lines := lines)
  rw [e]
  exact h

theorem Kept.asMine {o lines} (h : Kept s) : Kept (s.asMine o lines) := Kept.ite h h

theorem Kept.keepBack {o lines} (h : Kept t) : Kept (keepBack o lines s t) := Kept.ite h h

theorem Kept.giveBack {o lines} (h : Kept t) : Kept (giveBack o lines s t) := Kept.ite h h

theorem Kept.giveUp {o} (h : Kept s) : Kept (giveUp o s) := h.giveBack

theorem Kept.inTurn {o lines f} (h : Kept s) (hf : ∀ s, Kept s → Kept (f s)) : Kept (inTurn o lines f s) :=
  (hf _ h.asMine).giveBack.ite h.joinLines

/-! ### The I/O die's reads and writes (R13, R240) -/

theorem Kept.sysPut {pa pclass bs} (h : Kept s) : Kept (s.sysPut pa pclass bs) :=
  h.foldl (fun _ _ _ h => (h.invalidateOthers.ite h).homePut.ite h)

theorem Kept.sysAsk {c va n} (h : Kept s) : Kept (s.sysAsk c va n) := h.foldl (fun _ _ _ h => h.askLine.ite h)

theorem Kept.whenRead {es f} (h : Kept s) (hf : Kept (f s)) : Kept (whenRead es f s) :=
  (h.foldl (fun _ _ _ h => h.sysAsk)).ite hf

theorem Kept.sysWrite {c va bs} (h : Kept s) (e : s.sysWrite c va bs = some t) : Kept t := by
  unfold State.sysWrite at e
  split at e
  · cases e
  · cases e
    exact h.foldl (fun _ _ _ h => h.sysPut)

/-! ### Rings and records (R437) -/

theorem Kept.ringPut {c r rec} (h : Kept s) (e : s.ringPut c r rec = some t) : Kept t := by
  simp only [State.ringPut] at e
  split at e
  · cases e
  · split at e
    · cases e
    · split at e
      · cases e
      · next hu =>
          cases e
          exact (h.sysWrite hu :)

theorem Kept.ringTurn {o c r n put wait} (h : Kept s) (hp : ∀ s t, Kept s → put s = some t → Kept t)
    (hw : ∀ s, Kept s → Kept (wait s)) : Kept (s.ringTurn o c r n put wait) := by
  unfold State.ringTurn
  dsimp only
  split
  · split
    · next e => exact (hp _ _ h.asMine e).giveBack
    · exact hw _ h.giveUp
  · exact hw _ h.joinLines

theorem Kept.writeFault {c r} (h : Kept s) (e : s.writeFault c r = some t) : Kept t := by
  simp only [State.writeFault] at e
  split at e
  · split at e
    · cases e
    · split at e
      · cases e
      · next hu =>
          cases e
          exact (h.ringPut hu :)
  · exact h.ringPut e

theorem Kept.raise {c r} (h : Kept s) : Kept (s.raise c r) := by
  unfold State.raise
  extract_lets later
  have hl : ∀ s, Kept s → Kept (later s) := fun _ h => h
  exact (h.ringTurn (fun _ _ h e => h.writeFault e) hl).ite (hl s h)

theorem Kept.takeTrap {code aux info} (h : Kept s) : Kept (s.takeTrap code aux info) :=
  (show Kept (s.modMe _) from h).raise.setRes

theorem Kept.holdFault {code va} (h : Kept s) : Kept (s.holdFault code va) :=
  (show Kept (dropTurns _ (s.modMe _)) from h).raise.setRes

/-! ### The end of a launch and of a context (R445, R452) -/

theorem Kept.unlockBank {cl b} (h : Kept s) : Kept (s.unlockBank cl b) := by
  unfold State.unlockBank
  extract_lets u
  have hu : Kept u := h.modBank
  exact Kept.ite hu hu

theorem Kept.unlock {m} (h : Kept s) : Kept (s.unlock m) := h.ite (h.foldl (fun _ _ _ h => h.unlockBank))

theorem Kept.discardWork {k} (h : Kept s) : Kept (s.discardWork k) := by
  unfold State.discardWork
  extract_lets mine s1 busy s2 chg s3
  have h2 : Kept s2 := h.foldl (fun _ _ _ h => h.unlock)
  have h3 : Kept s3 := h2.modCluster rfl rfl
  exact h3

theorem Kept.askRebind {cl} (h : Kept s) : Kept (s.askRebind cl) := h.ite (h.modDeck rfl)

theorem Kept.releaseWindow {k} (h : Kept s) : Kept (s.releaseWindow k) := h.ite h

theorem Kept.freeStrand {k} (h : Kept s) : Kept (s.freeStrand k) := by
  have h1 : Kept ((s.discardWork k).account k) := h.discardWork
  have h2 : Kept ((((s.discardWork k).account k).releaseWindow k).modStrand k (freedStrand k)) := h1.releaseWindow
  exact h2.askRebind

theorem Kept.setStatus {id st} (h : Kept s) : Kept (s.setStatus id st) := h.modLaunch (fun _ => rfl)

theorem Kept.clearV {a} (h : Kept s) : Kept (s.clearV a) := h.writeMem

theorem Kept.retireFrames {c} (h : Kept s) : Kept (s.retireFrames c) := by
  unfold State.retireFrames
  extract_lets frames hit s1 s2
  have h1 : Kept s1 := h.foldl (fun _ _ _ h => h.clearV.ite h)
  have h2 : Kept s2 := h1.foldl (fun _ _ _ h => h)
  exact h2.filterTlbs

theorem Kept.evictStrand {k} (h : Kept s) : Kept (s.evictStrand k) := by
  unfold State.evictStrand
  extract_lets hc s1
  have h1 : Kept s1 := h.foldl (fun _ _ _ h => Kept.ite h h)
  exact Kept.freeStrand h1

theorem Kept.kill {c r} (h : Kept s) : Kept (s.kill c r) := by
  unfold State.kill
  extract_lets ks s1 lost s2 s3 s4 shut s5 s6 life killed
  have h1 : Kept s1 := h.foldl (fun _ _ _ h => h.evictStrand)
  have h2 : Kept s2 := h1.foldl (fun _ _ _ h => h)
  have h3 : Kept s3 := h2.mapLaunches (fun l => by unfold lost; split <;> rfl)
  have h4 : Kept s4 := h3.retireFrames
  clear_value s4
  exact Kept.raise h4

theorem Kept.consume {va} (h : Kept s) : Kept (s.consume va) := h.kill.setRes

/-! ### A home's requests (R13, R257) -/

theorem Kept.grant {k line pclass} (h : Kept s) : Kept (s.grant k line pclass) := by
  unfold State.grant
  extract_lets cl
  split
  · exact h
  · split
    · exact h
    · next e =>
        extract_lets bytes full bad s1 s2
        have h1 : Kept s1 := (h.takeWay e).dropLine
        have h2 : Kept s2 := h1.frame
        exact h2.frame.ite h2

theorem Kept.forceCheckin {line e} (h : Kept s) : Kept (forceCheckin line s e) := by
  unfold State.forceCheckin
  extract_lets r mask s1
  have h1 : Kept s1 := h
  exact Kept.ite h1 h1.homeMerge

theorem Kept.snoopLine {line} (h : Kept s) : Kept (s.snoopLine line) :=
  (h.invalidateOthers.foldl (fun _ _ _ h => h.forceCheckin) :)

theorem Kept.snoopAgent {line inv} (h : Kept s) : Kept (s.snoopAgent line inv) := by
  unfold State.snoopAgent
  extract_lets s1
  have h1 : Kept s1 := by
    unfold s1
    split
    · exact h.writeMem.ite h
    · exact h
  split
  · exact h1.invalidateOthers.frame
  · split
    · exact h1.frame
    · exact h1

theorem Kept.outsideWrite {pa bs} (h : Kept s) : Kept (s.outsideWrite pa bs) := by
  unfold State.outsideWrite
  extract_lets s1 s2
  have h1 : Kept s1 := h.writeMem
  have h2 : Kept s2 := Kept.ite h1 h1
  exact h2.noteWrite

theorem Kept.poisonReply {r} (h : Kept s) : Kept (s.poisonReply r) := h.kill.ite h

theorem Kept.mergeHome {r mask data bad} (h : Kept s) : Kept (s.mergeHome r mask data bad) := h.poisonReply.ite h.homeMerge

theorem Kept.runHome {r} (h : Kept s) : Kept (s.runHome r) := by
  unfold State.runHome
  extract_lets line writes s1 k
  have h1 : Kept s1 := h.invalidateOthers.ite h
  clear_value s1
  split
  case h_1 => exact h1.homePut
  case h_2 =>
    refine h1.poisonReply.ite ?_
    extract_lets n old s2
    have h2 : Kept s2 := h1.homePut
    exact Kept.ite h2 h2
  case h_3 =>
    refine h1.poisonReply.ite ?_
    have h2 : Kept (s1.agentTake (r.addr / 64) .m) := h1.agentTake
    extract_lets n old s3
    have h3 : Kept s3 := h2.homePut.ite h2
    exact Kept.ite h3 h3
  case h_4 => exact h1.grant
  case h_5 => exact h1.mergeHome
  case h_6 => exact h1.mergeHome
  case h_7 =>
    extract_lets e s2
    have h2 : Kept s2 := h1.fill.ite h1
    exact h2.agentTake.frame
  case h_8 => exact h1.snoopLine
  case h_9 => exact h1.snoopAgent
  case h_10 => exact h1.outsideWrite
  case h_11 => exact h1

theorem Kept.sendHome {r} (h : Kept s) : Kept (s.sendHome r) := Kept.ite h h.runHome

theorem Kept.updateCopy {cl line mask data bad} (h : Kept s) : Kept (s.updateCopy cl line mask data bad) := by
  unfold State.updateCopy
  split
  · exact h.setLine
  · exact h

theorem Kept.checkIn {k l} (h : Kept s) : Kept (s.checkIn k l) := by
  unfold State.checkIn
  extract_lets mask r s1 s2
  have h1 : Kept s1 := h
  have h2 : Kept s2 := h1.updateCopy
  split
  · rename_i s3 s4 _ _
    have h4 : Kept s4 := h2.invalidateOthers.ite h2
    exact Kept.ite h4 h4.homeMerge
  · exact Kept.ite h2 h2.sendHome

theorem Kept.checkInAll {k} (h : Kept s) : Kept (s.checkInAll k) := h.foldl (fun _ _ _ h => h.checkIn)

theorem Kept.stopLaunch {id} (h : Kept s) : Kept (s.stopLaunch id) :=
  (h.foldl (fun _ _ _ h => h.checkInAll.freeStrand) : Kept ((s.launchStrands id).foldl (fun s k => ((s.checkInAll k).freeStrand k)) s))

theorem Kept.endLaunch {id r} (h : Kept s) : Kept (s.endLaunch id r) := by
  unfold State.endLaunch
  split
  · exact h
  · exact h.raise.stopLaunch.setStatus

theorem Kept.violate (h : Kept s) : Kept s.violate := h.endLaunch.setRes
theorem Kept.violateNoSlot (h : Kept s) : Kept s.violateNoSlot := h.endLaunch.setRes

theorem Kept.stopAt {e} (h : Kept s) : Kept (s.stopAt e) := by
  cases e with
  | trap | soft => exact h.takeTrap
  | violation => exact h.violate

/-! ### One slot operation (R105, R117, R500) -/

theorem Kept.noteSide {i} (h : Kept s) : Kept (s.noteSide i) := (h.modLaunch (by intro; rfl)).ite h

/-- A slot operation keeps what its effect keeps. -/
theorem Kept.slotOp {i g eff} (h : Kept s) (e : s.slotOp i g eff = .next t) (he : ∀ s, Kept s → Kept (eff s)) : Kept t := by
  unfold State.slotOp at e
  split at e
  · cases e
    exact he _ h
  · split at e
    · cases e
      exact h
    · split at e
      · cases e
        exact h
      · split at e
        · cases e
          exact h
        · split at e
          · cases e
            exact h.stopAt
          · cases e
            exact he _ h.noteSide

end Sys2Proof.Machine.State
end

section
/-! What every step keeps: accesses by virtual address, and the operations on memory. -/

namespace Sys2Proof.Machine

/-- An access keeps the bounds: in the state it leaves or stops in. -/
def Acc.Keeps {α : Type} : Acc α → Prop
  | .ok _ s => State.Kept s
  | .stop s => State.Kept s

namespace Acc.Keeps

variable {α β : Type} {a : Acc α}

theorem bind {f : α → State → Acc β} (ha : a.Keeps) (hf : ∀ v s, State.Kept s → (f v s).Keeps) : (a.bind f).Keeps := by
  cases a with
  | ok v s => exact hf v s ha
  | stop s => exact ha

theorem run {f : α → State → State} (ha : a.Keeps) (hf : ∀ v s, State.Kept s → State.Kept (f v s)) : State.Kept (a.run f) := by
  cases a with
  | ok v s => exact hf v s ha
  | stop s => exact ha

theorem fin (ha : a.Keeps) : State.Kept a.fin := ha.run (fun _ _ h => h)

theorem ite {c : Prop} [Decidable c] {b : Acc α} (ha : a.Keeps) (hb : b.Keeps) : (if c then a else b).Keeps := by
  split
  · exact ha
  · exact hb

/-- An access run over a list. -/
theorem each {f : α → State → Acc Unit} (hf : ∀ v s, State.Kept s → (f v s).Keeps) (as : List α) :
    ∀ s, State.Kept s → (Acc.each f as s).Keeps := by
  induction as with
  | nil => exact fun _ h => h
  | cons a as ih => exact fun s h => (hf a s h).bind (fun _ s h => ih s h)

/-- An access run over a list, its values collected. -/
theorem gather {f : α → State → Acc β} (hf : ∀ v s, State.Kept s → (f v s).Keeps) (as : List α) :
    ∀ s, State.Kept s → (Acc.gather f as s).Keeps := by
  induction as with
  | nil => exact fun _ h => h
  | cons a as ih => exact fun s h => (hf a s h).bind (fun _ s h => (ih s h).bind (fun _ _ h => h))

end Acc.Keeps

namespace State

variable {s t : State}

/-! ### Translation (R374, R375) -/

theorem Kept.tlbForget {cl c va} (h : Kept s) : Kept (s.tlbForget cl c va) := h.modCluster rfl rfl

theorem Kept.tlbForgetAll {cl c es} (h : Kept s) : Kept (s.tlbForgetAll cl c es) :=
  h.foldl (fun _ _ _ h => h.foldl (fun _ _ _ h => h.tlbForget))

theorem Kept.startWalk {va} (h : Kept s) : Kept (s.startWalk va) := by
  unfold State.startWalk
  extract_lets w known s1
  have h1 : Kept s1 := h.frame
  exact (h1.ite h1.frame).wait

theorem Kept.page {u va} (h : Kept s) : (State.page State.holdFault u va s).Keeps := by
  unfold State.page
  extract_lets cl
  split
  · exact h.startWalk
  · split
    · exact h.tlbForget.holdFault
    · exact h

theorem Kept.translate {u va n} (h : Kept s) : (State.translate State.holdFault u va n s).Keeps :=
  Acc.Keeps.gather (fun _ _ h => Acc.Keeps.bind h.page (fun _ _ h => by exact h)) _ s h

/-! ### Lines as a strand reads and writes them (R243, R251 to R255) -/

theorem Kept.noteSeen {c} (h : Kept s) : Kept (s.noteSeen c) := Kept.ite h.frame h

theorem Kept.lineRead {fill pclass c} (h : Kept s) : Kept (lineRead fill pclass c s).2 := by
  unfold State.lineRead
  extract_lets line cl cut
  split
  · exact h
  · split
    · exact (h.setLine.ite h).noteSeen
    · split
      · exact h
      · exact (h.fill.ite h).agentTake

theorem Kept.askLines {fill cs} (h : Kept s) : Kept (askLines fill cs s) := h.foldl (fun _ _ _ h => h.askLine.ite h)

theorem Kept.readLines {fill cs} (h : Kept s) : Kept (readLines fill cs s).2 := h.foldl_snd (fun _ _ _ h => h.lineRead)

theorem Kept.takeReplies {core strand num} (h : Kept s) : Kept (s.takeReplies core strand num) := h.frame

theorem Kept.readPages {ps} (h : Kept s) : (readPages ps s).Keeps := by
  unfold State.readPages
  extract_lets cs
  split
  · exact h.askLines.wait
  · exact h.readLines.takeReplies

theorem Kept.lineWrite {bad pclass pa bs} (h : Kept s) : Kept (lineWrite bad pclass pa bs s) := by
  unfold State.lineWrite
  extract_lets line cl put s1 home
  refine Kept.ite h.frame ?_
  have h1 : Kept s1 := h.fill.ite h
  clear_value s1
  split
  · split
    · exact h1.setLine
    · exact h1.setLine.sendHome
  · exact h1.sendHome

theorem Kept.writePages {ps bs} (h : Kept s) : Kept (writePages ps bs s) :=
  h.foldl_fst (fun _ _ _ h => h.foldl_fst (fun _ _ _ h => h.lineWrite))

/-! ### Withheld writes (R447, R448) -/

theorem Kept.performWithheld {w} (h : Kept s) : Kept (performWithheld s w) := by
  unfold State.performWithheld
  split
  · exact h.lineWrite
  · split
    · exact h.bankWrite
    · exact (h.ite h.bankWrite).setFull

theorem Kept.goOut {free ws} (h : Kept s) : ∀ {stuck}, Kept (goOut free stuck ws s).2 := by
  induction ws generalizing s with
  | nil => exact h
  | cons w ws ih =>
      intro stuck
      unfold State.goOut
      split
      · exact ih (Kept.performWithheld h.frame)
      · exact ih h

theorem Kept.drainWithheld (h : Kept s) : Kept s.drainWithheld := by
  unfold State.drainWithheld
  extract_lets ctx ws r
  refine h.ite ?_
  have hr : Kept r.2 := Kept.goOut h.frame
  exact hr.frame

theorem Kept.loseProtection (h : Kept s) : Kept s.loseProtection := Kept.drainWithheld h.frame

theorem Kept.leave {ws} (h : Kept s) : Kept (leave ws s) := by
  unfold State.leave
  extract_lets need add
  have ha : ∀ s, Kept s → Kept (add s) := fun _ h => h.frame
  split
  · exact ha s h
  · exact (ha _ (h.loseProtection.ite h)).drainWithheld

theorem Kept.takeFull {a n} (h : Kept s) : Kept (s.takeFull a n) := by
  unfold State.takeFull
  extract_lets mine s1
  have h1 : Kept s1 := h.setFull
  exact h1.ite h1.leave

/-! ### Reads and writes by virtual address -/

theorem Kept.readVa {va n} (h : Kept s) : (State.readVa State.holdFault va n s).Keeps := by
  unfold State.readVa
  split
  case h_1 => exact h.translate.bind (fun _ _ h => h.readPages)
  all_goals exact h

theorem Kept.load {va n} (h : Kept s) : (load va n s).Keeps :=
  h.readVa.bind (fun _ s h => by
    split
    · exact h.consume
    · exact h)

theorem Kept.store {fe va bs} (h : Kept s) : (store fe va bs s).Keeps := by
  unfold State.store
  split
  · refine h.translate.bind (fun ps s h => ?_)
    split
    · exact h.wait
    · exact h.writePages.ite h.leave
  · split
    · exact h.wait
    · split
      · exact h.performWithheld
      · exact h.leave
  · exact h

/-! ### FIFO banks (R242) -/

theorem Kept.fifoTake {cl b k} (h : Kept s) : Kept (s.fifoTake cl b k) := (h.foldl (fun _ _ _ h => h.setFull)).modBank

theorem Kept.fifoPut {cl b bs src} (h : Kept s) : Kept (s.fifoPut cl b bs src) := (h.foldl (fun _ _ _ h => h.bankWriteFe)).modBank

/-! ### The operations on memory (10) -/

theorem Kept.loadX {z natural d a l} (h : Kept s) : Kept (loadX z natural d a l s) := h.load.run (fun _ _ h => h.land)

theorem Kept.loadV {d a l} (h : Kept s) : Kept (loadV d a l s) := h.load.run (fun _ _ h => h.land)

theorem Kept.loadFe {take one d a l} (h : Kept s) : Kept (loadFe take one d a l s) := by
  unfold State.loadFe
  extract_lets va n
  split
  · exact h.wait.ite (h.load.run (fun _ _ h => by exact (h.takeFull.ite h).land))
  · refine h.wait.ite ?_
    split
    exact h.consume.ite (h.fifoTake.ite h).land
  · exact h

theorem Kept.storeFe {d a o} (h : Kept s) : Kept (storeFe d a o s) := by
  unfold State.storeFe
  extract_lets va bs
  split
  · exact h.fifoPut.ite h.wait
  · exact h.store.fin

theorem Kept.readWords {vas} (h : Kept s) : (readWords vas s).Keeps := by
  unfold State.readWords
  split
  · exact h
  · split
    · exact (Acc.Keeps.gather (fun _ _ h => h.translate) _ s h).bind (fun _ _ h => h.readPages)
    · exact (Acc.Keeps.gather (fun _ _ h => h.readVa) _ s h).bind (fun _ _ h => h)

theorem Kept.gather {d a l} (h : Kept s) : Kept (gather d a l s) := by
  unfold State.gather
  extract_lets vas
  exact h.readWords.run (fun _ _ h => h.consume.ite h.land)

theorem Kept.storeReady {va n} (h : Kept s) : (storeReady va n s).Keeps := by
  unfold State.storeReady
  split
  · refine h.translate.bind (fun _ s h => ?_)
    split
    · exact h.wait
    · exact h
  · split
    · exact h.wait
    · exact h
  · exact h

theorem Kept.scatter {d a r} (h : Kept s) : Kept (scatter d a r s) :=
  (Acc.Keeps.each (fun _ _ h => h.storeReady) _ s h).run (fun _ _ h => (Acc.Keeps.each (fun _ _ h => h.store) _ _ h).fin)

theorem Kept.feBits {b d a} (h : Kept s) : Kept (feBits b d a s) := by
  unfold State.feBits
  extract_lets n
  split
  · exact h.ite (h.wait.ite (h.setFull.ite h.leave))
  · exact h

theorem Kept.spillTo {d} (h : Kept s) : Kept (spillTo d s) := by
  unfold State.spillTo
  extract_lets v p note
  have hn : ∀ s, Kept s → Kept (note s) := fun _ h => h.frame
  exact (h.translate.run (fun _ _ h => hn _ h)).ite (hn s h)

theorem Kept.fillFrom {d l} (h : Kept s) : Kept (fillFrom d l s) := by
  unfold State.fillFrom
  split
  · exact h.land
  · exact (h.translate.run (fun _ _ h => by exact h.consume.ite h.land)).ite h.land

theorem Kept.prefetch {a o} (h : Kept s) : Kept (prefetch a o s) := by
  unfold State.prefetch
  extract_lets va cl
  split
  · split
    · exact h.fill.ite h
    · exact h
  · exact h

theorem Kept.dropForAtomic {line} (h : Kept s) : Kept (s.dropForAtomic line) := h.evictLine

theorem Kept.reserveLanding {dest lat cls} (h : Kept s) : Kept (s.reserveLanding dest lat cls) := h

theorem Kept.atomic {va n reply new kind} (h : Kept s) : Kept (atomic va n reply new kind s) := by
  unfold State.atomic
  split
  · refine h.wait.ite (h.consume.ite ?_)
    extract_lets old s1
    have h1 : Kept s1 := by
      unfold s1
      split
      · exact h.bankWrite
      · exact h
    split
    · exact h1.land
    · exact h1
  · refine h.translate.run (fun ps s h => ?_)
    split
    · exact h
    · refine h.wait.ite ?_
      extract_lets s1
      have h1 : Kept s1 := by
        unfold s1
        split
        · exact h.reserveLanding
        · exact h
      exact h1.dropForAtomic.sendHome
  · exact h

theorem Kept.atomOp {op dbl d va reply} (h : Kept s) : Kept (atomOp op dbl d va reply s) := by
  unfold State.atomOp
  exact h.atomic

theorem Kept.casOp {dbl d va l} (h : Kept s) : Kept (casOp dbl d va l s) := by
  unfold State.casOp
  exact h.atomic

theorem Kept.checkOut {d a} (h : Kept s) : Kept (checkOut d a s) :=
  h.translate.run (fun _ _ h => h.foldl (fun _ _ _ h => by exact h.ite h.sendHome))

theorem Kept.checkInAt {a} (h : Kept s) : Kept (checkInAt a s) :=
  h.translate.run (fun _ _ h => h.foldl (fun _ _ _ h => h.checkIn))

end State
end Sys2Proof.Machine
end

section
/-! What every step keeps: copies, GEMVs, bank modes, software-flushed lines and the copy schedule. -/

namespace Sys2Proof.Machine.State

variable {s t : State}

/-! ### Reads and writes of a copy engine (R243, R245, R285) -/

theorem Kept.setTok {k tk st bytes} (h : Kept s) : Kept (s.setTok k tk st bytes) := by
  cases tk with
  | none => exact h
  | some => exact h.frame

theorem Kept.walks {ms : List Nat} (h : Kept s) : Kept (ms.foldl State.startWalk s) := h.foldl (fun _ _ _ h => h.startWalk)

theorem Kept.askFor {va n} (h : Kept s) : Kept (s.askFor va n) := h.askLines

theorem Kept.peek {va n} (h : Kept s) : Kept (s.peek va n).2 := by
  unfold State.peek
  split
  case h_3 => exact h.readLines
  all_goals exact h

theorem Kept.peekAll {ps} (h : Kept s) : Kept (peekAll ps s).2 := h.foldl_snd (fun _ _ _ h => h.peek)

theorem Kept.addElems {ws} (h : Kept s) : ∀ {addr fl}, Kept (addElems addr ws (s, fl)).1 := by
  induction ws generalizing s with
  | nil => exact h
  | cons w ws ih => exact ih h.writeMem

theorem Kept.poke {addw va bs bad} (h : Kept s) : Kept (s.poke addw va bs bad).1 := by
  unfold State.poke
  split
  · exact h.bankWriteFe
  · extract_lets addr
    split
    · exact h.addElems
    · exact h.writeMem
  · exact h.fifoPut
  · exact h.foldl_fst (fun _ _ _ h => h.lineWrite)
  · exact h

theorem Kept.pokeAll {addw ps} (h : Kept s) : Kept (s.pokeAll addw ps).1 := h.foldl_fst (fun _ _ _ h => h.poke)

theorem Kept.noteHalf {c p} (h : Kept s) : Kept (noteHalf (s, c) p).1 := by
  unfold State.noteHalf
  split
  · extract_lets lo
    split
    · exact h
    · split
      · exact h
      · split <;> exact h
  · exact h

theorem Kept.writeParts {c all ps} (h : Kept s) : Kept (s.writeParts c all ps).1 :=
  h.pokeAll.foldl_fst (fun _ _ _ h => h.noteHalf)

/-! ### The copy engine (R284 to R290, R441) -/

theorem Kept.modCopy {id f} (h : Kept s) : Kept (s.modCopy id f) := h

theorem Kept.noteTok {c} (h : Kept s) : Kept (s.noteTok c) := by
  unfold State.noteTok
  extract_lets k
  split
  · exact h
  · exact h.setTok.ite h

theorem Kept.finishCopy {c} (h : Kept s) : Kept (s.finishCopy c) := Kept.frame (Kept.setTok h)

theorem Kept.stopCopy {c code va} (h : Kept s) : Kept (s.stopCopy c code va) := by
  unfold State.stopCopy
  extract_lets todo k _ r s1
  have h1 : Kept s1 := h.tlbForget.setTok
  exact h1.modCopy.raise

theorem Kept.asCopy {c} (h : Kept s) : Kept (s.asCopy c) := h

theorem Kept.sectorData {c ks} (h : Kept s) : Kept (sectorData c ks s).2 := by
  unfold State.sectorData
  split
  · exact h.peekAll
  · exact h

theorem Kept.runSectors {c} (h : Kept s) : Kept (s.runSectors c) := by
  unfold State.runSectors
  extract_lets s1 ks bad good ps
  have h1 : Kept s1 := h.asCopy
  refine (h1.foldl (fun _ _ _ h => h.askFor)).ite (h1.ite (h1.violate.ite ?_))
  have h2 : Kept (State.sectorData c good s1).2 := h1.sectorData
  split
  rename_i c1 _ got s2 e
  rw [e] at h2
  split
  · exact h2.consume
  · extract_lets ws
    generalize e : State.writeParts _ c1 _ ws = p
    have h3 : Kept p.1 := e ▸ h2.takeReplies.writeParts
    obtain ⟨s3, c2⟩ := p
    dsimp -zeta only
    extract_lets s4
    have h4 : Kept s4 := h3.modCopy.noteTok
    refine h4.ite ?_
    split
    · exact h4.stopCopy
    · exact h4.finishCopy.ite h4

theorem Kept.readAll {c} (h : Kept s) : Kept (s.readAll c) := by
  unfold State.readAll
  extract_lets s1 ps
  have h1 : Kept s1 := h.asCopy
  split
  · exact h1.stopCopy
  · exact (h1.foldl (fun _ _ _ h => h.askFor)).ite (h1.foldl_snd (fun _ _ _ h => h.peekAll)).takeReplies.modCopy

theorem Kept.takeGranule {c i r} (h : Kept s) (e : s.takeGranule c i = some r) : Kept r.2 := by
  unfold State.takeGranule at e
  extract_lets a at e
  split at e
  · split at e
    · cases e
      exact h.fifoTake
    · cases e
  · split at e
    · cases e
      exact h.peek
    · split at e
      · cases e
        exact h.takeFull
      · cases e
  · split at e
    · cases e
    · cases e
      exact h.peek.takeReplies

theorem Kept.flushCarry {c} (h : Kept s) : Kept (s.flushCarry c) := h.ite h.writeParts.modCopy.noteTok

theorem Kept.runGranules {write fuel} : ∀ {c s}, Kept s → Kept (runGranules write fuel c s) := by
  induction fuel with
  | zero => exact fun h => h.finishCopy.ite h
  | succ n ih =>
      intro c s h
      unfold State.runGranules
      extract_lets i ahead
      split
      extract_lets miss fault room
      clear_value ahead miss fault room
      refine h.walks.ite ?_
      split
      · exact h.flushCarry.ite (h.stopCopy.ite h)
      · refine h.ite (h.violate.ite ?_)
        split
        · exact h.askFor.ite h
        · next s1 e =>
          have h1 : Kept s1 := by
            split at e
            · obtain ⟨_, _, e⟩ := Option.map_eq_some_iff.mp e
              cases e
              exact h
            · exact (h.takeGranule e :)
          exact (ih h1.modCopy).ite (h1.consume.ite (ih h1.writeParts.modCopy.noteTok))

theorem Kept.tryCopy {c} (h : Kept s) : Kept (s.tryCopy c) := h.ite ((h.readAll.ite h).ite h.runSectors)

theorem Kept.stepCopy {c} (h : Kept s) : Kept (s.stepCopy c) := by
  unfold State.stepCopy
  refine h.ite ?_
  extract_lets s1 ks miss
  have h1 : Kept s1 := h.asCopy
  exact ((h1.runGranules.ite h1).ite h1.runGranules).ite (h1.tryCopy.ite h1.walks)

theorem Kept.newId (h : Kept s) : Kept s.newId.2 := h

theorem Kept.takeCopy {tk src dst len port addw kind slot} (h : Kept s) : Kept (s.takeCopy tk src dst len port addw kind slot) := by
  unfold State.takeCopy
  extract_lets k cnt
  have h1 : Kept s.newId.2 := h.newId
  exact h1.setTok.ite (Kept.frame h1.setTok)

theorem Kept.copyOp {tk d a n} (h : Kept s) : Kept (copyOp tk d a n s) := h.takeCopy
theorem Kept.copysOp {tk d a t} (h : Kept s) : Kept (copysOp tk d a t s) := h.takeCopy
theorem Kept.copygOp {tk d a t} (h : Kept s) : Kept (copygOp tk d a t s) := h.takeCopy
theorem Kept.copyfeOp {tk d a t} (h : Kept s) : Kept (copyfeOp tk d a t s) := h.takeCopy

/-! ### GEMV (R138, R295 to R297) -/

theorem Kept.modGemv {id f} (h : Kept s) : Kept (s.modGemv id f) := h

theorem Kept.stopGemv {c code va} (h : Kept s) : Kept (s.stopGemv c code va) := by
  unfold State.stopGemv
  extract_lets k _ r s1
  have h1 : Kept s1 := h.tlbForget.setTok
  exact h1.modGemv.raise

theorem Kept.describeGemv {c} (h : Kept s) : Kept (describeGemv c s) := by
  unfold State.describeGemv
  have h1 : Kept (s.peek c.desc.toNat 32).2 := h.peek
  exact h1.takeReplies.consume.ite (h1.takeReplies.modGemv.ite h1.takeReplies.violate)

theorem Kept.stackAsk {va n} (h : Kept s) : Kept (s.stackAsk va n) := h.foldl (fun _ _ _ h => h.askLine.ite h)

theorem Kept.computeGemv {c} (h : Kept s) : Kept (computeGemv c s) := by
  unfold State.computeGemv
  have h1 : Kept ((s.peek c.input.toNat (c.k + c.k / 32)).2.takeReplies c.core c.strand c.num) := h.peek.takeReplies
  exact h1.consume.ite (h1.consume.ite (h1.consume.ite h1.modGemv))

theorem Kept.noteGemv {c} (h : Kept s) : Kept (s.noteGemv c) := by
  unfold State.noteGemv
  extract_lets k waiting
  split
  · exact h
  · exact h.setTok.ite h

theorem Kept.writeGemv {c bs fl} (h : Kept s) : Kept (writeGemv c bs fl s) :=
  h.ite (h.violate.ite h.pokeAll.modGemv.noteGemv)

theorem Kept.finishGemv {c fl} (h : Kept s) : Kept (finishGemv c fl s) :=
  Kept.frame (Kept.setTok (show Kept (s.modStrand _ _) from h))

theorem Kept.runGemv {c} (h : Kept s) : Kept (runGemv c s) := by
  unfold State.runGemv
  extract_lets kb
  split
  · exact h.ite h.writeGemv
  · exact (h.askFor.ite h.describeGemv).ite (h.violate.ite (h.askFor.stackAsk.stackAsk.ite h.computeGemv))

theorem Kept.asGemv {c} (h : Kept s) : Kept (s.asGemv c) := h

theorem Kept.stepGemv {c} (h : Kept s) : Kept (s.stepGemv c) := by
  unfold State.stepGemv
  refine h.ite ?_
  split
  · exact h.finishGemv
  · extract_lets s1
    have h1 : Kept s1 := h.asGemv
    split
    · exact h1.walks
    · exact h1.stopGemv
    · exact h1.runGemv

theorem Kept.newGemv {tk d a t} (h : Kept s) : Kept (newGemv tk d a t s).2 := by
  have h1 : Kept s.newId.2 := h.newId
  exact Kept.frame h1.setTok

theorem Kept.gemvOp {tk d a t} (h : Kept s) : Kept (gemvOp tk d a t s) := by
  unfold State.gemvOp
  extract_lets va
  refine h.violate.ite ?_
  split
  · exact h.walks
  · exact h.askFor.wait.ite h.newGemv.describeGemv

theorem Kept.gemvFault {tk d a t va} (h : Kept s) : Kept (gemvFault tk d a t va s) := h.newGemv.stopGemv

/-! ### Bank modes and software-flushed lines (R244, R298 to R300) -/

theorem Kept.bankmodeOp {x} (h : Kept s) : Kept (bankmodeOp x s) := h.wait.ite (h.violate.ite h.modBank)

theorem Kept.flushOp {d a} (h : Kept s) : Kept (flushOp d a s) := h.foldl (fun _ _ _ h => h.sendDirty.setLine)

theorem Kept.invalOp {d a} (h : Kept s) : Kept (invalOp d a s) := h.wait.ite (h.foldl (fun _ _ _ h => h.dropLine))

/-! ### The static copy schedule (R291, R292) -/

theorem Kept.armEntry {k} (h : Kept s) : Kept (s.armEntry k) := by
  unfold State.armEntry
  split
  · exact h
  · extract_lets banks wait s1
    have h1 : Kept s1 := Kept.ite h h.frame
    exact h.ite (h1.ite (Kept.frame h1.setTok))

theorem Kept.startEntry {k} (h : Kept s) : Kept (s.startEntry k) := by
  unfold State.startEntry
  extract_lets s1 t
  have h1 : Kept s1 := h.armEntry
  split
  · rename_i s2 s3 _ _ _ _ _ _
    have h3 : Kept s3 := h1
    clear_value s3
    refine h1.ite ?_
    split
    exact h3.endLaunch.setRes.ite h3.takeCopy.armEntry
  · exact h1

end Sys2Proof.Machine.State
end

section
/-! What every step keeps: tiles and matrix operations, vector and candidate registers, gangs. -/

namespace Sys2Proof.Machine.State

variable {s t : State}

/-! ### Tiles and matrix operations (R204 to R223) -/

theorem Kept.setTileRow {core tile m ws} (h : Kept s) : Kept (s.setTileRow core tile m ws) := h.foldl (fun _ _ _ h => h.writeMem)

theorem Kept.setTileAll {core tile ws} (h : Kept s) : Kept (s.setTileAll core tile ws) := h.foldl (fun _ _ _ h => h.setTileRow)

theorem Kept.zeroTile {core tile} (h : Kept s) : Kept (s.zeroTile core tile) :=
  h.foldl (fun _ _ _ h => h.foldl (fun _ _ _ h => h.zeroMem))

theorem Kept.matWrite {core tile m n lo hi o} (h : Kept s) : Kept (s.matWrite core tile m n lo hi o).1 :=
  h.foldl_fst (fun _ _ _ h => h.setTileRow)

theorem Kept.matOp {trans d a b xm xn xk f} (h : Kept s) : Kept (matOp trans d a b xm xn xk f s) := by
  unfold State.matOp
  extract_lets m n k
  refine h.ite (h.readVa.run (fun opA s h => h.readVa.run (fun opB s h => ?_)))
  extract_lets mine o
  split
  · exact h.consume
  · exact h.consume
  · exact Kept.ite h.frame h.matWrite.addFlags

theorem Kept.accret {d a ty} (h : Kept s) : Kept (accret d a ty s) := h.store.run (fun _ _ h => h.zeroTile.addFlags)

theorem Kept.imageLoad {va n} (h : Kept s) : (State.imageLoad va n s).Keeps := by
  unfold State.imageLoad
  split
  · exact h
  · exact h.load

theorem Kept.accadd {d a ty} (h : Kept s) : Kept (accadd d a ty s) := h.imageLoad.run (fun _ _ h => h.setTileAll.addFlags)
theorem Kept.accld {d a} (h : Kept s) : Kept (accld d a s) := h.imageLoad.run (fun _ _ h => h.setTileAll)
theorem Kept.accst {d a} (h : Kept s) : Kept (accst d a s) := h.store.fin
theorem Kept.accrd {d t xm} (h : Kept s) : Kept (accrd d t xm s) := h.wrV

theorem Kept.accwr {d v xm} (h : Kept s) : Kept (accwr d v xm s) := by
  have hp : ∀ {s : State} {i ws}, Kept s → Kept (if i < 64 then s.setTileRow s.ctx.core (s.tileOf d) i ws else s) :=
    fun h => h.setTileRow.ite h
  exact hp (hp h)

theorem Kept.clearBusy {core tile} (h : Kept s) : Kept (s.clearBusy core tile) := h
theorem Kept.popOp {k num} (h : Kept s) : Kept (s.popOp k num) := h

theorem Kept.consumeMma {m} (h : Kept s) : Kept (s.consumeMma m) := Kept.ite h (Kept.frame h.unlock)
theorem Kept.stepMma {m} (h : Kept s) : Kept (s.stepMma m) := Kept.ite h (Kept.frame h.matWrite)
theorem Kept.completeMma {m} (h : Kept s) : Kept (s.completeMma m) := Kept.ite h (Kept.frame h.matWrite)

/-! ### Vector and candidate registers (R185 to R203, R224 to R232) -/

theorem Kept.lanewise {d m f} (h : Kept s) : Kept (lanewise d m f s) := h.wrV.addFlags
theorem Kept.vrand {d a t m ty adv} (h : Kept s) : Kept (vrand d a t m ty adv s) := h.wrV.wrV.wrV.ite h.wrV
theorem Kept.cdraw {d a} (h : Kept s) : Kept (cdraw d a s) := h.wrX.ite h.wrX

/-! ### Members and barriers (R53, R415) -/

theorem Kept.modMember {id i f} (h : Kept s) : Kept (s.modMember id i f) := h.modLaunch (fun _ => rfl)

theorem Kept.arrive {b} (h : Kept s) : Kept (s.arrive b) := by
  unfold State.arrive
  extract_lets gen f s1
  have h1 : Kept s1 := h.modLaunch (fun _ => rfl)
  exact h1

theorem Kept.acquire {cl} (h : Kept s) : Kept (s.acquire cl) := h.modCluster rfl rfl

theorem Kept.putDatum {k d v} (h : Kept s) : Kept (s.putDatum k d v) := by
  unfold State.putDatum
  split
  · exact Kept.ite h h.frame
  · exact h.frame
  · exact h

theorem Kept.settleLandings {k} (h : Kept s) : Kept (s.settleLandings k) := by
  unfold State.settleLandings
  extract_lets t s1 s2
  have h1 : Kept s1 := h.foldl (fun _ _ _ h => h.putDatum)
  have h2 : Kept s2 := h1.foldl (fun _ l _ h => by
    split
    · exact h.putDatum
    · exact h)
  exact h2.frame

theorem Kept.movePark {k n} (h : Kept s) : Kept (s.movePark k n) := by
  unfold State.movePark
  split
  · exact h
  · exact Kept.ite h h.frame

/-! ### Start (R49, R50, R248) -/

theorem Kept.clearPlan {core plan} (h : Kept s) : Kept (s.clearPlan core plan) := h.foldl (fun _ _ _ h => h.bankClear)
theorem Kept.clearWindow {k} (h : Kept s) : Kept (s.clearWindow k) := h.foldl (fun _ _ _ h => h.zeroTile)
theorem Kept.setStrand {k t} (h : Kept s) : Kept (s.setStrand k t) := h

theorem Kept.startMember {l i m} (h : Kept s) : Kept (s.startMember l i m) := h.clearPlan.setStrand.clearWindow.acquire.armEntry

/-! ### Suspension (R62 to R64) -/

theorem Kept.freeVal (h : Kept s) : Kept s.freeVal.2 := h

theorem Kept.freeBytes {n} : ∀ {s}, Kept s → Kept (freeBytes n s).2 := by
  induction n with
  | zero => exact fun h => h
  | succ n ih => exact fun h => ih h.freeVal

theorem Kept.of_freeBytes {n bs} (h : Kept s) (e : State.freeBytes n s = (bs, t)) : Kept t := by
  have ht := h.freeBytes (n := n)
  rwa [e] at ht

theorem Kept.saveAt {c va w} (h : Kept s) : Kept (s.saveAt c va w) := h.getD (fun _ e => h.sysWrite e)

theorem Kept.keepCopies {k i} (h : Kept s) : Kept (s.keepCopies k i) := h

theorem Kept.suspendMember {l e} (h : Kept s) : Kept (suspendMember l s e) := by
  unfold State.suspendMember
  extract_lets k s1 s2 t pre va oldP s3 s4 s5 rec_ s6 cs gs
  have h2 : Kept s2 := h.settleLandings.foldl (fun _ _ _ h => h.movePark)
  have h3 : Kept s3 := h2.foldl (fun _ _ _ h => h.saveAt)
  have h4 : Kept s4 := by
    refine Kept.ite ?_ h3
    split
    next e => exact (h3.of_freeBytes e).saveAt
  have h5 : Kept s5 := h4.foldl (fun _ _ _ h => by
    refine Kept.ite ?_ h
    split
    next e => exact (h.of_freeBytes e).saveAt)
  have h6 : Kept s6 := h5.saveAt.keepCopies
  exact h6.freeStrand.modMember

theorem Kept.notePreempt {l core} (h : Kept s) : Kept (s.notePreempt l core) := Kept.ite h h

theorem Kept.suspendGang {l} (h : Kept s) : Kept (suspendGang l s) := by
  unfold State.suspendGang
  extract_lets ms pre s1 s2 gone
  have h1 : Kept s1 := h.notePreempt.ite h
  have h2 : Kept s2 := h1.foldl (fun _ _ _ h => h.suspendMember)
  exact h2.modLaunch (fun _ => rfl)

theorem Kept.tryRendezvous {id} (h : Kept s) : Kept (s.tryRendezvous id) := by
  unfold State.tryRendezvous
  split
  · exact h
  · extract_lets ms s1
    have h1 : Kept s1 := h.foldl (fun _ _ _ h => h.checkInAll)
    exact h.ite (h1.ite (h1.inTurn (fun _ h => h.suspendGang)))

/-! ### Resumption and exit (R53, R65, R352) -/

theorem Kept.restoreTokens {k toks} (h : Kept s) : Kept (s.restoreTokens k toks) :=
  h.foldl (fun s j _ h => by
    extract_lets st copies
    clear_value st
    cases st with
    | clear => exact h
    | done => exact h.freeVal.setTok
    | armed | faulted => exact h.setTok)

theorem Kept.giveCopies {id i core strand} (h : Kept s) : Kept (s.giveCopies id i core strand) := h

theorem Kept.endSkipped {k} (h : Kept s) : Kept (s.endSkipped k) := by
  unfold State.endSkipped
  extract_lets s1 gone s2
  have h1 : Kept s1 := h.foldl (fun _ _ _ h => h.finishCopy)
  have h2 : Kept s2 := h1.foldl (fun _ _ _ h => h.setTok)
  exact h2.frame

theorem Kept.walkAfresh {k} (h : Kept s) : Kept (s.walkAfresh k) :=
  (h.foldl (fun _ _ _ h => h.tlbForgetAll)).foldl (fun _ _ _ h => h.tlbForgetAll)

theorem Kept.resumeMember {l i m} (h : Kept s) : Kept (s.resumeMember l i m) := by
  unfold State.resumeMember
  exact h.clearPlan.setStrand.clearWindow.giveCopies.restoreTokens.endSkipped.walkAfresh.acquire.armEntry

theorem Kept.exitMember {k} (h : Kept s) : Kept (s.exitMember k) := by
  unfold State.exitMember
  extract_lets t s1 s2 s3
  have h1 : Kept s1 := h
  have h3 : Kept s3 := h1.checkInAll.freeStrand.modMember.modLaunch (fun _ => rfl)
  split
  · exact h3
  · exact h3.ite (h3.setStatus.ite h3.tryRendezvous)

end Sys2Proof.Machine.State
end

section
/-! What every step keeps: launch records, dictionary windows, and the queue operations of ordering and scheduling. -/

namespace Sys2Proof.Machine.State

variable {s t : State}

/-! ### Event and launch records (R42, R326 to R333) -/

theorem Kept.modHctx {c f} (h : Kept s) : Kept (s.modHctx c f) := h

theorem Kept.postEvent {c ty word seq stream sid} (h : Kept s) : Kept (s.postEvent c ty word seq stream sid) := by
  unfold State.postEvent
  extract_lets lost rec_
  split
  · next e => exact (h.ringPut e).modHctx
  · exact h.modHctx

theorem Kept.reject {c stream reason} (h : Kept s) : Kept (s.reject c stream reason) := h.raise

theorem Kept.writeJournal {slot bs} (h : Kept s) : Kept (s.writeJournal slot bs) := h.writeMem.writeMem

theorem Kept.clearRecords {c areas} (h : Kept s) : Kept (s.clearRecords c areas) :=
  h.foldl (fun _ _ _ h => h.getD (fun _ e => h.sysWrite e))

/-- A launch within its bounds enters the journal. -/
theorem Kept.addLaunch {l : Launch} (h : Kept s) (hl : l.width ≤ 4) : Kept { s with launches := s.launches ++ [l] } :=
  { h with
    launch := fun k hk => by
      obtain hk | hk := List.mem_append.mp hk
      · exact h.launch k hk
      · exact List.mem_singleton.mp hk ▸ hl }

theorem Kept.accept {c stream r g starts areas fromNotify} (h : Kept s) (hg : g.width ≤ 4) :
    Kept (s.accept c stream r g starts areas fromNotify) := by
  have hj : ∀ {slot bs}, Kept ((s.newId.2.writeJournal slot bs).clearRecords c areas) := h.newId.writeJournal.clearRecords
  exact hj.modHctx.addLaunch hg

/-- The image of an accepted record is loaded. -/
theorem image_of_checkLaunch {c stream seq r g st} (e : s.checkLaunch c stream seq r = .ok (g, st)) : g ∈ s.images := by
  unfold State.checkLaunch at e
  extract_lets regs k at e
  split at e
  · cases e
  · split at e
    · cases e
    · next hf =>
      suffices g = _ from this ▸ List.mem_of_find?_eq_some hf
      split at e
      · cases e
      · split at e
        · cases e
        · split at e
          · cases e
          · split at e
            · cases e
            · split at e <;> cases e
              rfl

theorem Kept.takeRecord {c stream r fromNotify} (h : Kept s) (e : s.takeRecord c stream r fromNotify = some t) : Kept t := by
  unfold State.takeRecord at e
  extract_lets seq at e
  split at e
  · cases e
  · split at e
    · cases e
      exact h.reject
    · next hc =>
      split at e
      · cases e
      · cases e
        exact h.accept (h.image _ (image_of_checkLaunch hc))

theorem Kept.deviceLaunch {c r} (h : Kept s) : Kept (s.deviceLaunch c r).2 := by
  unfold State.deviceLaunch
  extract_lets stream d bad full
  split
  · exact h.reject
  · split
    · exact h
    · split
      · exact h.reject
      · next hc =>
        split
        · exact h
        · exact h.accept (h.image _ (image_of_checkLaunch hc))

/-! ### Dictionary windows (R358 to R362) -/

theorem Kept.modCore {c f} (h : Kept s) : Kept (s.modCore c f) := h

theorem Kept.allocWindow {fuel core size b} : ∀ {s}, Kept s → s.allocWindow fuel core size = some (b, t) → Kept t := by
  induction fuel with
  | zero =>
    intro s h e
    obtain ⟨_, _, e⟩ := Option.map_eq_some_iff.mp e
    cases e
    exact h
  | succ n ih =>
    intro s h e
    unfold State.allocWindow at e
    split at e
    · cases e
      exact h
    · split at e
      · cases e
      · exact ih h.modCore e

theorem Kept.placeWindow {core image gcore dict b n} (h : Kept s) (e : s.placeWindow core image gcore dict = some (b, n, t)) : Kept t := by
  unfold State.placeWindow at e
  extract_lets stamp at e
  split at e
  · cases e
    exact h.modCore
  · split at e
    · cases e
    · next ha =>
      cases e
      exact (h.allocWindow ha).modCore

theorem Kept.privateWindow {k} (h : Kept s) (e : s.privateWindow k = some t) : Kept t := by
  unfold State.privateWindow at e
  split at e
  · cases e
    exact h
  · split at e
    · cases e
    · split at e
      · cases e
      · next ha =>
        cases e
        have ht : Kept _ := h.allocWindow ha
        exact ht

theorem Kept.writeWindow {k first bs} (h : Kept s) : Kept (s.writeWindow k first bs) := h

/-! ### Ordering (R301 to R303) -/

theorem Kept.acquireFor {c} (h : Kept s) : Kept (acquireFor c s) := h.ite (h.acquire.ite h.wait)
theorem Kept.fenceAcq {c} (h : Kept s) : Kept (fenceAcq c s) := h.acquireFor.ite h.wait
theorem Kept.fenceRel {c} (h : Kept s) : Kept (fenceRel c s) := h.ite h.wait
theorem Kept.fenceFull {c} (h : Kept s) : Kept (fenceFull c s) := h.acquireFor.ite h.wait
theorem Kept.drainOp {c} (h : Kept s) : Kept (drainOp c s) := h.ite h.wait

/-! ### Push queues (R259, R260, R345 to R348) -/

theorem Kept.modPush {id q f} (h : Kept s) : Kept (s.modPush id q f) := h.modLaunch (fun _ => rfl)

theorem Kept.pushOp {d a t} (h : Kept s) : Kept (pushOp d a t s) := by
  unfold State.pushOp
  extract_lets n q va
  split
  · refine h.ite (h.wait.ite (h.readVa.run (fun r s h => ?_)))
    extract_lets s1 s2 first
    have h1 : Kept s1 := h.modPush.ite h
    have h2 : Kept s2 := h1.loseProtection.ite h1
    exact h2.foldl (fun _ _ _ h => h.newId)
  · exact h

theorem Kept.popQueue {d x} (h : Kept s) : Kept (popQueue d x s) := by
  unfold State.popQueue
  extract_lets w q n
  split
  · refine h.wait.ite ?_
    exact (h.foldl (fun _ _ _ h => h.setFull)).modPush.wrX
  · exact h

theorem Kept.qstatOp {d x} (h : Kept s) : Kept (qstatOp d x s) := by
  unfold State.qstatOp
  extract_lets w
  split
  · exact h
  · exact h.wrX

theorem Kept.deliverPush {id} (h : Kept s) : Kept (s.deliverPush id) := by
  unfold State.deliverPush
  split
  · exact h
  · extract_lets first s'
    split
    · split
      · exact h
      · refine h.ite ?_
        exact Kept.modPush (Kept.frame h.bankWriteFe)
    · exact h

/-! ### NOTIFY and LAUNCH (R335, R349, R350) -/

theorem Kept.notifyAct {a t} (h : Kept s) : (State.notifyAct a t s).Keeps := by
  unfold State.notifyAct
  extract_lets va
  refine h.translate.bind (fun dps s h => h.load.bind (fun bs s h => ?_))
  extract_lets d i logd qva slot
  split
  · exact h.violate
  · refine h.page.bind (fun qp s h => ?_)
    split
    · exact h.violate
    · refine h.load.bind (fun hs s h => ?_)
      split
      · exact h.wait
      · refine h.translate.bind (fun rps s h => h.translate.bind (fun tps s h => ?_))
        extract_lets lines l seq stream rec_ next defer s1 s2 s3 s4
        split
        · exact h
        · have h1 : Kept s1 := h
          have h4 : Kept s4 := h1.writePages.writePages.writePages
          exact h4

theorem Kept.notifyOp {a t} (h : Kept s) : Kept (notifyOp a t s) := by
  unfold State.notifyOp
  extract_lets o own
  refine h.wait.ite ?_
  have ha : (State.notifyAct a t (s.asMine o own)).Keeps := h.asMine.notifyAct
  generalize State.notifyAct a t (s.asMine o own) = r at ha ⊢
  cases r with
  | ok ls u =>
    cases ls with
    | nil => exact Kept.giveBack ha
    | cons => exact (Kept.keepBack ha).joinLines.wait
  | stop u => exact Kept.giveBack ha

theorem Kept.launchOp {d a} (h : Kept s) : Kept (launchOp d a s) := by
  unfold State.launchOp
  refine h.wait.ite (h.load.run (fun bs s h => ?_))
  extract_lets r c starts
  exact h.wait.ite ((h.foldl (fun _ _ _ h => h.sysAsk)).wait.ite h.deviceLaunch.takeReplies.wrX)

/-! ### SUSPEND, EXIT, EVPOST, DICTLD, TLBINV (R351 to R353, R362, R376) -/

theorem Kept.suspendOp {x} (h : Kept s) : Kept (suspendOp x s) := by
  unfold State.suspendOp
  extract_lets w k id s1 s2
  have h1 : Kept s1 := h
  have h2 : Kept s2 := h1.tryRendezvous
  exact h.wait.ite (h2.wait.ite h2)

theorem Kept.exitOp (h : Kept s) : Kept (exitOp s) := by
  unfold State.exitOp
  extract_lets k s1 ended s2
  have h1 : Kept s1 := h
  have h2 : Kept s2 := h1.checkInAll
  exact h1.wait.ite (h2.exitMember.ite h2.wait)

theorem Kept.evpostOp {x t} (h : Kept s) : Kept (evpostOp x t s) := h.postEvent

theorem Kept.dictldOp {d a t} (h : Kept s) : Kept (dictldOp d a t s) := by
  unfold State.dictldOp
  extract_lets w first n va
  refine h.wait.ite ?_
  split
  · exact h.wrX
  · exact h.load.run (fun _ _ h => (h.getD (fun _ e => h.privateWindow e)).writeWindow.wrX)

theorem Kept.dropLeaves {d} (h : Kept s) (e : s.dropLeaves d = some t) : Kept t := by
  unfold State.dropLeaves at e
  split at e
  · cases e
  · cases e
    exact h.filterTlbs

theorem Kept.tlbinvOp {d} (h : Kept s) : Kept (tlbinvOp d s) := h.wait.getD (fun _ e => h.dropLeaves e)

end Sys2Proof.Machine.State
end

section
/-! What every step keeps: the acts on Medlar's tables and on streams. -/

namespace Sys2Proof.Machine

/-- What a result that may have failed gives, when it gives something. -/
def Gives {ε α : Type} (P : α → Prop) : Except ε α → Prop
  | .ok a => P a
  | .error _ => True

namespace Gives

variable {ε α β : Type} {P : α → Prop} {Q : β → Prop} {x : Except ε α}

theorem ok {a : α} (h : P a) : Gives P (.ok a : Except ε α) := h

theorem bind {f : α → Except ε β} (hx : Gives P x) (hf : ∀ a, P a → Gives Q (f a)) : Gives Q (x.bind f) := by
  cases x with
  | ok a => exact hf a hx
  | error e => exact trivial

/-- What follows a result of which nothing is asked. -/
theorem after {f : α → Except ε β} (hf : ∀ a, Gives Q (f a)) : Gives Q (x.bind f) := by
  cases x with
  | ok a => exact hf a
  | error e => exact trivial

theorem map {f : α → β} (hx : Gives P x) (hf : ∀ a, P a → Q (f a)) : Gives Q (x.map f) := by
  cases x with
  | ok a => exact hf a hx
  | error e => exact trivial

theorem ite {c : Prop} [Decidable c] {y : Except ε α} (hx : Gives P x) (hy : Gives P y) : Gives P (if c then x else y) := by
  split
  · exact hx
  · exact hy

theorem foldlM {f : β → α → Except ε β} (hf : ∀ b a, Q b → Gives Q (f b a)) (l : List α) : ∀ b, Q b → Gives Q (l.foldlM f b) := by
  induction l with
  | nil => exact fun _ h => h
  | cons a l ih => exact fun b h => Gives.bind (hf b a h) ih

end Gives

namespace State

variable {s t : State}

/-! ### Medlar's map and blocks (R384 to R386) -/

theorem Kept.modBlk {b f} (h : Kept s) : Kept (s.modBlk b f) := h
theorem Kept.modSlot {n f} (h : Kept s) : Kept (s.modSlot n f) := h
theorem Kept.addRef {b} (h : Kept s) : Kept (s.addRef b) := h
theorem Kept.dropRef {c b} (h : Kept s) : Kept (s.dropRef c b) := Kept.ite h h

theorem Kept.insertMap {k b} (h : Kept s) (e : s.insertMap k b = some t) : Kept t := by
  unfold State.insertMap at e
  split at e
  · cases e
    exact h.modSlot
  · split at e
    · cases e
    · cases e
      exact Kept.modSlot (Kept.frame h)

theorem Kept.removeMap {k} (h : Kept s) : Kept (s.removeMap k) := by
  unfold State.removeMap
  split
  · exact h
  · exact h.modSlot
  · exact Kept.modSlot (Kept.frame h)

theorem Kept.remap {k b} (h : Kept s) : Kept (s.remap k b) := by
  unfold State.remap
  split
  · exact h.modSlot
  · exact h.frame
  · exact h

theorem Kept.takeFrom {c fuel r} : ∀ {s}, Kept s → takeFrom c fuel s = some r → Kept r.2 := by
  induction fuel with
  | zero => exact fun _ e => nomatch e
  | succ n ih =>
    intro s h e
    unfold State.takeFrom at e
    extract_lets m b s1 at e
    have h1 : Kept s1 := h
    split at e
    · cases e
    · split at e
      · exact ih h1 e
      · cases e
        exact h1

theorem Kept.takeBlock {c r} (h : Kept s) (e : s.takeBlock c = some r) : Kept r.2 := h.takeFrom e

theorem Kept.copyHome {dclass src dst n} (h : Kept s) : Kept (s.copyHome dclass src dst n) :=
  h.foldl (fun _ _ _ h => (h.invalidateOthers.ite h).homePut)

theorem Kept.copyBlock {c b b2 n} (h : Kept s) : Gives Kept (s.copyBlock c b b2 n) := by
  unfold State.copyBlock
  split
  · exact h.copyHome
  · exact trivial

/-! ### The acts on Medlar's tables (R387 to R394) -/

theorem Kept.cow {c seq l b keep fill} (h : Kept s) : Gives (fun r => Kept r.2) (s.cow c seq l b keep fill) := by
  unfold State.cow
  split
  · exact trivial
  · next e => exact (h.takeBlock e).copyBlock.map (fun _ h => h.modBlk.modBlk.remap)

theorem Kept.kvApp {c key n} (h : Kept s) : Gives (fun r => Kept r.2) (s.kvApp c key n) := by
  unfold State.kvApp
  extract_lets m seq l gap
  split
  · exact trivial
  · split
    · refine Gives.ite trivial (Gives.ite trivial ?_)
      split
      · exact trivial
      · next ht =>
        split
        · exact trivial
        · next hi => exact ((h.takeBlock ht).insertMap hi).modBlk
    · refine Gives.ite trivial (Gives.ite trivial (Gives.ite h.modBlk ?_))
      have hc := fun b old fill => h.cow (c := c) (seq := seq) (l := l) (b := b) (keep := old) (fill := fill)
      split
      · exact trivial
      · next e => exact (e ▸ hc _ _ _ :)

theorem Kept.mapAll {c seq bs} : ∀ {l s}, Kept s → mapAll c seq l bs s = some t → Kept t := by
  induction bs with
  | nil =>
    intro l s h e
    cases e
    exact h
  | cons b bs ih =>
    intro l s h e
    unfold State.mapAll at e
    split at e
    · cases e
    · next hi => exact ih (h.insertMap hi).addRef e

theorem Kept.share {c seq bs} (h : Kept s) : Gives Kept (s.share c seq bs) := by
  unfold State.share
  refine Gives.ite trivial (Gives.ite trivial ?_)
  split
  · exact trivial
  · next e => exact h.mapAll e

theorem Kept.kvFork {c child w} (h : Kept s) : Gives (fun r => Kept r.2) (s.kvFork c child w) :=
  Gives.ite trivial (Gives.ite trivial (h.share.map (fun _ h => h)))

theorem Kept.removeFrom {c seq l} (h : Kept s) : Kept (s.removeFrom c seq l).2 := h.foldl (fun _ _ _ h => h.removeMap.dropRef)

theorem Kept.kvTrunc {c seq n} (h : Kept s) : Gives (fun r => Kept r.2) (s.kvTrunc c seq n) := by
  unfold State.kvTrunc
  extract_lets tpb k keep
  refine Gives.ite h ?_
  have h1 : Kept (s.removeFrom c seq (if keep = 0 then k else k + 1)).2 := h.removeFrom
  generalize s.removeFrom c seq (if keep = 0 then k else k + 1) = r at h1 ⊢
  obtain ⟨n, u⟩ := r
  dsimp -zeta only
  split
  · exact h1
  · exact Gives.ite h1 (Gives.ite h1.modBlk (h1.cow.map (fun _ h => h)))

theorem Kept.pfxFind {c hash seq} (h : Kept s) : Gives (fun r => Kept r.2) (s.pfxFind c hash seq) := by
  unfold State.pfxFind
  split
  · exact trivial
  · exact h.share.map (fun _ h => h)

theorem Kept.moveAll {c seq z bs} : ∀ {l s}, Kept s → moveAll c seq z l bs s = some t → Kept t := by
  induction bs with
  | nil =>
    intro l s h e
    cases e
    exact h
  | cons b bs ih =>
    intro l s h e
    unfold State.moveAll at e
    split at e
    · cases e
    · next hi => exact ih (h.removeMap.insertMap hi) e

theorem Kept.pfxIns {c hash w} (h : Kept s) : Gives (fun r => Kept r.2) (s.pfxIns c hash w) := by
  unfold State.pfxIns
  extract_lets seq z bs len
  refine Gives.ite trivial (Gives.ite trivial (Gives.ite trivial ?_))
  split
  · split
    · exact trivial
    · exact Gives.ite trivial (Kept.foldl (Kept.frame h) (fun _ _ _ h => h.addRef))
  · refine Gives.ite trivial (Gives.ite trivial ?_)
    split
    · exact trivial
    · next e =>
      obtain ⟨u, hu, e⟩ := Option.bind_eq_some_iff.mp e
      exact (h.moveAll hu).mapAll e

theorem Kept.pfxRemove {n e} (h : Kept s) : Kept (s.pfxRemove n e) := Kept.foldl (Kept.frame h) (fun _ _ _ h => h.dropRef)

/-! ### Running an act (R379 to R382) -/

theorem Kept.actTurn {fail act} (h : Kept s) (hf : ∀ n s, Kept s → Kept (fail n s)) (ha : ∀ s, Kept s → Gives Kept (act s)) :
    Kept (actTurn fail act s) := by
  unfold State.actTurn
  extract_lets o own
  have hr : Gives Kept (act (s.asMine o own)) := ha _ h.asMine
  split
  · next e => exact Kept.giveBack (show Gives Kept (.ok _) from e ▸ hr)
  · exact hf _ _ h.giveUp
  · exact h.holdFault
  · exact h.giveUp.consume
  · exact h.giveUp.wait
  · exact h.joinLines.wait

theorem Kept.failIn {d n} (h : Kept s) : Kept (failIn d n s) := h.wrX

theorem Kept.tableAct {i fail act} (h : Kept s) (hf : ∀ n s, Kept s → Kept (fail n s)) (ha : ∀ s, Kept s → Gives Kept (act s)) :
    Kept (tableAct i fail act s) :=
  h.wait.ite (h.actTurn hf (fun _ h => Gives.after (fun _ => ha _ h)))

theorem Kept.tableOp {i d act} (h : Kept s) (ha : ∀ s, Kept s → Gives (fun r => Kept r.2) (act s)) : Kept (tableOp i d act s) :=
  h.tableAct (fun _ _ h => h.failIn) (fun s h => (ha s h).map (fun _ h => h.wrX))

/-! ### The acts on streams (R395 to R402) -/

theorem Kept.modStrm {sid f} (h : Kept s) : Kept (s.modStrm sid f) := h

theorem Kept.actWrite {c va n v} (h : Kept s) : Gives Kept (s.actWrite c va n v) :=
  Gives.after (fun ps => by
    split
    · exact h.foldl_fst (fun _ _ _ h => h.sysPut)
    · exact trivial)

theorem Kept.snapCopy {c src dst n} (h : Kept s) : Gives Kept (snapCopy c src dst n s) :=
  Gives.foldlM (fun s x h => Gives.after (fun ps => Gives.after (fun qs => by
    split
    · exact h.foldl (fun _ _ _ h => (h.invalidateOthers.ite h).homePut)
    · exact trivial))) _ s h

theorem Kept.putEntry {c sid pos token epoch kind} (h : Kept s) : Gives Kept (putEntry c sid pos token epoch kind s) :=
  h.actWrite.bind (fun _ h => h.modStrm.actWrite)

theorem Kept.streamBegin {c sid} (h : Kept s) : Gives Kept (streamBegin c sid s) := by
  unfold State.streamBegin
  extract_lets e
  refine Gives.after (fun ack => Gives.after (fun dh => ?_))
  extract_lets s1
  have h1 : Kept s1 := h.modStrm.ite h
  exact Gives.ite (h1.putEntry.map (fun _ h => h.modStrm)) h1

theorem Kept.commit {c sid token input} (h : Kept s) : Gives Kept (commit c sid token input s) := by
  unfold State.commit
  extract_lets e n
  exact h.snapCopy.bind (fun _ h => (Gives.ite (Gives.ok h.modStrm) h.putEntry).map (fun _ h => h.modStrm))

theorem Kept.unhold {c sid} (h : Kept s) : Kept (unhold c sid s) := by
  unfold State.unhold
  extract_lets s1
  have h1 : Kept s1 := h.modHctx.ite h
  exact h1.modStrm

theorem Kept.trim {c seq n} (h : Kept s) : Gives Kept (trim c seq n s) := by
  unfold State.trim
  refine Gives.ite ?_ (Gives.after (fun _ => h.kvTrunc.map (fun _ h => h)))
  cases s.onLines [medLine c] with
  | ok => exact h
  | error => exact trivial

theorem Kept.cut {c sid n} (h : Kept s) : Gives Kept (cut c sid n s) := by
  unfold State.cut
  extract_lets e below n
  refine h.trim.bind (fun s h => ?_)
  refine (Gives.ite h.snapCopy (Gives.ok h)).bind (fun s h => ?_)
  extract_lets s1 s2 s3
  have h1 : Kept s1 := h.unhold
  have h2 : Kept s2 := h1.modStrm
  have h3 : Kept s3 := h2.modStrm.ite h2
  exact (Gives.ite (Gives.after (fun _ => Gives.ite h3.putEntry (Gives.ok h3.modStrm))) (Gives.ok h3)).map (fun _ h => h.modStrm)

theorem Kept.onStream {c sid act} (h : Kept s) (ha : ∀ s, Kept s → Gives (fun r => Kept r.2) (act s)) :
    Gives (fun r => Kept r.2) (onStream c sid act s) :=
  Gives.ite (ha s h) trivial

theorem Kept.scommitAct {c w token} (h : Kept s) : Gives (fun r => Kept r.2) (scommitAct c w token s) := by
  unfold State.scommitAct
  extract_lets sid input
  refine h.onStream (fun s h => h.streamBegin.bind (fun s h => ?_))
  extract_lets e s1
  refine Gives.ite trivial (Gives.after (fun dh => ?_))
  extract_lets s2
  have h1 : Kept s1 := h.modStrm.modHctx
  have h2 : Kept s2 := h1.postEvent.ite h1
  exact Gives.ite h2 (h.commit.map (fun _ h => h))

theorem Kept.struncAct {c sid n} (h : Kept s) : Gives (fun r => Kept r.2) (struncAct c sid n s) :=
  h.onStream (fun _ h => h.streamBegin.bind (fun _ h => Gives.ite trivial (Gives.ite trivial (h.cut.map (fun _ h => h)))))

theorem Kept.bargeCut {c sid stamp} (h : Kept s) : Gives Kept (bargeCut c sid stamp s) := by
  unfold State.bargeCut
  extract_lets e at1 s1 at2
  have h1 : Kept s1 := h.postEvent.ite h
  exact Gives.ite h1.cut h1

theorem Kept.takeFrames {c sid maxt first fuel} : ∀ {f ts s}, Kept s → Gives (fun r => Kept r.2.2) (takeFrames c sid maxt first fuel f ts s) := by
  induction fuel with
  | zero => exact fun h => h
  | succ n ih =>
    intro f ts s h
    unfold State.takeFrames
    extract_lets e
    refine Gives.after (fun fr => ?_)
    extract_lets new
    exact Gives.ite h ((Gives.ite h.bargeCut (Gives.ok h)).bind (fun _ h => ih h))

theorem Kept.sframeAct {c w} (h : Kept s) : Gives (fun r => Kept r.2) (sframeAct c w s) := by
  unfold State.sframeAct
  extract_lets sid fvis maxt
  refine Gives.ite trivial (Gives.ite trivial (Gives.ite trivial (h.streamBegin.bind (fun s h => ?_))))
  exact Gives.after (fun ft => h.takeFrames.bind (fun r h => h.modStrm.actWrite.map (fun _ h => h)))

theorem Kept.actStore {va bs done} (h : Kept s) (hd : ∀ s, Kept s → Kept (done s)) : Gives Kept (actStore va bs done s) := by
  have hs : (State.store none va bs s).Keeps := h.store
  unfold State.actStore
  generalize State.store none va bs s = r at hs ⊢
  cases r with
  | ok v u => exact hd u hs
  | stop => exact trivial

theorem Kept.bufferPages {va n} (h : Kept s) : (bufferPages va n s).Keeps := by
  unfold State.bufferPages
  split
  · exact h.translate.bind (fun _ _ h => h)
  · exact h

theorem Kept.sframeOp {d a t} (h : Kept s) : Kept (sframeOp d a t s) :=
  h.wait.ite (h.bufferPages.run (fun _ _ h => h.tableAct (fun _ _ h => h.failIn)
    (fun _ h => h.sframeAct.bind (fun _ h => h.actStore (fun _ h => h.wrX)))))

/-! ### BTSNAP and OBSEL (R404 to R408) -/

theorem Kept.rowAct {c r} (h : Kept s) : Gives (fun r => Kept r.2) (rowAct c r s) := by
  unfold State.rowAct
  refine Gives.after (fun line => ?_)
  extract_lets x sid
  refine Gives.ite h (Gives.after (fun _ => Gives.ite h (h.streamBegin.bind (fun s h => Gives.after (fun dh => ?_)))))
  extract_lets e
  refine (Gives.ite (h.commit.map (fun _ h => h.unhold)) (Gives.ok h)).bind (fun s h => ?_)
  extract_lets e
  refine Gives.ite h ?_
  cases State.actRead s c (off72 e.fva 0) 4 with
  | ok => exact h
  | error => exact trivial

theorem Kept.snapRow {va r recs done} (h : Kept s) (hd : ∀ recs s, Kept s → Kept (done recs s)) : Kept (snapRow va r recs done s) :=
  h.actTurn (fun _ _ h => h) (fun _ h => h.rowAct.bind (fun e h => by
    split
    · exact hd _ _ h
    · exact h.actStore (hd _)))

theorem Kept.snapEnd {recs} (h : Kept s) : Kept (snapEnd recs s) := h

theorem Kept.snapAll {va nr fuel} : ∀ {r recs s}, Kept s → Kept (snapAll va nr fuel r recs s) := by
  induction fuel with
  | zero => exact fun h => h.snapEnd
  | succ n ih => exact fun h => h.snapEnd.ite (h.snapRow (fun _ _ h => ih h))

theorem Kept.noteRow {recs} (h : Kept s) : Kept (noteRow recs s) := h

theorem Kept.btsnapOp {a t} (h : Kept s) : Kept (btsnapOp a t s) :=
  h.wait.ite (h.bufferPages.run (fun _ _ h => h.snapAll.ite (h.snapEnd.ite (h.snapRow (fun _ _ h => h.noteRow)))))

theorem Kept.obselOp {d} (h : Kept s) : Kept (obselOp d s) := by
  unfold State.obselOp
  refine h.wait.ite ?_
  split
  · exact h
  · exact h.violate

end State
end Sys2Proof.Machine
end

section
/-! What every step keeps: counters, the return from faults, and every slot operation. -/

namespace Sys2Proof.Machine.State

variable {s t : State}

/-! ### Counters (15) -/

theorem Kept.lnsrunOp {x} (h : Kept s) : Kept (lnsrunOp x s) := Kept.ite h h

theorem Kept.lnsbrkOp (h : Kept s) : Kept (lnsbrkOp s) := by
  unfold State.lnsbrkOp
  split <;> exact h

theorem Kept.tickTtime {n} (h : Kept s) : Kept (s.tickTtime n) := Kept.ite h h

theorem Kept.cntrdOp {d x} (h : Kept s) : Kept (cntrdOp d x s) := by
  unfold State.cntrdOp
  extract_lets i s1
  have h1 : Kept s1 := h.tickTtime.ite h
  exact h1.wrX

/-! ### The return from faults (R440 to R444, R503) -/

theorem Kept.unreserve {k o} (h : Kept s) : Kept (s.unreserve k o) := by
  unfold State.unreserve
  split
  · exact h.modPush
  · exact h

theorem Kept.dropOp {k o} (h : Kept s) : Kept (s.dropOp k o) := by
  unfold State.dropOp
  extract_lets s1 mine s2 s3 s4 tok
  have h1 : Kept s1 := h.unreserve
  have h2 : Kept s2 := h1.foldl (fun _ _ _ h => h.unlock)
  have h3 : Kept s3 := h2.frame
  have h4 : Kept s4 := by
    unfold s4
    split
    · exact h3.clearBusy
    · exact h3
  exact h4.frame

theorem Kept.replayCopy {id} (h : Kept s) : Kept (s.replayCopy id) := by
  unfold State.replayCopy
  extract_lets ctx s1 s2
  have h1 : Kept s1 := h.modCopy.modGemv
  have h2 : Kept s2 := by
    unfold s2
    split
    · exact h1.tlbForgetAll.stepCopy
    · split
      · exact h1.tlbForgetAll.stepGemv
      · exact h1
  exact h2.frame

theorem Kept.skipCopy {id} (h : Kept s) : Kept (s.skipCopy id) := by
  unfold State.skipCopy
  extract_lets kept
  split
  · exact h.modCopy.ite h.finishCopy
  · exact Kept.ite h.modGemv (Kept.frame h.setTok)
  · exact h

theorem Kept.forgetOp {k num} (h : Kept s) : Kept (s.forgetOp k num) := by
  unfold State.forgetOp
  extract_lets cl c
  split
  · exact h
  · split
    · exact h.modCluster rfl rfl
    · exact h.tlbForgetAll

theorem Kept.releaseHold {k} (h : Kept s) : Kept (s.releaseHold k) := h

theorem Kept.resumeSubj {skip f} (h : Kept s) : Kept (s.resumeSubj skip f) := by
  unfold State.resumeSubj
  split
  · extract_lets k s1
    have h1 : Kept s1 := by
      refine Kept.ite ?_ (Kept.frame h.forgetOp)
      split
      · exact h.dropOp
      · exact h
    exact h1.releaseHold
  · exact h
  · exact h.skipCopy.ite h.replayCopy

theorem Kept.resumeFault {c w} (h : Kept s) : Kept (s.resumeFault c w) := by
  unfold State.resumeFault
  split
  · exact h
  · extract_lets freed
    have hf : Kept freed := h.modHctx
    exact hf.endLaunch.ite hf.resumeSubj

theorem Kept.resumeOp {x} (h : Kept s) : Kept (resumeOp x s) := h.wait.ite h.resumeFault

theorem Kept.fqpopOp {d a} (h : Kept s) : Kept (fqpopOp d a s) := by
  unfold State.fqpopOp
  extract_lets va c
  refine h.bufferPages.run (fun _ s h => ?_)
  extract_lets g
  exact h.wrX.ite (h.actTurn (fun _ _ h => h.failIn) (fun _ h => Gives.after (fun _ => h.modHctx.actStore (fun _ h => h.wrX))))

/-! ### Every slot operation -/

theorem Kept.putsTo {r v} (h : Kept s) : Kept (putsTo r v s) := by
  unfold State.putsTo
  split <;> exact h

theorem Kept.branchTo {b} (h : Kept s) : Kept (branchTo b s) := h

/-- A slot operation keeps the bounds: each form does, whatever its guard. -/
theorem Kept.performOut {i} (h : Kept s) (e : performOut i s = .next t) : Kept t := by
  unfold Machine.performOut at e
  cases i with
  | add | addImm | sub | subImm | mul | mulImm | mulh | mulhImm | mulhn | mulhnImm | div | divImm | divn | divnImm | rem | remImm | remn
  | remnImm | and | andImm | or | orImm | xor | xorImm | andn | andnImm | shl | shlImm | shr | shrImm | shra | shraImm | rol | rolImm
  | min | minImm | max | maxImm | minn | minnImm | maxn | maxnImm | clz | ctz | popc | abs | sext | zext | bfx | bfxN | bfi | sel | li
  | fmin | fmax | pget | aget | gets | vfirst | vpopc | vextr | cget | ctopp => exact h.slotOp e (fun _ h => h.wrX)
  | fadd | fsub | fmul | ffma | cvtf | cvtfN | cvti | cvtiN => exact h.slotOp e (fun _ h => h.wrX.addFlags)
  | pand | por | pxor | pandn | cmp | cmpImm | fcmp | vany | vall => exact h.slotOp e (fun _ h => h.wrP)
  | pset | ptb | ptbx | br | aadd | aaddImm | aset | alea | vred | vscan | viota | vqmx | sortb | merge | cmrg | cclr | stage | tokclr
  | lnscfg | seqlen | cntclr => exact h.slotOp e (fun _ h => h)
  | brl => exact h.slotOp e (fun _ h => h.branchTo.wrX)
  | trap => exact h.slotOp e (fun _ h => h.takeTrap)
  | puts => exact h.slotOp e (fun _ h => h.putsTo)
  | ld | ldN => exact h.slotOp e (fun _ h => h.loadX)
  | st | stv => exact h.slotOp e (fun _ h => h.store.fin)
  | ldv => exact h.slotOp e (fun _ h => h.loadV)
  | ldvFeTake | ldvFeKeep => exact h.slotOp e (fun _ h => h.loadFe)
  | stvFe => exact h.slotOp e (fun _ h => h.storeFe)
  | ldvg => exact h.slotOp e (fun _ h => h.gather)
  | stvs => exact h.slotOp e (fun _ h => h.scatter)
  | setfe | clrfe => exact h.slotOp e (fun _ h => h.feBits)
  | spill => exact h.slotOp e (fun _ h => h.spillTo)
  | fill => exact h.slotOp e (fun _ h => h.fillFrom)
  | pref => exact h.slotOp e (fun _ h => h.prefetch)
  | atom | red => exact h.slotOp e (fun _ h => h.atomOp)
  | cas => exact h.slotOp e (fun _ h => h.casOp)
  | chkout => exact h.slotOp e (fun _ h => h.checkOut)
  | chkin => exact h.slotOp e (fun _ h => h.checkInAt)
  | copy => exact h.slotOp e (fun _ h => h.copyOp)
  | copys => exact h.slotOp e (fun _ h => h.copysOp)
  | copyg => exact h.slotOp e (fun _ h => h.copygOp)
  | copyfe => exact h.slotOp e (fun _ h => h.copyfeOp)
  | gemv => exact h.slotOp e (fun _ h => h.gemvOp)
  | bankmode => exact h.slotOp e (fun _ h => h.bankmodeOp)
  | flush => exact h.slotOp e (fun _ h => h.flushOp)
  | inval => exact h.slotOp e (fun _ h => h.invalOp)
  | mma | mmat => exact h.slotOp e (fun _ h => h.matOp)
  | accz => exact h.slotOp e (fun _ h => h.zeroTile)
  | accret => exact h.slotOp e (fun _ h => h.accret)
  | accadd => exact h.slotOp e (fun _ h => h.accadd)
  | accld => exact h.slotOp e (fun _ h => h.accld)
  | accst => exact h.slotOp e (fun _ h => h.accst)
  | accrd => exact h.slotOp e (fun _ h => h.accrd)
  | accwr => exact h.slotOp e (fun _ h => h.accwr)
  | vadd | vsub | vmul | vfma | vmin | vmax | vabs | vneg | vclamp | vrcp | vrsq | vexp2 | vlog2 | vand | vor | vxor | vshl | vshr | vshra
  | vsel | vmov | vbcast | vperm | vslide | vslideDn | vcvt | vdqmx => exact h.slotOp e (fun _ h => h.lanewise)
  | vcmp | qand | qor | qxor | qnot => exact h.slotOp e (fun _ h => h.wrQ)
  | vins => exact h.slotOp e (fun _ h => h.wrV.ite h)
  | vrand => exact h.slotOp e (fun _ h => h.vrand)
  | cdraw => exact h.slotOp e (fun _ h => h.cdraw)
  | fenceAcq => exact h.slotOp e (fun _ h => h.fenceAcq)
  | fenceRel => exact h.slotOp e (fun _ h => h.fenceRel)
  | fenceFull => exact h.slotOp e (fun _ h => h.fenceFull)
  | drain => exact h.slotOp e (fun _ h => h.drainOp)
  | push => exact h.slotOp e (fun _ h => h.pushOp)
  | pop => exact h.slotOp e (fun _ h => h.popQueue)
  | qstat => exact h.slotOp e (fun _ h => h.qstatOp)
  | notify => exact h.slotOp e (fun _ h => h.notifyOp)
  | launch => exact h.slotOp e (fun _ h => h.launchOp)
  | suspend => exact h.slotOp e (fun _ h => h.suspendOp)
  | exit => exact h.slotOp e (fun _ h => h.exitOp)
  | evpost => exact h.slotOp e (fun _ h => h.evpostOp)
  | dictld => exact h.slotOp e (fun _ h => h.dictldOp)
  | tlbinvPage | tlbinvHc | tlbinvAll => exact h.slotOp e (fun _ h => h.tlbinvOp)
  | kvlook => exact h.slotOp e (fun _ h => h.tableOp (fun s h => by
      cases State.kvLook s s.hcid _ _ with
      | ok => exact h
      | error => exact trivial))
  | kvapp => exact h.slotOp e (fun _ h => h.tableOp (fun _ h => h.kvApp))
  | kvfork => exact h.slotOp e (fun _ h => h.tableOp (fun _ h => h.kvFork))
  | kvtrunc => exact h.slotOp e (fun _ h => h.tableOp (fun _ h => h.kvTrunc.map (fun _ h => h)))
  | kvfree => exact h.slotOp e (fun _ h => h.tableAct (fun _ _ h => h) (fun _ h => h.removeFrom))
  | pfxfind => exact h.slotOp e (fun _ h => h.tableOp (fun _ h => h.pfxFind))
  | pfxins => exact h.slotOp e (fun _ h => h.tableOp (fun _ h => h.pfxIns))
  | strunc => exact h.slotOp e (fun _ h => h.tableOp (fun _ h => h.struncAct))
  | scommit => exact h.slotOp e (fun _ h => h.tableOp (fun _ h => h.scommitAct))
  | sframe => exact h.slotOp e (fun _ h => h.sframeOp)
  | btsnap => exact h.slotOp e (fun _ h => h.btsnapOp)
  | obsel => exact h.slotOp e (fun _ h => h.obselOp)
  | bar => exact h.slotOp e (fun _ h => h.arrive)
  | lnsrun => exact h.slotOp e (fun _ h => h.lnsrunOp)
  | lnsbrk => exact h.slotOp e (fun _ h => h.lnsbrkOp)
  | cntrd => exact h.slotOp e (fun _ h => h.cntrdOp)
  | resume => exact h.slotOp e (fun _ h => h.resumeOp)
  | fqpop => exact h.slotOp e (fun _ h => h.fqpopOp)
  | _ =>
    cases e
    exact h

theorem Kept.perform {i} (h : Kept s) : Kept (perform i s) := by
  unfold Machine.perform
  split
  · next e => exact h.performOut e
  · exact h
  · exact h

end Sys2Proof.Machine.State
end

section
/-! What every step keeps: issue, the engines and the selector. -/

namespace Sys2Proof.Machine.State

variable {s t : State}

/-! ### Issue (R55, R115, R500) -/

theorem Kept.settleV {k es} : ∀ {s}, Kept s → Kept (s.settleV k es) := by
  induction es with
  | nil => exact fun h => h
  | cons e es ih => exact fun h => (ih h).ite (ih (Kept.frame h.putDatum))

theorem Kept.settleVland {k} (h : Kept s) : Kept (s.settleVland k) := h.settleV

theorem Kept.countLate {k l} (h : Kept s) : Kept (s.countLate k l) := Kept.ite h h

theorem Kept.landOne {k l} (h : Kept s) : Kept (s.landOne k l) := by
  unfold State.landOne
  extract_lets s1
  have h1 : Kept s1 := h.countLate
  split
  · exact h1.putDatum
  · exact h1.frame
  · exact h1

theorem Kept.landDue {k} (h : Kept s) : Kept (s.landDue k) := by
  unfold State.landDue
  extract_lets s1
  have h1 : Kept s1 := h.foldl (fun _ _ _ h => h.landOne)
  exact h1.frame

theorem Kept.performNow {latch o} (h : Kept s) : Kept (performNow latch s o) := by
  unfold State.performNow
  extract_lets s1
  have h1 : Kept s1 := h
  exact h1.perform.ite h1

theorem Kept.enterMma {num i} (h : Kept s) : Kept (s.enterMma num i) := by
  unfold State.enterMma
  extract_lets at_ go
  have hg : ∀ trans d a b xm xn xk f, Kept (go trans d a b xm xn xk f) := fun trans d a b xm xn xk f => by
    unfold go
    exact h.ite (Kept.frame (h.newId.foldl (fun _ _ _ h => h.modBank)))
  split
  · exact hg ..
  · exact hg ..
  · exact h

theorem Kept.reserve {i} (h : Kept s) : Kept (s.reserve i) := by
  unfold State.reserve
  split
  · exact h.modPush
  · exact h

theorem Kept.enqueue {latch guard e o} (h : Kept s) : Kept (enqueue latch guard e s o) := by
  unfold State.enqueue
  extract_lets _ s1 s2 n q s3 s4
  have h1 : Kept s1 := h
  have h2 : Kept s2 := h1.loseProtection.ite h1
  have h3 : Kept s3 := h2
  have h4 : Kept s4 := by
    unfold s4
    split
    · exact h3.modCore
    · exact h3
  exact h4.enterMma.reserve

theorem Kept.runSlots {ops} (h : Kept s) : Kept (s.runSlots ops) := by
  unfold State.runSlots
  extract_lets latch gs now s1
  have h1 : Kept s1 := h.foldl (fun _ _ _ h => h.performNow)
  exact h1.foldl (fun _ _ _ h => by
    split
    · exact h.ite h.enqueue
    · exact h)

/-! ### Protected segments and the next bundle (R422, R447 to R449) -/

theorem Kept.protect {k clear} (h : Kept s) : Kept (s.protect k clear) := Kept.ite h h

theorem Kept.restorePushes {k d} (h : Kept s) : Kept (s.restorePushes k d) :=
  h.foldl (fun s q _ h => by
    split
    · exact h
    · extract_lets old s1
      have h1 : Kept s1 := h.modPush.ite h
      exact h1.modPush.ite h1)

theorem Kept.tryRollback {k} (h : Kept s) : Kept (s.tryRollback k) := by
  unfold State.tryRollback
  extract_lets t
  split
  · refine h.ite ?_
    extract_lets r s1 s2 _ s3
    have h1 : Kept s1 := h.restorePushes
    have h3 : Kept s3 := h1
    exact h3.raise
  · exact h

theorem Kept.endSegment {k at_} (h : Kept s) : Kept (s.endSegment k at_) :=
  Kept.ite h (h.endLaunch.ite (Kept.drainWithheld h))

theorem Kept.advance {k at_} (h : Kept s) : Kept (s.advance k at_) := h

theorem Kept.leaveAfter {k atPoint} (h : Kept s) : Kept (s.leaveAfter k atPoint) :=
  Kept.ite h (Kept.ite (Kept.ite (Kept.tryRendezvous h) h.violateNoSlot) h)

theorem Kept.issueBundle {k v clear} (h : Kept s) : Kept (s.issueBundle k v clear) := by
  unfold State.issueBundle
  extract_lets at_ s1 s2 _ s3 s4 atPoint id s5 s6 live s7
  have h1 : Kept s1 := h.protect
  have h2 : Kept s2 := h1.runSlots
  have h4 : Kept s4 := h2
  have h5 : Kept s5 := h4.advance
  have h6 : Kept s6 := h5.endSegment.ite h5
  have h7 : Kept s7 := h6.leaveAfter.ite h6
  exact h7.settleVland.setRes

theorem Kept.atSlot {o} (h : Kept s) : Kept (s.atSlot o) := h

theorem Kept.issueNext {k} (h : Kept s) : Kept (s.issueNext k) := by
  unfold State.issueNext
  extract_lets v s0 _ s1 _ s2
  have h1 : Kept s1 := h
  have h2 : Kept s2 := h1.landDue
  split
  · exact Kept.takeTrap h1.frame
  · split
    · exact h1.atSlot.takeTrap
    · split
      · exact h1.atSlot.stopAt
      · exact h1.violateNoSlot.ite h2.issueBundle

/-! ### Engines (R115 to R121) -/

theorem Kept.idle (h : Kept s) : Kept s.idle := h
theorem Kept.forOp {k o} (h : Kept s) : Kept (s.forOp k o) := h
theorem Kept.modOp {k num f} (h : Kept s) : Kept (s.modOp k num f) := h

theorem Kept.dropGuard {k o} (h : Kept s) : Kept (s.dropGuard k o) := by
  unfold State.dropGuard
  extract_lets s1 t
  have h1 : Kept s1 := h.dropOp
  exact Kept.ite (Kept.ite (Kept.tryRendezvous h1) h1.forOp.violateNoSlot) h1

theorem Kept.resolveGuard {k o r} (h : Kept s) (e : s.resolveGuard k o = some r) : Kept r.2 := by
  unfold State.resolveGuard at e
  split at e
  · cases e
    exact h
  · cases e
    exact h
  · extract_lets t at e
    split at e
    · cases e
    · cases e
      exact h.modOp

theorem Kept.leaveQueue {k o} (h : Kept s) : Kept (s.leaveQueue k o) := h.popOp.settleVland

theorem Kept.readTileImage {k o} (h : Kept s) : Kept (s.readTileImage k o) := by
  unfold State.readTileImage
  split
  · exact h.load.run (fun _ _ h => h.modOp)
  · exact h

theorem Kept.settleOp {k o} (h : Kept s) : Kept (s.settleOp k o) := by
  unfold State.settleOp
  extract_lets s1
  have h1 : Kept s1 := by
    unfold s1
    split
    · exact h.clearBusy.ite h
    · exact h
  exact h.modOp.ite (h.modOp.ite (h.ite (h.modOp.ite (h.modOp.ite h1.leaveQueue))))

theorem Kept.beginOp {defer k o} (h : Kept s) : Kept (beginOp defer s k o) := by
  unfold State.beginOp
  extract_lets o1 s1 go
  have h1 : Kept s1 := h.modOp
  have hg : ∀ s, Kept s → Kept (go s) := fun _ h => h
  exact (hg _ h1).violateNoSlot.ite (((hg _ h1).readTileImage.ite h1.modOp).ite (hg _ h1).noteSide.perform.settleOp)

theorem Kept.startOp {k e defer} (h : Kept s) : Kept (s.startOp k e defer) := by
  unfold State.startOp
  split
  · exact h
  · refine h.ite ?_
    split
    · exact h
    · next e => exact (h.resolveGuard e).dropGuard.idle
    · next e => exact (h.resolveGuard e).ite (h.resolveGuard e).beginOp.idle

theorem Kept.completeOp {k e} (h : Kept s) : Kept (s.completeOp k e) := by
  unfold State.completeOp
  split
  · exact h
  · refine h.ite ?_
    split
    · exact h.stepMma
    · extract_lets s1 s2
      have h1 : Kept s1 := h.forOp.perform
      have h2 : Kept s2 := by
        unfold s2
        split
        · exact h1.clearBusy
        · exact h1
      exact h.ite (h1.idle.ite h2.leaveQueue.idle)

theorem Kept.finishSent {k num} (h : Kept s) : Kept (s.finishSent k num) := by
  unfold State.finishSent
  split
  · exact h.ite h.forOp.perform.settleOp.idle
  · exact h

/-! ### Landing data, walks and homes (R57, R375, R257) -/

theorem Kept.dataArrives {k n} (h : Kept s) : Kept (s.dataArrives k n) := h

theorem Kept.walkFault {w} (h : Kept s) : Kept (s.walkFault w) := by
  unfold State.walkFault
  extract_lets k mine
  split
  · split
    · exact h.forOp.gemvFault.leaveQueue.idle
    · exact h.forOp.holdFault.idle
  · split
    · exact h.tryCopy.idle.ite (h.asCopy.flushCarry.idle.ite (h.stopCopy.idle.ite h))
    · split
      · exact h.stopGemv.idle
      · exact h

theorem Kept.walkAgain {w} (h : Kept s) : Kept (s.walkAgain w) := h

theorem Kept.endWalk {n} (h : Kept s) : Kept (s.endWalk n) := by
  unfold State.endWalk
  split
  · exact h
  · extract_lets same ws s1
    have h1 : Kept s1 := h
    split
    · extract_lets s2
      have h2 : Kept s2 := h1.modCluster (by split <;> rfl) (by split <;> rfl)
      exact h2.foldl (fun _ _ _ h => h.walkAgain)
    · exact h1.foldl (fun _ _ _ h => h.walkFault)

theorem Kept.afterHome {r} (h : Kept s) : Kept (s.afterHome r) := by
  unfold State.afterHome
  split
  · exact h.finishSent
  · split
    · exact h.noteTok
    · split
      · exact h.noteGemv.ite h
      · exact h
  · exact h

theorem Kept.runNext {line} (h : Kept s) : Kept (s.runNext line) := by
  unfold State.runNext
  refine h.ite ?_
  split
  · exact h
  · exact h.ite (Kept.afterHome (Kept.runHome h.frame))

/-! ### Bank-mode changes (R244, R298) -/

theorem Kept.vacateWay {cl b} (h : Kept s) : Kept (s.vacateWay cl b) := by
  unfold State.vacateWay
  extract_lets s1
  have h1 : Kept s1 := h.foldl (fun _ _ _ h => h.foldl (fun _ _ _ h => h.checkIn))
  exact h1.foldl (fun _ _ _ h => h.evictLine)

theorem Kept.convertBank {cl b mode owner} (h : Kept s) : Kept (s.convertBank cl b mode owner) :=
  Kept.modBank (h.ite (h.vacateWay.ite h).bankClear.modBank)

theorem Kept.changeBank {cl b} (h : Kept s) : Kept (s.changeBank cl b) := by
  unfold State.changeBank
  split
  · exact h
  · refine h.ite ?_
    extract_lets s1
    have h1 : Kept s1 := h.convertBank
    split
    · exact h1.popOp.settleVland
    · exact h1

/-! ### The selector (R341 to R343) -/

theorem Kept.switchCycle {core} (h : Kept s) : Kept (s.switchCycle core) := by
  unfold State.switchCycle
  extract_lets cur
  split
  · exact h.modCore
  · exact Kept.ite h h

theorem Kept.frozenCycle {core cur} (h : Kept s) : Kept (s.frozenCycle core cur) := h

theorem Kept.settleStrand {k} (h : Kept s) : Kept (s.settleStrand k) := by
  unfold State.settleStrand
  extract_lets d s1 t s2 s3 s4
  have hd : Kept d := Kept.drainWithheld h
  have h1 : Kept s1 := Kept.ite h hd.frame
  have h2 : Kept s2 := h1.tryRendezvous.ite h1
  have h3 : Kept s3 := h2.tryRollback.ite h2
  have h4 : Kept s4 := h3.ite h3.armEntry
  exact h4.ite h4.settleVland

theorem Kept.runCycle {core yielded} (h : Kept s) : Kept (s.runCycle core yielded) := by
  unfold State.runCycle
  extract_lets cur k r s1
  have h1 : Kept s1 := h.issueNext
  refine h.switchCycle.ite ?_
  clear_value r s1
  split
  · exact h.frozenCycle
  · exact Kept.modCore h
  · exact h1.modCore.ite h1.switchCycle

theorem Kept.clearYields {core} (h : Kept s) : Kept (s.clearYields core) := h.foldl (fun _ _ _ h => Kept.ite h.frame h)

theorem Kept.cycle {core} (h : Kept s) : Kept (s.cycle core) := by
  unfold State.cycle
  extract_lets s1 cur k yielded s2
  have h1 : Kept s1 := h.foldl (fun _ _ _ h => h.settleStrand)
  have h2 : Kept s2 := h1.clearYields
  exact h.ite (h.clearYields.modCore.ite (h2.frozenCycle.ite h2.modCore.runCycle.idle))

end Sys2Proof.Machine.State
end

section
/-! What every step keeps: the binder, placement, the scheduler's service, errors and the platform. -/

namespace Sys2Proof.Machine.State

variable {s t : State}

/-! ### Binding entries (R25, R34, R36) -/

/-- Entries whose width codes are within bounds. -/
def Coded (es : List (Nat × BindEnt)) : Prop := ∀ e ∈ es, e.2.wcode.toNat ≤ 2

theorem wcode_makeEnt {id width alive b} : (makeEnt id width alive b).wcode.toNat ≤ 2 := by
  have hw : (BitVec.ofNat 2 (wcodeOf width)).toNat ≤ 2 := by
    unfold wcodeOf
    split
    · decide
    · split <;> decide
  unfold makeEnt
  split <;> exact hw

theorem coded_clusterEnts {cl width halves} : Coded (s.clusterEnts cl width halves) := by
  intro e he
  obtain ⟨j, -, rfl⟩ := List.mem_map.mp he
  exact wcode_makeEnt

theorem coded_changed {adv es} (hes : Coded es) : Coded (s.changed adv es) := by
  intro e he
  obtain ⟨b, hb, rfl⟩ := List.mem_map.mp he
  exact hes b (List.mem_filter.mp hb).1

theorem coded_deckEnts {d} : Coded (s.deckEnts d) := by
  intro e he
  obtain ⟨i, -, he⟩ := List.mem_flatMap.mp he
  exact coded_clusterEnts e he

theorem coded_finalEnts {j} : Coded (s.finalEnts j) := by
  intro e he
  obtain ⟨cl, -, he⟩ := List.mem_flatMap.mp he
  obtain he | he := List.mem_append.mp he
  · obtain ⟨b, hb, he⟩ := List.mem_filterMap.mp he
    obtain ⟨k, -, rfl⟩ := Option.map_eq_some_iff.mp he
    exact coded_clusterEnts b hb
  · refine coded_changed (fun b hb => ?_) e he
    exact coded_clusterEnts b (List.mem_filter.mp hb).1

theorem Kept.setBinding {n : Nat} {b : BindEnt} (h : Kept s) (hb : b.wcode.toNat ≤ 2) : Kept { s with binding := s.binding.set n b } :=
  { h with
    wcode := fun m => by
      rw [show ({ s with binding := s.binding.set n b } : State).binding = s.binding.set n b from rfl, Map.getD_set]
      split
      · exact hb
      · exact h.wcode m }

theorem Kept.putEnts {es} (h : Kept s) (hes : Coded es) : Kept (s.putEnts es) :=
  h.foldl (fun _ e he h =>
    (h.setBinding (hes e he)).setCluster (Nat.pow_le_pow_right (by decide) (hes e he) : 2 ^ e.2.wcode.toNat ≤ 2 ^ 2) (fun w hw => h.mark _ w hw))

theorem Kept.beginJob {d es rebind resets info} (h : Kept s) (hes : Coded es) : Kept (s.beginJob d es rebind resets info) := by
  unfold State.beginJob
  extract_lets es1 mid
  have hmid : Coded mid := by
    intro e he
    obtain ⟨b, -, rfl⟩ := List.mem_map.mp he
    exact h.wcode b.1
  exact (h.putEnts hmid).modDeck_job (fun j hj => by
    cases hj
    exact coded_changed hes)

/-! ### Power gating, cluster reset and replay (R368, R453, R454, R474) -/

theorem Kept.gateUnbound {d} (h : Kept s) : Kept (s.gateUnbound d) := h.modDeck rfl

theorem Kept.oweTests {d hs} (h : Kept s) : Kept (s.oweTests d hs) :=
  h.foldl (fun _ _ _ h => by
    split
    · exact h.modDeck (by split <;> rfl)
    · exact h)

theorem Kept.resetCluster {cl} (h : Kept s) : Kept (s.resetCluster cl) := by
  unfold State.resetCluster
  extract_lets s1 s2
  have h1 : Kept s1 := h.modCluster rfl rfl
  have h2 : Kept s2 := h1.foldl (fun _ _ _ h => h.bankReset)
  exact h2.foldl (fun _ _ _ h => h.modCore)

theorem Kept.freeHeld {l} (h : Kept s) : Kept (s.freeHeld l) := h
theorem Kept.putSaved {l} (h : Kept s) : Kept (s.putSaved l) := h

theorem Kept.stopForPart {info l} (h : Kept s) : Kept (s.stopForPart info l) := by
  unfold State.stopForPart
  extract_lets s1 ended
  have h1 : Kept s1 := h.foldl (fun _ _ _ h => h.evictStrand)
  have he : Kept ended := h1
  exact he.ite (he.raise.raise.setStatus.ite ((h1.freeHeld.putSaved.raise.modLaunch (by intro; rfl)).ite he.raise.setStatus))

theorem Kept.failClusters {cls info} (h : Kept s) : Kept (s.failClusters cls info) :=
  (h.foldl (fun _ _ _ h => h.stopForPart)).foldl (fun _ _ _ h => h.resetCluster)

/-! ### The binder's runs (R24, R29, R30, R357) -/

theorem Kept.repairDeck {d u} (h : Kept s) : Kept (s.repairDeck d u) := h.beginJob coded_deckEnts

theorem Kept.endJob {d} (h : Kept s) : Kept (s.endJob d) := by
  unfold State.endJob
  split
  · exact h
  · extract_lets s1
    have h1 : Kept s1 := (h.putEnts coded_finalEnts).modDeck_job (fun _ hj => nomatch hj)
    split
    · exact h1.setCluster (h1.width _) (fun _ hw => nomatch hw)
    · exact h1.failClusters.oweTests.gateUnbound

theorem Kept.runBinder {d} (h : Kept s) : Kept (s.runBinder d) := by
  unfold State.runBinder
  extract_lets rs keep s1 s2 b
  have h1 : Kept s1 := h.modDeck rfl
  have h2 : Kept s2 := (h1.putEnts (coded_changed coded_deckEnts)).gateUnbound
  clear_value s2
  refine h.ite (h.endJob.ite ?_)
  split
  · exact Kept.ite h2 h
  · split
    · exact Kept.repairDeck (h.modDeck rfl)
    · exact h

theorem Kept.modLife {f} (h : Kept s) : Kept (s.modLife f) := h

theorem Kept.retire {d u} (h : Kept s) : Kept (s.retire d u) := by
  unfold State.retire
  extract_lets x y s1
  have h1 : Kept s1 := Kept.modLife (h.modDeck rfl)
  exact h.ite ((h1.modDeck rfl).ite h1)

theorem Kept.endTest {d u ok} (h : Kept s) : Kept (s.endTest d u ok) := by
  unfold State.endTest
  extract_lets s1
  have h1 : Kept s1 := h.modDeck rfl
  exact h.ite (h1.ite h1.retire)

theorem Kept.partFails {d u} (h : Kept s) : Kept (s.partFails d u) := h.ite (h.retire.runBinder.ite h.retire)

theorem Kept.rebindCluster {cl bad} (h : Kept s) : Kept (s.rebindCluster cl bad) := by
  unfold State.rebindCluster
  extract_lets d
  split
  · exact h
  · rename_i hs begin_ _ _ _
    refine h.endJob.ite (h.ite ?_)
    have hb : ∀ w, Kept (begin_ s w) := fun _ => Kept.beginJob (h.modDeck rfl) coded_clusterEnts
    split
    · exact hb _
    · exact (hb _).retire.ite h

theorem Kept.gateHalf {d half} (h : Kept s) : Kept (s.gateHalf d half) := h.ite (h.modDeck rfl)

/-! ### Placement (R29, R66, R337 to R340) -/

theorem Kept.claimBank {c core p} (h : Kept s) : Kept (s.claimBank c core p) := (h.convertBank.ite (h.ite h.bankClear)).modBank

theorem Kept.placeMember {l gang e} (h : Kept s) : Kept (placeMember l gang s e) := by
  obtain ⟨m, core, i, tb⟩ := e
  unfold State.placeMember
  dsimp -zeta only
  split
  · exact h
  · split
    · exact h
    · next e =>
      extract_lets s1
      have h1 : Kept s1 := (h.placeWindow e).foldl (fun _ _ _ h => h.claimBank)
      exact h1.frame

theorem Kept.placeLaunch {l pl} (h : Kept s) : Kept (s.placeLaunch l pl) := by
  unfold State.placeLaunch
  extract_lets gang s1
  have h1 : Kept s1 := Kept.foldl (Kept.frame h) (fun _ _ _ h => h.placeMember)
  exact h1.modLaunch (fun _ => rfl)

theorem Kept.markGang {thermal id} (h : Kept s) : Kept (s.markGang thermal id) := by
  unfold State.markGang
  split
  · exact h
  · exact h.ite ((h.modLaunch (by intro; rfl)).ite (h.ite (Kept.modLaunch (h.foldl (fun _ _ _ h => h.frame)) (by intro; rfl))))

theorem Kept.markCluster {w cl} (h : Kept s) (hw : w ≤ 4) : Kept (s.markCluster w cl) := by
  have hm : Kept (s.modCluster cl (fun c => { c with mark := some w })) :=
    h.setCluster (h.width _) (fun v hv => by
      cases hv
      exact hw)
  exact hm.askRebind.foldl (fun _ _ _ h => h.markGang)

theorem Kept.markUntil {l fuel} (hl : l.width ≤ 4) : ∀ {s}, Kept s → Kept (markUntil l fuel s) := by
  induction fuel with
  | zero => exact fun h => h
  | succ n ih =>
    intro s h
    unfold State.markUntil
    split
    · exact h.foldl (fun _ _ _ h => h.markGang)
    · split
      · exact ih (h.markCluster hl)
      · exact h

theorem Kept.requestRoom {l} (h : Kept s) (hl : l.width ≤ 4) : Kept (s.requestRoom l) := by
  unfold State.requestRoom
  extract_lets gangs
  split
  · split
    · exact h.foldl (fun _ _ _ h => h.markGang)
    · exact h
  · exact h.markUntil hl

theorem Kept.wakeFor {pl} (h : Kept s) : Kept (s.wakeFor pl) := h.foldl (fun _ _ _ h => h.oweTests)

theorem Kept.passLaunch {oldest l} (h : Kept s) (hl : l.width ≤ 4) : Kept (passLaunch oldest s l) := by
  unfold State.passLaunch
  split
  · exact h.placeLaunch
  · split
    · exact h.wakeFor
    · exact (h.requestRoom hl).ite h

theorem Kept.passRest {ls} (h : Kept s) (hls : ∀ l ∈ ls, l.width ≤ 4) : Kept (s.passRest ls) :=
  h.foldl (fun _ l hl h => h.passLaunch (hls l hl))

theorem Kept.width_of_readyOf (h : Kept s) {c l} (hl : l ∈ s.readyOf c) : l.width ≤ 4 := h.launch l (List.mem_filter.mp hl).1

theorem Kept.passFrom {cs} : ∀ {s}, Kept s → Kept (passFrom cs s) := by
  induction cs with
  | nil => exact fun h => h
  | cons c cs ih =>
    intro s h
    unfold State.passFrom
    refine (ih h).ite ?_
    split
    · exact ih h
    · next l ls e =>
      have hw : ∀ k ∈ l :: ls, k.width ≤ 4 := fun k hk => h.width_of_readyOf (e ▸ hk)
      extract_lets s1
      have h1 : Kept s1 := h.passLaunch (hw l List.mem_cons_self)
      exact h1.ite (ih (h1.passRest (fun k hk => hw k (List.mem_cons_of_mem l hk))))

theorem Kept.placeAll (h : Kept s) : Kept s.placeAll := h.passFrom

theorem Kept.waited2Ms {c} (h : Kept s) : Kept (s.waited2Ms c) := by
  unfold State.waited2Ms
  refine h.ite ?_
  split
  · exact h
  · exact Kept.placeAll (h.modLaunch (fun _ => rfl))

/-! ### Start and resumption (R49, R50, R65, R250) -/

theorem Kept.clearParks {l} (h : Kept s) : Kept (s.clearParks l) := h.foldl (fun _ _ _ h => h.foldl (fun _ _ _ h => h.movePark))

theorem Kept.runGang {id f} (h : Kept s) (hf : ∀ l, (f l).width = l.width) : Kept (s.runGang id f) := by
  unfold State.runGang
  extract_lets owed s1
  have h1 : Kept s1 := h.modLaunch hf
  clear_value owed s1
  split
  · exact h1.markGang
  · exact h1

theorem Kept.startGang {id} (h : Kept s) : Kept (s.startGang id) := by
  unfold State.startGang
  split
  · exact h
  · extract_lets s1 s2
    have h1 : Kept s1 := h.clearParks
    have h2 : Kept s2 := h1.foldl (fun _ _ _ h => h.startMember)
    exact h.ite (h1.ite (h2.runGang (fun _ => rfl)))

theorem Kept.resumeLaunch {l} (h : Kept s) : Kept (resumeLaunch l s) := by
  unfold State.resumeLaunch
  split
  · exact h.endLaunch
  · split
    · exact h.kill
    · extract_lets s1 s2
      have h1 : Kept s1 := h.clearParks
      have h2 : Kept s2 := h1.foldl (fun _ _ _ h => h.resumeMember)
      exact h1.ite (h2.runGang (fun _ => rfl))

theorem Kept.resumeGang {id} (h : Kept s) : Kept (s.resumeGang id) := by
  unfold State.resumeGang
  split
  · exact h
  · exact h.ite (h.inTurn (fun _ h => h.resumeLaunch))

theorem Kept.depsMet {id} (h : Kept s) : Kept (s.depsMet id) := by
  unfold State.depsMet
  split
  · exact h
  · exact h.ite (h.modLaunch (fun _ => rfl))

/-! ### Streams and notify queues (R329, R330, R336) -/

theorem Kept.modStream {c i f} (h : Kept s) : Kept (s.modStream c i f) := h
theorem Kept.streamFault {c i reason tail} (h : Kept s) : Kept (s.streamFault c i reason tail) := h.modStream.raise
theorem Kept.settleStop {c i} (h : Kept s) : Kept (s.settleStop c i) := h.modStream.ite h

theorem Kept.takeRing {c i fuel} : ∀ {s}, Kept s → Kept (takeRing c i fuel s) := by
  induction fuel with
  | zero => exact fun h => h
  | succ n ih =>
    intro s h
    unfold State.takeRing
    extract_lets d va
    refine h.ite (h.whenRead ?_)
    split
    · exact h.streamFault
    · refine h.whenRead ?_
      split
      · exact h
      · next e => exact ih (h.takeRecord e).modStream

theorem Kept.takeTail {c i go bs} (h : Kept s) (hg : ∀ s, Kept s → Kept (go s)) : Kept (takeTail c i go bs s) := by
  unfold State.takeTail
  extract_lets d
  split
  · exact h.streamFault
  · exact h.streamFault.ite (hg _ h.modStream)

theorem Kept.tailSignal {c i} (h : Kept s) : Kept (s.tailSignal c i) := by
  unfold State.tailSignal
  extract_lets d go
  have hg : ∀ s, Kept s → Kept (go s) := fun _ h => h.takeRing.settleStop
  exact h.ite ((hg s h).ite (h.whenRead (h.takeTail hg)))

theorem Kept.takeNotify {c i fuel} : ∀ {s}, Kept s → Kept (takeNotify c i fuel s) := by
  induction fuel with
  | zero => exact fun h => h
  | succ n ih =>
    intro s h
    unfold State.takeNotify
    extract_lets d q va
    refine h.ite (h.whenRead ?_)
    split
    · exact h.streamFault
    · refine h.modStream.ite (h.whenRead ?_)
      split
      · exact h.streamFault
      · extract_lets r
        refine h.whenRead ?_
        split
        · exact h
        · next e =>
          have h1 : Kept _ := (h.takeRecord e).modStream (c := c) (i := i) (f := fun d => { d with head := d.head + 1 })
          extract_lets s1
          split
          · next e => exact ih (Kept.sysWrite h1 e)
          · exact Kept.streamFault h1

theorem Kept.notifySignalled {c i} (h : Kept s) : Kept (s.notifySignalled c i) := by
  unfold State.notifySignalled
  extract_lets d go
  have hg : ∀ s, Kept s → Kept (go s) := fun _ h => h.takeNotify.settleStop
  exact h.ite ((hg s h).ite ((hg _ h.modStream).ite (h.whenRead (h.takeTail hg))))

theorem Kept.writeMode {c i mode} (h : Kept s) : Kept (s.writeMode c i mode) :=
  (h.ite h.modStream.settleStop).ite (h.ite (h.modStream.ite h.streamFault))

/-! ### Completion, waiting records, the watchdog (R42 to R44, R437, R446, R451) -/

theorem Kept.freeFaults {c id} (h : Kept s) : Kept (s.freeFaults c id) := h

theorem Kept.completeNext {c st} (h : Kept s) : Kept (s.completeNext c st) := by
  unfold State.completeNext
  split
  · exact h
  · split
    · exact h
    · extract_lets ring
      refine h.ite (h.ringTurn (fun s t h e => ?_) (fun _ h => h))
      obtain ⟨u, hu, e⟩ := Option.map_eq_some_iff.mp e
      subst e
      exact Kept.mapLaunches (Kept.modHctx (Kept.modLaunch (h.ringPut hu) (fun _ => rfl))) (fun _ => rfl)

theorem Kept.noteWritten {c r rs} (h : Kept s) : Kept (noteWritten c r rs s) := by
  unfold State.noteWritten
  extract_lets s1
  have h1 : Kept s1 := h.modHctx
  split
  · split
    · exact h1.freeFaults.ite h1
    · exact h1
  · exact h1

theorem Kept.writeWaiting {c} (h : Kept s) : Kept (s.writeWaiting c) := by
  unfold State.writeWaiting
  split
  · exact h
  · refine h.ringTurn (fun s t h e => ?_) (fun _ h => h)
    obtain ⟨u, hu, rfl⟩ := Option.map_eq_some_iff.mp e
    exact (h.writeFault hu).noteWritten

theorem Kept.watchdogFires {id} (h : Kept s) : Kept (s.watchdogFires id) := by
  unfold State.watchdogFires
  split
  · exact h
  · exact h.ite h.freeVal.endLaunch

theorem Kept.strikeRecord {c} (h : Kept s) : Kept (s.strikeRecord c).2 := by
  unfold State.strikeRecord
  extract_lets ks
  split
  · exact h
  · exact h.freeVal

theorem Kept.uncorrectable {c} (h : Kept s) : Kept (s.uncorrectable c) := h.ite h.strikeRecord.modLife.kill

/-! ### Errors and agents outside the part (R240, R246, R258, R461, R468) -/

theorem Kept.sramEcc {cl bank granule dbl} (h : Kept s) : Kept (s.sramEcc cl bank granule dbl) := by
  unfold State.sramEcc
  split
  · exact Kept.ite h h
  · exact Kept.modLife (h.modCluster rfl rfl)

theorem Kept.hbmEcc {line correctable} (h : Kept s) : Kept (s.hbmEcc line correctable) := Kept.ite h (Kept.ite h h)

theorem Kept.snoopPool {line} (h : Kept s) : Kept (s.snoopPool line) := h.ite h.sendHome
theorem Kept.snoopHost {line inv} (h : Kept s) : Kept (s.snoopHost line inv) := h.ite h.sendHome

theorem Kept.hostWrite {pa bs} (h : Kept s) : Kept (s.hostWrite pa bs) :=
  (h.foldl (fun _ _ _ h => h.outsideWrite.ite h.sendHome)).ite h

theorem Kept.dcAdd {d dpa len} (h : Kept s) : Kept (s.dcAdd d dpa len) := Kept.ite h h

theorem Kept.dcGiveUp {d dpa len} (h : Kept s) (e : s.dcGiveUp d dpa len = some t) : Kept t := by
  unfold State.dcGiveUp at e
  split at e
  · cases e
  · cases e
    exact h

theorem Kept.dcRelease {d dpa len} (h : Kept s) : Kept (s.dcRelease d dpa len) := (h.getD (fun _ e => h.dcGiveUp e)).ite h

/-! ### The platform (R4, R430, R431, R473 to R477) -/

/-- A cold reset: no cluster, entry, job, launch or image is left, and memory outside the banks stays. -/
theorem Kept.coldReset (h : Kept s) : Kept s.coldReset where
  mem := Mem.wf_filter _ _ h.mem
  width _ := show Cluster.reset.width ≤ 4 by decide
  mark _ _ hw := nomatch hw
  wcode _ := show (0 : BitVec 2).toNat ≤ 2 by decide
  job d j hj := by
    change ((Vector.map Deck.start _).toList.getD d (Deck.start Health.all)).job = some j at hj
    rw [Vector.toList_map, List.getD_map] at hj
    nomatch hj
  launch _ hl := nomatch hl
  image _ hi := nomatch hi

theorem Kept.bringUp {f} (h : Kept s) : Kept (s.bringUp f) := Kept.ite h h

theorem Kept.levelEnter (h : Kept s) : Kept s.levelEnter := by
  unfold State.levelEnter
  extract_lets n s1
  have h1 : Kept s1 := h
  exact h.ite ((h1.foldl (fun _ _ _ h => h.markGang)).ite h1)

theorem Kept.levelLeave (h : Kept s) : Kept s.levelLeave := h.ite (Kept.frame h.tickTtime)

theorem Kept.clockDown (h : Kept s) : Kept s.clockDown := h
theorem Kept.clockStep {down} (h : Kept s) : Kept (s.clockStep down) := (h.clockDown.ite h).ite h

theorem Kept.tickMinutes (h : Kept s) : Kept s.tickMinutes := by
  unfold State.tickMinutes
  extract_lets add n u
  have hu : Kept u := h.modLife
  clear_value u
  exact hu

theorem Kept.storeLife (h : Kept s) : Kept s.storeLife := by
  unfold State.storeLife
  extract_lets s1
  have h1 : Kept s1 := h.tickMinutes
  clear_value s1
  exact h1

theorem Kept.criticalShutdown (h : Kept s) : Kept s.criticalShutdown := by
  unfold State.criticalShutdown
  extract_lets live s1
  have h1 : Kept s1 := Kept.storeLife (h.foldl (fun _ _ _ h => h.kill))
  clear_value s1
  exact h1

theorem Kept.spdm {i} (h : Kept s) : Kept (s.spdm i) := Kept.ite h h

end Sys2Proof.Machine.State
end

section
/-! What every step keeps: loading, the host's side, and every event; then the step itself. -/

namespace Sys2Proof.Machine.State

variable {s t : State}

/-! ### Loading (R68, R81, R96) -/

/-- The images an optional build gives have a width. -/
def BuildsWidth (w : Nat) (o : Option (RawImg × Image)) : Prop := ∀ r j, o = some (r, j) → j.width = w

theorem BuildsWidth.bind {α : Type} {w : Nat} {o : Option α} {f : α → Option (RawImg × Image)} (h : ∀ a, BuildsWidth w (f a)) : BuildsWidth w (o >>= f) :=
  fun r j e => by
    obtain ⟨a, -, e⟩ := Option.bind_eq_some_iff.mp e
    exact h a r j e

theorem BuildsWidth.ite {c : Prop} [Decidable c] {w : Nat} {o p : Option (RawImg × Image)} (ho : BuildsWidth w o) (hp : BuildsWidth w p) :
    BuildsWidth w (if c then o else p) := by
  split
  · exact ho
  · exact hp

theorem BuildsWidth.some {c : Prop} [Decidable c] {w : Nat} {r : RawImg} {j : Image} (h : j.width = w) : BuildsWidth w (if c then .some (r, j) else none) :=
  BuildsWidth.ite (fun _ _ e => by cases e; exact h) nofun

/-- A built image has a width of R34. -/
theorem width_of_buildImage {c va pva i data} (e : s.buildImage c va pva = .ok (i, data)) : i.width ≤ 4 := by
  have hg : ∀ n, (widthOf n).getD 1 ≤ 4 := fun n => by
    unfold widthOf
    split <;> decide
  unfold State.buildImage at e
  split at e
  · cases e
  · extract_lets d g rel jp built _ at e
    have hjp : ∀ r, BuildsWidth g (jp r) := fun r => by
      unfold jp
      refine .bind fun fp => .bind fun cores => .bind fun bk => ?_
      extract_lets jpw
      have hjpw : ∀ words, BuildsWidth g (jpw words) := fun _ => .bind fun _ => .some rfl
      exact (BuildsWidth.bind hjpw).ite (.bind hjpw)
    have hb : BuildsWidth g built := (BuildsWidth.bind hjp).ite (.bind hjp)
    clear_value built
    split at e
    · cases e
    · extract_lets slot at e
      split at e
      · cases e
      · split at e
        · cases e
        · split at e
          · cases e
          · cases e
            exact hb _ _ rfl ▸ hg _

theorem Kept.protectPages {c va n} (h : Kept s) : Kept (s.protectPages c va n) :=
  h.foldl (fun _ _ _ h => by
    split
    · exact h
    · exact h.writeMem.filterTlbs)

theorem Kept.writeBack {c data} (h : Kept s) : Kept (s.writeBack c data) :=
  h.foldl (fun _ _ _ h => by
    split
    · exact h
    · exact h.sysPut)

theorem Kept.addImage {i : Image} (h : Kept s) (hi : i.width ≤ 4) : Kept { s with images := s.images ++ [i] } :=
  { h with
    image := fun j hj => by
      obtain hj | hj := List.mem_append.mp hj
      · exact h.image j hj
      · exact List.mem_singleton.mp hj ▸ hi }

theorem Kept.residentImage {c va size i data} (h : Kept s) (hi : i.width ≤ 4) : Kept (s.residentImage c va size i data).2 := by
  have hp : Kept ((s.writeBack c data).newId.2.protectPages c va size) := h.writeBack.newId.protectPages
  exact { hp with image := (h.writeBack.newId.addImage (i := { i with handle := (s.writeBack c data).newId.1 % 2 ^ 32 }) hi).image }

theorem Kept.filterImages {p : Image → Bool} (h : Kept s) : Kept { s with images := s.images.filter p } :=
  { h with image := fun i hi => h.image i (List.mem_filter.mp hi).1 }

/-! ### The host's registers (R443, R457 to R462) -/

theorem Kept.writePause {c p} (h : Kept s) : Kept (s.writePause c p) := by
  unfold State.writePause
  extract_lets s1
  have h1 : Kept s1 := h.modHctx
  exact (h1.foldl (fun _ _ _ h => h.markGang)).ite h1

theorem Kept.hostResume {c w} (h : Kept s) : Kept (s.hostResume c w) := h.modHctx.ite h.resumeFault.idle

theorem Kept.retryResumes {c} (h : Kept s) : Kept (s.retryResumes c) := h.ite (h.modHctx.foldl (fun _ _ _ h => h.hostResume))

theorem Kept.writeHalt {core v} (h : Kept s) : Kept (s.writeHalt core v) := by
  unfold State.writeHalt
  extract_lets s1
  have h1 : Kept s1 := h.modCore
  exact (h1.foldl (fun _ _ _ h => h.retryResumes)).ite h1

theorem Kept.writeStream {c i word v} (h : Kept s) : Kept (s.writeStream c i word v) := by
  unfold State.writeStream
  extract_lets s1
  have h1 : Kept s1 := h.modStream.ite h
  exact h1.writeMode.ite h1

theorem Kept.writeBlock {c off v} (h : Kept s) : Kept (s.writeBlock c off v) := by
  unfold State.writeBlock
  extract_lets n i size root p w
  refine h.modHctx.ite (h.writeStream.ite (Kept.ite (Kept.ite h ?_) ?_))
  · exact Kept.frame h.modHctx
  · exact (h.modHctx.ite h).ite ((h.modHctx.ite h).ite (h.modHctx.ite (h.modHctx.ite (h.modHctx.writePause.ite (h.hostResume.ite h)))))

theorem Kept.answer {status value} (h : Kept s) : Kept (s.answer status value) := Kept.frame (Kept.takeReplies h.giveUp)

theorem Kept.doorbell (h : Kept s) : Kept s.doorbell := h.ite (Kept.ite h h.answer)

theorem Kept.writeBar {off v} (h : Kept s) : Kept (s.writeBar off v) := by
  unfold State.writeBar
  extract_lets core
  exact h.ite ((h.ite h.frame).ite ((h.doorbell.ite h).ite ((h.modCore.ite (h.writeHalt.ite h)).ite (h.writeBlock.ite h))))

/-! ### The mailbox (R463, R464) -/

/-- A command's answer keeps the bounds: in the state it ends or waits in. -/
def AnswerKept : Answer → Prop
  | .ok _ s => Kept s
  | .later s => Kept s
  | _ => True

theorem AnswerKept.ite {c : Prop} [Decidable c] {x y : Answer} (hx : AnswerKept x) (hy : AnswerKept y) : AnswerKept (if c then x else y) := by
  split
  · exact hx
  · exact hy

theorem Kept.command {op u ok run} (h : Kept s) (hr : ∀ c s, Kept s → AnswerKept (run c s)) : Kept (command op u ok run s) := by
  unfold State.command
  extract_lets c
  refine h.ite (h.answer.ite ?_)
  have ha : AnswerKept (run c s) := hr c s h
  split
  · next e => exact Kept.answer (show AnswerKept (.ok _ _) from e ▸ ha)
  · exact h.answer
  · exact h.answer
  · exact h.answer
  · next e => exact (show AnswerKept (.later _) from e ▸ ha)

theorem Kept.reading {c va n run} (h : Kept s) (hr : AnswerKept (run s)) : AnswerKept (reading c va n run s) :=
  AnswerKept.ite (show AnswerKept (.later _) from h.sysAsk) hr

theorem Kept.turned {lines run} (h : Kept s) (hr : ∀ s, Kept s → AnswerKept (run s)) : AnswerKept (turned lines run s) := by
  unfold State.turned
  extract_lets o
  refine AnswerKept.ite (show AnswerKept (.later _) from h.joinLines) ?_
  have ha : AnswerKept (run (s.asMine o lines)) := hr _ h.asMine
  generalize run (s.asMine o lines) = r at ha ⊢
  cases r with
  | ok v t => exact Kept.giveBack ha
  | later t => exact Kept.keepBack ha
  | refused | invalid | noSpace => exact trivial

theorem Kept.hcCreate {c} (h : Kept s) : AnswerKept (hcCreate c s) := AnswerKept.ite trivial h

theorem Kept.unregister {c} (h : Kept s) : Kept (s.unregister c) := by
  unfold State.unregister
  extract_lets s1 s2
  have h1 : Kept s1 := h.foldl (fun _ _ _ h => h.removeMap)
  exact h1.frame

theorem Kept.releaseBanks {c} (h : Kept s) : Kept (s.releaseBanks c) :=
  h.foldl (fun _ _ _ h => h.foldl (fun _ _ _ h => h.bankClear.modBank))

theorem Kept.hcDestroy {c} (h : Kept s) : AnswerKept (hcDestroy c s) := by
  unfold State.hcDestroy
  extract_lets c1
  refine AnswerKept.ite trivial (h.turned (fun s h => ?_))
  extract_lets s1 s2 s3 s4
  have h1 : Kept s1 := h.foldl (fun _ _ _ h => h.giveUp)
  have h2 : Kept s2 := h1.filterImages
  have h3 : Kept s3 := h2.unregister.releaseBanks
  have h4 : Kept s4 := h3.modHctx
  clear_value s4
  exact h4

theorem Kept.hcRestart {c} (h : Kept s) : AnswerKept (hcRestart c s) := AnswerKept.ite trivial h

theorem Kept.settleImage {c} (h : Kept s) : AnswerKept (settleImage c s) := by
  unfold State.settleImage
  split
  · exact AnswerKept.ite trivial (AnswerKept.ite trivial trivial)
  · next e => exact h.turned (fun _ h => h.residentImage (width_of_buildImage e))

theorem Kept.residency {c} (h : Kept s) : AnswerKept (residency c s) := by
  unfold State.residency
  refine AnswerKept.ite trivial (h.reading (h.reading ?_))
  split
  · exact h.settleImage
  · exact h.reading h.settleImage

theorem Kept.unloadImage {c} (h : Kept s) : AnswerKept (unloadImage c s) :=
  AnswerKept.ite trivial (AnswerKept.ite trivial (AnswerKept.ite trivial h.filterImages))

theorem Kept.pteWrite {c} (h : Kept s) : AnswerKept (pteWrite c s) := by
  unfold State.pteWrite
  refine AnswerKept.ite trivial ?_
  split
  · exact trivial
  · refine AnswerKept.ite trivial (h.turned (fun s h => ?_))
    extract_lets s1
    have h1 : Kept s1 := h.homePut
    exact Kept.ite h1.frame h1

theorem Kept.tlbDrop {c} (h : Kept s) : AnswerKept (tlbDrop c s) := by
  unfold State.tlbDrop
  refine AnswerKept.ite trivial ?_
  split
  · next e => exact h.dropLeaves e
  · exact h

theorem Kept.register {c} (h : Kept s) : AnswerKept (register c s) := by
  unfold State.register
  extract_lets c1 base count logtpb put
  refine AnswerKept.ite trivial (AnswerKept.ite trivial (AnswerKept.ite trivial ?_))
  split
  · exact trivial
  · exact AnswerKept.ite trivial (h.turned (fun _ h => h))

theorem Kept.prefixRemove {c} (h : Kept s) : AnswerKept (prefixRemove c s) := by
  unfold State.prefixRemove
  split
  · exact trivial
  · exact h.turned (fun _ h => h.pfxRemove)

theorem Kept.openStream {c} (h : Kept s) : AnswerKept (openStream c s) := by
  unfold State.openStream
  refine AnswerKept.ite trivial (h.reading ?_)
  split
  · exact trivial
  · exact AnswerKept.ite trivial (AnswerKept.ite (h.turned (fun _ h => h)) trivial)

theorem Kept.closeStream {c} (h : Kept s) : AnswerKept (closeStream c s) := by
  unfold State.closeStream
  split
  · exact trivial
  · refine AnswerKept.ite trivial (h.turned (fun s h => ?_))
    exact Kept.ite h h

theorem Kept.keyAdd {c} (h : Kept s) : AnswerKept (keyAdd c s) := by
  unfold State.keyAdd
  refine AnswerKept.ite trivial (h.reading ?_)
  split
  · exact trivial
  · exact h

theorem Kept.dcAccept {c} (h : Kept s) : AnswerKept (dcAccept c s) := AnswerKept.ite trivial h

theorem Kept.dcReleaseCmd {c} (h : Kept s) : AnswerKept (dcReleaseCmd c s) := by
  unfold State.dcReleaseCmd
  refine AnswerKept.ite trivial ?_
  split
  · exact trivial
  · next e => exact h.dcGiveUp e

theorem Kept.lifeRead {c} (h : Kept s) : AnswerKept (lifeRead c s) :=
  h.turned (fun s h => by
    extract_lets s1
    have h1 : Kept s1 := h.tickMinutes
    split
    · exact trivial
    · next e => exact (h1.sysWrite e :))

/-! ### Every event, and the step -/

end Sys2Proof.Machine.State
end

section
/-! What every step keeps: every event, and the step itself (settles O58). -/

namespace Sys2Proof.Machine.State

variable {s t : State}

theorem Kept.headFails {d p} (h : Kept s) : Kept (s.headFails d p) := h

theorem Kept.lifeFlush (h : Kept s) : Kept s.lifeFlush := h.modLife.storeLife

theorem Kept.clusterResetCmd {c} (h : Kept s) : AnswerKept (clusterResetCmd c s) := h.failClusters

theorem Kept.copyEvent {n} (h : Kept s) (e : execCopyComplete n s = .next t) : Kept t := by
  unfold execCopyComplete at e
  split at e
  · cases e
    exact h.stepCopy
  · cases e
    exact h

theorem Kept.gemvEvent {n} (h : Kept s) (e : execGemvComplete n s = .next t) : Kept t := by
  unfold execGemvComplete at e
  split at e
  · cases e
    exact h.stepGemv
  · cases e
    exact h

theorem Kept.consumeEvent {n} (h : Kept s) (e : execMmaOperandsConsumed n s = .next t) : Kept t := by
  unfold execMmaOperandsConsumed at e
  split at e
  · cases e
    exact h.consumeMma
  · cases e
    exact h

theorem Kept.completeEvent {n} (h : Kept s) (e : execMmaComplete n s = .next t) : Kept t := by
  unfold execMmaComplete at e
  split at e
  · cases e
    exact h.completeMma
  · cases e
    exact h

/-- An event that goes on in a state within its bounds keeps them. -/
theorem Kept.goesOn (h : Kept s) (e : (.next s : Host.Outcome State Fault Refusal) = .next t) : Kept t := by
  cases e
  exact h

/-- Every event and slot operation keeps the bounds. -/
theorem Kept.exec {i : Instr} (h : Kept s) (e : exec i s = .next t) : Kept t := by
  cases i with
  | coldReset => exact h.coldReset.goesOn e
  | wakeTest => exact h.endTest.goesOn e
  | binderRun => exact h.runBinder.goesOn e
  | partFailure => exact h.partFails.goesOn e
  | rebind => exact h.rebindCluster.goesOn e
  | halfPowerGate => exact h.gateHalf.goesOn e
  | selectorCycle => exact h.cycle.goesOn e
  | landingDataArrival => exact h.dataArrives.goesOn e
  | engineOpStart => exact h.startOp.goesOn e
  | engineOpComplete => exact h.completeOp.goesOn e
  | tlbWalkComplete => exact h.endWalk.goesOn e
  | homeRequestRun => exact h.runNext.goesOn e
  | bankModeChange => exact h.changeBank.goesOn e
  | copyschedEntryStart => exact h.startEntry.goesOn e
  | pushDelivery => exact h.deliverPush.goesOn e
  | suspendDependenceMet => exact h.depsMet.goesOn e
  | gangResume => exact h.resumeGang.goesOn e
  | tailWordSignal => exact h.tailSignal.goesOn e
  | notifySignal => exact h.notifySignalled.goesOn e
  | placementPass => exact h.placeAll.goesOn e
  | gangStart => exact h.startGang.goesOn e
  | launchComplete => exact h.completeNext.goesOn e
  | faultRecordWrite => exact h.writeWaiting.goesOn e
  | watchdog => exact h.watchdogFires.goesOn e
  | uncorrectableError => exact h.uncorrectable.goesOn e
  | sramEccError => exact h.sramEcc.goesOn e
  | poolHeadFailover => exact h.headFails.goesOn e
  | bisnp => exact h.snoopPool.goesOn e
  | hostSnoop => exact h.snoopHost.goesOn e
  | hostMemWrite => exact h.hostWrite.goesOn e
  | dcAddEvent => exact h.dcAdd.goesOn e
  | dcReleaseRequest => exact h.dcRelease.goesOn e
  | thermalLevelEnter => exact h.levelEnter.goesOn e
  | thermalLevelLeave => exact h.levelLeave.goesOn e
  | clockStep => exact h.clockStep.goesOn e
  | powerLimitExceeded => exact h.clockDown.goesOn e
  | criticalShutdown => exact h.criticalShutdown.goesOn e
  | lifetimeFlush => exact h.lifeFlush.goesOn e
  | hostRegisterWrite => exact h.writeBar.goesOn e
  | streamModeWrite => exact h.writeMode.goesOn e
  | controlPause => exact h.writePause.goesOn e
  | resumew => exact h.hostResume.goesOn e
  | haltSoft | haltHard | haltRelease => exact h.writeHalt.goesOn e
  | oldestLaunchWait2Ms => exact h.waited2Ms.goesOn e
  | stacksTrained | nearMemoryEnginesTrained | thermalCalibrationDone => exact h.bringUp.goesOn e
  | hbmEccFailure => exact h.hbmEcc.goesOn e
  | spdmRequest => exact h.spdm.goesOn e
  | orderlyShutdown => exact h.storeLife.goesOn e
  | copyComplete => exact h.copyEvent e
  | gemvComplete => exact h.gemvEvent e
  | mmaOperandsConsumed => exact h.consumeEvent e
  | mmaComplete => exact h.completeEvent e
  | hccreate => exact (h.command (fun _ _ h => h.hcCreate)).goesOn e
  | hcdestroy => exact (h.command (fun _ _ h => h.hcDestroy)).goesOn e
  | hcrestart => exact (h.command (fun _ _ h => h.hcRestart)).goesOn e
  | reside => exact (h.command (fun _ _ h => h.residency)).goesOn e
  | unload => exact (h.command (fun _ _ h => h.unloadImage)).goesOn e
  | ptewrite => exact (h.command (fun _ _ h => h.pteWrite)).goesOn e
  | tlbdrop => exact (h.command (fun _ _ h => h.tlbDrop)).goesOn e
  | medreg => exact (h.command (fun _ _ h => h.register)).goesOn e
  | pfxremove => exact (h.command (fun _ _ h => h.prefixRemove)).goesOn e
  | streamopen => exact (h.command (fun _ _ h => h.openStream)).goesOn e
  | streamclose => exact (h.command (fun _ _ h => h.closeStream)).goesOn e
  | keyadd => exact (h.command (fun _ _ h => h.keyAdd)).goesOn e
  | clusterreset => exact (h.command (fun _ _ h => h.clusterResetCmd)).goesOn e
  | dcaccept => exact (h.command (fun _ _ h => h.dcAccept)).goesOn e
  | dcrelease => exact (h.command (fun _ _ h => h.dcReleaseCmd)).goesOn e
  | liferead => exact (h.command (fun _ _ h => h.lifeRead)).goesOn e
  | _ => exact h.performOut ((performOut_eq_exec rfl s).trans e)

theorem keeps_of_runEvent {i : Instr} (h : Kept s) (e : runEvent i s = .next t) : Claims.Keeps t := by
  unfold runEvent at e
  split at e
  · next u hu =>
    cases e
    exact keeps_iff.mpr ⟨(h.idle.exec hu).idle, rfl⟩
  · next hn => exact absurd e (hn t)

theorem keeps_of_step (h : Claims.Keeps s) (e : step s = .next t) : Claims.Keeps t := by
  obtain ⟨hk, hc⟩ := keeps_iff.mp h
  unfold step at e
  split at e
  · split at e
    · cases e
    · split at e
      · cases e
        exact keeps_iff.mpr ⟨hk, hc⟩
      · exact keeps_of_runEvent (Kept.frame hk) e
  · split at e
    · cases e
    · split at e
      · exact keeps_of_runEvent (Kept.frame hk) e
      · cases e
        exact keeps_iff.mpr ⟨hk, hc⟩

end Sys2Proof.Machine.State

namespace Sys2Proof.Proofs

/-- Settles O58: each function of the model keeps the bounds of `Kept` by itself, a step is one event of these functions, and an event leaves no operation in progress. -/
theorem everyStepKeepsTheInvariant : Obligations.EveryStepKeepsTheInvariant := by
  unfold Obligations.EveryStepKeepsTheInvariant
  exact fun _ _ => Machine.State.keeps_of_step

end Sys2Proof.Proofs
end

section
/-! What a part's failure leaves alone: a binder at work, and the clusters it resets, change no health record and no count of the lifetime record (spec 13 R356; 15 R431; 16 R453). -/

namespace Sys2Proof.Machine.State

variable {s t : State} {hs : Nat → Health} {life : Lifetime}

/-- The decks have these health records, and the part has this lifetime record. -/
def HealthIs (hs : Nat → Health) (life : Lifetime) (s : State) : Prop := (∀ d, (s.deck d).health = hs d) ∧ s.plat.life = life

theorem HealthIs.ite {c : Prop} [Decidable c] (ht : HealthIs hs life s) (hu : HealthIs hs life t) : HealthIs hs life (if c then s else t) := by
  split
  · exact ht
  · exact hu

theorem HealthIs.foldl {α : Type} {f : State → α → State} {l : List α} (h : HealthIs hs life s)
    (hf : ∀ s a, HealthIs hs life s → HealthIs hs life (f s a)) : HealthIs hs life (l.foldl f s) :=
  List.foldlRecOn (motive := HealthIs hs life) l f h (fun s hs a _ => hf s a hs)

/-- A change of a deck that leaves its health. -/
theorem HealthIs.modDeck {d : Nat} {f : Deck → Deck} (h : HealthIs hs life s) (hf : ∀ k, (f k).health = k.health) : HealthIs hs life (s.modDeck d f) :=
  ⟨fun j => by
    rw [deck_modDeck]
    split
    · exact (hf _).trans (h.1 j)
    · exact h.1 j, h.2⟩

theorem HealthIs.of_plat (h : HealthIs hs life s) (e : t.plat = s.plat) : HealthIs hs life t := by
  unfold HealthIs State.deck
  rw [e]
  exact h

theorem HealthIs.raise {c r} (h : HealthIs hs life s) : HealthIs hs life (s.raise c r) :=
  h.of_plat (congrArg (·.plat) (s.raise_sysChange c r).rest)

/-! ### The end of a strand and of a launch (R445, R453) -/

theorem HealthIs.unlock {m} (h : HealthIs hs life s) : HealthIs hs life (s.unlock m) :=
  h.ite (h.foldl (fun _ _ h => HealthIs.ite h h))

theorem HealthIs.discardWork {k} (h : HealthIs hs life s) : HealthIs hs life (s.discardWork k) := by
  unfold State.discardWork
  extract_lets mine s1 busy s2 chg s3
  have h1 : HealthIs hs life s1 := h.foldl (fun _ _ h => h.unlock)
  exact h1

theorem HealthIs.freeStrand {k} (h : HealthIs hs life s) : HealthIs hs life (s.freeStrand k) := by
  have h1 : HealthIs hs life ((s.discardWork k).account k) := h.discardWork
  have h2 : HealthIs hs life ((((s.discardWork k).account k).releaseWindow k).modStrand k (freedStrand k)) := h1.ite h1
  exact h2.ite (h2.modDeck (fun _ => rfl))

theorem HealthIs.evictStrand {k} (h : HealthIs hs life s) : HealthIs hs life (s.evictStrand k) := by
  unfold State.evictStrand
  extract_lets hc s1
  have h1 : HealthIs hs life s1 := h.foldl (fun _ _ h => HealthIs.ite h h)
  exact HealthIs.freeStrand h1

theorem HealthIs.modLaunch {id f} (h : HealthIs hs life s) : HealthIs hs life (s.modLaunch id f) := h
theorem HealthIs.setStatus {id st} (h : HealthIs hs life s) : HealthIs hs life (s.setStatus id st) := h
theorem HealthIs.freeHeld {l} (h : HealthIs hs life s) : HealthIs hs life (s.freeHeld l) := h
theorem HealthIs.putSaved {l} (h : HealthIs hs life s) : HealthIs hs life (s.putSaved l) := h

theorem HealthIs.stopForPart {info l} (h : HealthIs hs life s) : HealthIs hs life (s.stopForPart info l) := by
  unfold State.stopForPart
  extract_lets s1 ended
  have h1 : HealthIs hs life s1 := h.foldl (fun _ _ h => h.evictStrand)
  have he : HealthIs hs life ended := h1
  exact he.ite (he.raise.raise.setStatus.ite (h1.freeHeld.putSaved.raise.modLaunch.ite he.raise.setStatus))

theorem HealthIs.failClusters {cls info} (h : HealthIs hs life s) : HealthIs hs life (s.failClusters cls info) :=
  (h.foldl (fun _ _ h => h.stopForPart)).foldl (fun _ _ h => by
    unfold State.resetCluster
    extract_lets s1 s2
    have h2 : HealthIs hs life s2 := HealthIs.foldl (s := s1) h (fun _ _ h => h)
    exact h2.foldl (fun _ _ h => h))

/-! ### The binder at work (R24, R357) -/

theorem HealthIs.putEnts {es} (h : HealthIs hs life s) : HealthIs hs life (s.putEnts es) := h.foldl (fun _ _ h => h)

theorem HealthIs.gateUnbound {d} (h : HealthIs hs life s) : HealthIs hs life (s.gateUnbound d) := h.modDeck (fun _ => rfl)

theorem HealthIs.oweTests {d l} (h : HealthIs hs life s) : HealthIs hs life (s.oweTests d l) :=
  h.foldl (fun _ _ h => by
    split
    · exact h.modDeck (fun _ => by split <;> rfl)
    · exact h)

theorem HealthIs.endJob {d} (h : HealthIs hs life s) : HealthIs hs life (s.endJob d) := by
  unfold State.endJob
  split
  · exact h
  · extract_lets s1
    have h1 : HealthIs hs life s1 := h.putEnts.modDeck (fun _ => rfl)
    clear_value s1
    split
    · exact h1
    · exact h1.failClusters.oweTests.gateUnbound

theorem HealthIs.beginJob {d es rebind resets info} (h : HealthIs hs life s) : HealthIs hs life (s.beginJob d es rebind resets info) := by
  unfold State.beginJob
  extract_lets es mid
  exact h.putEnts.modDeck (fun _ => rfl)

theorem HealthIs.repairDeck {d u} (h : HealthIs hs life s) : HealthIs hs life (s.repairDeck d u) := h.beginJob

theorem HealthIs.runBinder {d} (h : HealthIs hs life s) : HealthIs hs life (s.runBinder d) := by
  unfold State.runBinder
  extract_lets rs keep s1 s2 b
  have h1 : HealthIs hs life s1 := h.modDeck (fun _ => rfl)
  have h2 : HealthIs hs life s2 := h1.putEnts.gateUnbound
  clear_value s2
  refine h.ite (h.endJob.ite (HealthIs.ite (HealthIs.ite h2 h) ?_))
  split
  · exact HealthIs.repairDeck (h.modDeck (fun _ => rfl))
  · exact h

end Sys2Proof.Machine.State
end

section
/-! The binder's entries: what writing some of them leaves in each entry and cluster (spec 01 R23, R25, R34, R36). -/

namespace Sys2Proof.Machine

theorem NSet.mem_add (l : NSet) (k n : Nat) : (l.add k).mem n = (l.mem n || n == k) := by
  rw [Bool.eq_iff_iff]
  simp only [NSet.add, NSet.mem, List.any_append, List.any_cons, Bool.or_eq_true, List.any_eq_true, List.mem_filter, beq_iff_eq, decide_eq_true_eq]
  constructor
  · rintro (⟨a, ⟨ha, -⟩, rfl⟩ | rfl | ⟨a, ⟨ha, -⟩, rfl⟩)
    · exact .inl ⟨a, ha, rfl⟩
    · exact .inr rfl
    · exact .inl ⟨a, ha, rfl⟩
  · rintro (⟨a, ha, rfl⟩ | rfl)
    · obtain h | h | h := Nat.lt_trichotomy a k
      · exact .inl ⟨a, ⟨ha, h⟩, rfl⟩
      · exact .inr (.inl h.symm)
      · exact .inr (.inr ⟨a, ⟨ha, h⟩, rfl⟩)
    · exact .inr (.inl rfl)

theorem NSet.mem_foldl_add (ks : List Nat) (l : NSet) (n : Nat) : (ks.foldl NSet.add l).mem n = (l.mem n || ks.contains n) := by
  induction ks generalizing l with
  | nil => simp
  | cons k ks ih => rw [List.foldl_cons, ih, mem_add, List.contains_cons, Bool.or_assoc]

/-! ### The entry of a position -/

theorem makeEnt_halves {id width lo hi : Nat} {alive : Bool} (hlo : lo < 128) (hhi : hi < 128) (g : BitVec 8) :
    ({ makeEnt id width alive (some (lo, hi)) with bgen := g } : BindEnt).halves = some (lo, hi) := by
  have hr : (makeEnt id width alive (some (lo, hi))).role = 0 ∨ (makeEnt id width alive (some (lo, hi))).role = 1 := by
    dsimp only [makeEnt]
    split
    · exact .inl rfl
    · exact .inr rfl
  refine (if_pos hr).trans ?_
  simp only [makeEnt, BitVec.toNat_ofNat, Nat.reducePow, Nat.mod_eq_of_lt hlo, Nat.mod_eq_of_lt hhi]

theorem makeEnt_halves_none {id width : Nat} {alive : Bool} (g : BitVec 8) :
    ({ makeEnt id width alive none with bgen := g } : BindEnt).halves = none := by
  cases alive <;> rfl

theorem halves_lt {e : BindEnt} {p : Nat × Nat} (h : e.halves = some p) : p.1 < 128 ∧ p.2 < 128 := by
  unfold BindEnt.halves at h
  split at h
  · cases h
    exact ⟨e.halflo.isLt, e.halfhi.isLt⟩
  · cases h

/-- An entry made from the halves that some entry binds binds the same. -/
theorem halves_makeEnt {e : BindEnt} {b : Option (Nat × Nat)} (h : b = none ∨ b = e.halves) {id width : Nat} {alive : Bool} (g : BitVec 8) :
    ({ makeEnt id width alive b with bgen := g } : BindEnt).halves = b := by
  cases b with
  | none => exact makeEnt_halves_none g
  | some p =>
    obtain ⟨hlo, hhi⟩ := halves_lt (h.resolve_left nofun).symm
    exact makeEnt_halves hlo hhi g

namespace State

variable {s t : State}

/-! ### Decks -/

theorem deck_modDeck_self {d : Nat} (f : Deck → Deck) (hd : d < 4) : (s.modDeck d f).deck d = f (s.deck d) := by
  rw [deck_modDeck, if_pos ⟨rfl, hd⟩]

theorem deck_of_decks (h : t.plat.decks = s.plat.decks) (d : Nat) : t.deck d = s.deck d := by
  unfold deck
  rw [h]

theorem deck_eq (s : State) (i : Fin 4) : s.deck i.val = s.plat.decks[i] := by
  simp [deck, List.getD_eq_getElem?_getD]

theorem modDeck_congr {d : Nat} {f g : Deck → Deck} (h : f (s.deck d) = g (s.deck d)) : s.modDeck d f = s.modDeck d g := by
  have hd : (fun i : Fin 4 => if i.val = d then f s.plat.decks[i] else s.plat.decks[i]) =
      fun i : Fin 4 => if i.val = d then g s.plat.decks[i] else s.plat.decks[i] := funext fun i => by
    split
    · next e => rw [← deck_eq, e, h]
    · rfl
  exact congrArg (fun v => { s with plat := { s.plat with decks := Vector.ofFn v } }) hd

theorem modDeck_life (s : State) (d : Nat) (f : Deck → Deck) : (s.modDeck d f).plat.life = s.plat.life := rfl

theorem modDeck_withPlat (s : State) (d : Nat) (f : Deck → Deck) (p : Plat) : { s.modDeck d f with plat := p } = { s with plat := p } := rfl

/-! ### Entries written -/

theorem putEnts_frame (es : List (Nat × BindEnt)) : ∀ s : State, ∃ b c, s.putEnts es = { s with binding := b, clusters := c } := by
  induction es with
  | nil => exact fun s => ⟨_, _, rfl⟩
  | cons e es ih =>
    intro s
    obtain ⟨b, c, h⟩ := ih (({ s with binding := s.binding.set e.1 e.2 } : State).modCluster (clusterOf e.1) (fun c => { c with width := 2 ^ e.2.wcode.toNat }))
    exact ⟨b, c, h⟩

theorem putEnts_mem (es : List (Nat × BindEnt)) : (s.putEnts es).mem = s.mem := by
  obtain ⟨b, c, h⟩ := putEnts_frame es s
  rw [h]

theorem putEnts_strands (es : List (Nat × BindEnt)) : (s.putEnts es).strands = s.strands := by
  obtain ⟨b, c, h⟩ := putEnts_frame es s
  rw [h]

theorem putEnts_plat (es : List (Nat × BindEnt)) : (s.putEnts es).plat = s.plat := by
  obtain ⟨b, c, h⟩ := putEnts_frame es s
  rw [h]

theorem deck_putEnts (es : List (Nat × BindEnt)) (d : Nat) : (s.putEnts es).deck d = s.deck d := by
  unfold deck
  rw [putEnts_plat]

theorem bindEnt_of_binding (h : t.binding = s.binding) (n : Nat) : t.bindEnt n = s.bindEnt n := by
  unfold bindEnt
  rw [h]

theorem bindEnt_set (s : State) (m n : Nat) (b : BindEnt) :
    ({ s with binding := s.binding.set m b } : State).bindEnt n = if n = m then b else s.bindEnt n :=
  Map.getD_set ..

/-- What writing entries, each the one value of its position, leaves at a position. -/
theorem bindEnt_putEnts {v : Nat → BindEnt} {es : List (Nat × BindEnt)} (n : Nat) (hv : ∀ e ∈ es, e.2 = v e.1) :
    ∀ s : State, (s.putEnts es).bindEnt n = if n ∈ es.map (·.1) then v n else s.bindEnt n := by
  induction es with
  | nil => exact fun s => rfl
  | cons e es ih =>
    intro s
    refine (ih (fun e he => hv e (List.mem_cons_of_mem _ he)) _).trans ?_
    rw [List.map_cons]
    by_cases h1 : n ∈ es.map (·.1)
    · rw [if_pos h1, if_pos (List.mem_cons_of_mem _ h1)]
    · rw [if_neg h1]
      refine (bindEnt_set s e.1 n e.2).trans ?_
      by_cases h2 : n = e.1
      · rw [if_pos h2, if_pos (h2 ▸ List.mem_cons_self), h2]
        exact hv e List.mem_cons_self
      · rw [if_neg h2, if_neg (by simp only [List.mem_cons, h2, h1, or_self, not_false_eq_true])]

/-- A written cluster takes the width of its entries' code. -/
theorem cluster_putEnts {cl w : Nat} {es : List (Nat × BindEnt)} (hes : ∀ e ∈ es, clusterOf e.1 = cl ∧ 2 ^ e.2.wcode.toNat = w) :
    ∀ s : State, (s.putEnts es).cluster cl = if es = [] then s.cluster cl else { s.cluster cl with width := w } := by
  induction es with
  | nil => exact fun s => rfl
  | cons e es ih =>
    intro s
    obtain ⟨hc, hw⟩ := hes e List.mem_cons_self
    refine (ih (fun e he => hes e (List.mem_cons_of_mem _ he)) _).trans ?_
    rw [cluster_modCluster, if_pos hc.symm, hw, if_neg (List.cons_ne_nil _ _), hc]
    split <;> rfl

theorem mem_changed {adv : Nat} {es : List (Nat × BindEnt)} {n : Nat} {b : BindEnt} :
    (n, b) ∈ s.changed adv es ↔
      ∃ c, (n, c) ∈ es ∧ { c with bgen := (s.bindEnt n).bgen } ≠ s.bindEnt n ∧ b = { c with bgen := (s.bindEnt n).bgen + BitVec.ofNat 8 adv } := by
  simp only [changed, List.mem_map, List.mem_filter, Bool.not_eq_true', decide_eq_false_iff_not]
  constructor
  · rintro ⟨⟨m, c⟩, ⟨hm, hne⟩, he⟩
    cases he
    exact ⟨c, hm, hne, rfl⟩
  · rintro ⟨c, hm, hne, rfl⟩
    exact ⟨(n, c), ⟨hm, hne⟩, rfl⟩

end State
end Sys2Proof.Machine
end

section
/-! Health and power gating: what a wake test, a part's failure and a power gate do (spec 13 R356; 16 R453; 17 R474). -/

namespace Sys2Proof.Machine.State

variable {s t : State} {d : Nat}

/-! ### Wake tests (R30, R356, R474) -/

/-- The deck after a test of a half has left the owed ones. -/
def tested (k : Deck) (x : Fin 72) : Deck := { k with tests := k.tests.erase (.half x), gated := k.gated.filter (fun n => n != x.val) }

theorem endTest_pass {x : Fin 72} (ht : (s.deck d).tests.contains (.half x) = true) (hf : s.plat.bringup.fail = false) :
    s.endTest d (.half x) true = s.modDeck d (fun _ => tested (s.deck d) x) := by
  simp only [endTest, ht, hf, Bool.not_true, Bool.or_false, Bool.false_eq_true, ↓reduceIte]
  exact modDeck_congr rfl

theorem endTest_fail {x : Fin 72} (ht : (s.deck d).tests.contains (.half x) = true) (hf : s.plat.bringup.fail = false) :
    s.endTest d (.half x) false = (s.modDeck d (fun _ => tested (s.deck d) x)).retire d (.half x) := by
  simp only [endTest, ht, hf, Bool.not_true, Bool.or_false, Bool.false_eq_true, ↓reduceIte]
  exact congrArg (retire · d (.half x)) (modDeck_congr rfl)

theorem endTest_not_owed {u : HealthUnit} {ok : Bool} (ht : (s.deck d).tests.contains u = false) : s.endTest d u ok = s := by
  simp only [endTest, ht, Bool.not_false, Bool.true_or, ↓reduceIte]

/-! ### Retired parts (R356, R431, R453) -/

/-- The health record that a unit has left. -/
def lessUnit (h : Health) : HealthUnit → Health
  | .half i => { h with halfok := h.halfok &&& ~~~(1#72 <<< i.val) }
  | .fe i => { h with feok := h.feok &&& ~~~(1#32 <<< i.val) }

/-- A unit taken out of its deck's health, and counted. -/
def takeOut (s : State) (d : Nat) (u : HealthUnit) : State :=
  (s.modDeck d (fun k => { k with health := lessUnit (s.deck d).health u })).modLife (countRetired u)

theorem deck_takeOut {u : HealthUnit} (hd : d < 4) : (s.takeOut d u).deck d = { s.deck d with health := lessUnit (s.deck d).health u } := by
  have hl : (s.takeOut d u).deck d = (s.modDeck d (fun k => { k with health := lessUnit (s.deck d).health u })).deck d := deck_of_decks rfl d
  rw [hl, deck_modDeck_self _ hd]

theorem takeOut_life {u : HealthUnit} : (s.takeOut d u).plat.life = countRetired u s.plat.life := rfl

theorem modLife_withPlat (s : State) (f : Lifetime → Lifetime) (p : Plat) : { s.modLife f with plat := p } = { s with plat := p } := rfl

theorem takeOut_withPlat {u : HealthUnit} (p : Plat) : { s.takeOut d u with plat := p } = { s with plat := p } :=
  (modLife_withPlat ..).trans (modDeck_withPlat ..)

theorem retire_eq {u : HealthUnit} (hu : s.unitOk d u = true) :
    s.retire d u = if s.joined d then (s.takeOut d u).modDeck d (fun k => { k with reqs := k.reqs ++ [.repair u] }) else s.takeOut d u := by
  unfold retire
  rw [hu]
  cases u <;> rfl

/-- A retired unit: its deck has lost it and may ask for its repair; it is counted, and nothing else changes. -/
theorem retire_of_ok {u : HealthUnit} (hd : d < 4) (hu : s.unitOk d u = true) :
    ((s.retire d u).deck d).health = lessUnit (s.deck d).health u ∧ ((s.retire d u).deck d).tests = (s.deck d).tests ∧
      (s.retire d u).plat.life = countRetired u s.plat.life ∧ { s.retire d u with plat := s.plat } = s := by
  rw [retire_eq hu]
  cases s.joined d with
  | true =>
    rw [if_pos rfl, deck_modDeck_self _ hd, deck_takeOut hd]
    exact ⟨rfl, rfl, (modDeck_life ..).trans takeOut_life, (modDeck_withPlat ..).trans (takeOut_withPlat _)⟩
  | false =>
    rw [if_neg Bool.false_ne_true, deck_takeOut hd]
    exact ⟨rfl, rfl, takeOut_life, takeOut_withPlat _⟩

theorem joined_retire {u : HealthUnit} (hu : s.unitOk d u = true) : (s.retire d u).joined d = s.joined d := by
  rw [retire_eq hu]
  split <;> rfl

theorem partFails_of_not_ok {u : HealthUnit} (hu : s.unitOk d u = false) : s.partFails d u = s := by
  simp only [partFails, hu, Bool.not_false, ↓reduceIte]

/-- A failed unit that was in health: whatever the binder does next, its deck has lost it and it is counted; a deck that has not joined changes nothing else. -/
theorem partFails_of_ok {u : HealthUnit} (hd : d < 4) (hu : s.unitOk d u = true) :
    ((s.partFails d u).deck d).health = lessUnit (s.deck d).health u ∧ (s.partFails d u).plat.life = countRetired u s.plat.life ∧
      (s.joined d = false → { s.partFails d u with plat := s.plat } = s) := by
  obtain ⟨hh, -, hl, hp⟩ := retire_of_ok hd hu
  have he : s.partFails d u = if s.joined d then (s.retire d u).runBinder d else s.retire d u := by
    simp only [partFails, hu, Bool.not_true, Bool.false_eq_true, ↓reduceIte, joined_retire hu]
  rw [he]
  cases s.joined d with
  | true =>
    obtain ⟨hb, hbl⟩ := HealthIs.runBinder (s := s.retire d u) (d := d) ⟨fun _ => rfl, rfl⟩
    exact ⟨(hb d).trans hh, hbl.trans hl, nofun⟩
  | false => exact ⟨hh, hl, fun _ => hp⟩

/-! ### Power gating (R474) -/

theorem gateHalf_unused {x : Nat} (hj : s.joined d = true) (hk : (s.deck d).job = none) (hx : s.halfUsed d x = false) :
    s.gateHalf d x = s.modDeck d (fun k => { k with gated := k.gated.add x }) := by
  simp only [gateHalf, hj, hk, hx, Bool.not_true, Option.isSome_none, Bool.or_self, Bool.false_eq_true, ↓reduceIte]

theorem gateHalf_held {x : Nat} (h : s.joined d = false ∨ s.halfUsed d x = true ∨ (s.deck d).job.isSome = true) : s.gateHalf d x = s := by
  refine if_pos ?_
  simpa only [Bool.or_eq_true, Bool.not_eq_true', or_assoc] using h

end Sys2Proof.Machine.State
end

section
/-! The first binding of a deck (spec 01 R22 to R26; 17 R473, R474). -/

namespace Sys2Proof.Machine.State

variable {s t : State} {d : Nat}

/-! ### Entries that change (R36, log entry 30) -/

theorem mem_clusterEnts {cl width n : Nat} {halves : Nat → Option (Nat × Nat)} {b : BindEnt} :
    (n, b) ∈ s.clusterEnts cl width halves ↔ clusterOf n = cl ∧ b = makeEnt n width (s.feAlive n) (halves n) := by
  simp only [clusterEnts, List.mem_map, List.mem_range, clusterOf]
  constructor
  · rintro ⟨j, hj, he⟩
    cases he
    exact ⟨by omega, rfl⟩
  · rintro ⟨rfl, rfl⟩
    refine ⟨n % 4, Nat.mod_lt _ (by decide), ?_⟩
    rw [Nat.div_add_mod]

theorem mem_keys {es : List (Nat × BindEnt)} {n : Nat} : n ∈ es.map (·.1) ↔ ∃ b, (n, b) ∈ es := by
  simp only [List.mem_map, Prod.exists, exists_and_right, exists_eq_right]

/-- What writing the changed ones of some entries, each the one value of its position, leaves at a position. -/
theorem bindEnt_putEnts_changed {v : Nat → BindEnt} {adv : Nat} {es : List (Nat × BindEnt)} (hv : ∀ e ∈ es, e.2 = v e.1) (n : Nat) :
    (s.putEnts (s.changed adv es)).bindEnt n =
      if n ∈ es.map (·.1) ∧ { v n with bgen := (s.bindEnt n).bgen } ≠ s.bindEnt n then
        { v n with bgen := (s.bindEnt n).bgen + BitVec.ofNat 8 adv }
      else s.bindEnt n := by
  have hw : ∀ e ∈ s.changed adv es, e.2 = { v e.1 with bgen := (s.bindEnt e.1).bgen + BitVec.ofNat 8 adv } := by
    rintro ⟨m, b⟩ he
    obtain ⟨c, hc, -, rfl⟩ := mem_changed.mp he
    rw [← hv _ hc]
  have hk : n ∈ (s.changed adv es).map (·.1) ↔ n ∈ es.map (·.1) ∧ { v n with bgen := (s.bindEnt n).bgen } ≠ s.bindEnt n := by
    rw [mem_keys, mem_keys]
    constructor
    · rintro ⟨b, hb⟩
      obtain ⟨c, hc, hne, -⟩ := mem_changed.mp hb
      exact ⟨⟨c, hc⟩, hv _ hc ▸ hne⟩
    · rintro ⟨⟨c, hc⟩, hne⟩
      exact ⟨_, mem_changed.mpr ⟨c, hc, (show c = v n from hv _ hc) ▸ hne, rfl⟩⟩
  rw [bindEnt_putEnts (v := fun n => { v n with bgen := (s.bindEnt n).bgen + BitVec.ofNat 8 adv }) n hw s]
  simp only [hk]

/-- At a position of the entries, the entry wanted is there, in some generation. -/
theorem bindEnt_putEnts_wanted {v : Nat → BindEnt} {adv : Nat} {es : List (Nat × BindEnt)} (hv : ∀ e ∈ es, e.2 = v e.1) {n : Nat}
    (hn : n ∈ es.map (·.1)) : ∃ g, (s.putEnts (s.changed adv es)).bindEnt n = { v n with bgen := g } := by
  rw [bindEnt_putEnts_changed hv]
  split
  · exact ⟨_, rfl⟩
  · next h => exact ⟨_, (not_not.mp (fun hne => h ⟨hn, hne⟩)).symm⟩

/-! ### The entries of a deck (R23) -/

/-- The halves that the binder gives a position of a deck. -/
def deckHalves (s : State) (d n : Nat) : Option (Nat × Nat) := ((bindDeck (s.deck d).health).find? (fun b => b.1 == n % 32)).map (·.2)

/-- The entry that the binder gives a position of a deck, but for its generation. -/
def deckEnt (s : State) (d n : Nat) : BindEnt :=
  makeEnt n (if (List.range 4).all (fun j => (s.deckHalves d (4 * (n / 4) + j)).isSome) then (s.cluster (n / 4)).width else 1) (s.feAlive n)
    (s.deckHalves d n)

theorem mem_deckEnts {n : Nat} {b : BindEnt} : (n, b) ∈ s.deckEnts d ↔ n / 32 = d ∧ b = s.deckEnt d n := by
  unfold deckEnts
  dsimp only
  simp only [List.mem_flatMap, List.mem_range, mem_clusterEnts, clusterOf]
  constructor
  · rintro ⟨i, hi, hn, rfl⟩
    refine ⟨by omega, ?_⟩
    rw [← hn]
    rfl
  · rintro ⟨hn, rfl⟩
    refine ⟨n / 4 % 8, Nat.mod_lt _ (by decide), by omega, ?_⟩
    rw [show 8 * d + n / 4 % 8 = n / 4 by omega]
    rfl

theorem mem_keys_deckEnts {n : Nat} : n ∈ (s.deckEnts d).map (·.1) ↔ n / 32 = d := by
  rw [mem_keys]
  exact ⟨fun ⟨_, h⟩ => (mem_deckEnts.mp h).1, fun h => ⟨_, mem_deckEnts.mpr ⟨h, rfl⟩⟩⟩

/-- The one binding of a front end is the one found for it. -/
theorem deckHalves_of_only {b : Nat × Nat × Nat} (hb : b ∈ bindDeck (s.deck d).health) (hb1 : b.1 < 32)
    (h1 : ((bindDeck (s.deck d).health).filter (fun e => e.1 == b.1)).length = 1) : s.deckHalves d (32 * d + b.1) = some b.2 := by
  obtain ⟨c, hc⟩ := List.length_eq_one_iff.mp h1
  have hbc : b = c := List.mem_singleton.mp (hc ▸ List.mem_filter.mpr ⟨hb, beq_self_eq_true _⟩)
  rw [deckHalves, show (32 * d + b.1) % 32 = b.1 by omega, ← List.head?_filter, hc, hbc]
  rfl

theorem deckHalves_of_none {i : Nat} (hi : i < 32) (h : (bindDeck (s.deck d).health).all (fun b => b.1 != i) = true) :
    s.deckHalves d (32 * d + i) = none := by
  rw [deckHalves, show (32 * d + i) % 32 = i by omega, Option.map_eq_none_iff, List.find?_eq_none]
  intro b hb
  simpa using List.all_eq_true.mp h b hb

theorem halves_deckEnt {n lo hi : Nat} (h : s.deckHalves d n = some (lo, hi)) (hlo : lo < 72) (hhi : hi < 72) (g : BitVec 8) :
    ({ s.deckEnt d n with bgen := g } : BindEnt).halves = some (lo, hi) := by
  rw [deckEnt, h]
  exact makeEnt_halves (by omega) (by omega) g

theorem role_deckEnt {n : Nat} (h : s.deckHalves d n = none) : (s.deckEnt d n).role = if s.feAlive n then 2 else 3 := by
  rw [deckEnt, h]
  rfl

/-! ### The deck joins (R473, R474) -/

theorem boundHalves_of_binding (h : t.binding = s.binding) : t.boundHalves d = s.boundHalves d := by
  simp only [boundHalves, halvesOf, bindEnt_of_binding h]

/-- Gating leaves every bound half as it is and gates the others. -/
theorem gated_gateUnbound {h : Nat} (hd : d < 4) (hh : h < 72) :
    ((s.gateUnbound d).deck d).gated.mem h = ((s.deck d).gated.mem h || !(s.boundHalves d).contains h) := by
  unfold gateUnbound
  rw [deck_modDeck_self _ hd]
  dsimp only
  rw [NSet.mem_foldl_add]
  congr 1
  rw [Bool.eq_iff_iff]
  simp [hh]

/-- The bring-up binding taken from a deck's requests. -/
def takeBringup (s : State) (d : Nat) : State := s.modDeck d (fun k => { k with reqs := k.reqs.filter (fun r => r != .bringup) })

/-- A deck's entries written at bring-up. -/
def bound (s : State) (d : Nat) : State := (s.takeBringup d).putEnts ((s.takeBringup d).changed 1 ((s.takeBringup d).deckEnts d))

/-- The deck counts as joined. -/
def join (s : State) (d : Nat) : State :=
  { s with plat := { s.plat with bringup := { s.plat.bringup with decks := s.plat.bringup.decks ||| (1#4 <<< d) } } }

theorem deck_join (j : Nat) : (s.join d).deck j = s.deck j := deck_of_decks (t := s.join d) rfl j

theorem runBinder_bringup (hf : s.plat.bringup.fail = false) (hj : (s.deck d).job = none) (hr : (s.deck d).reqs = [.bringup])
    (ht : (s.deck d).tests = []) : s.runBinder d = ((s.bound d).gateUnbound d).join d := by
  have hc : (s.deck d).reqs.contains .bringup = true := by
    rw [hr]
    rfl
  simp only [runBinder, hf, hj, hc, ht, Option.isSome_none, List.isEmpty_nil, Bool.false_eq_true, ↓reduceIte]
  rfl

theorem runBinder_bringup_waits (hf : s.plat.bringup.fail = false) (hj : (s.deck d).job = none) (hr : (s.deck d).reqs = [.bringup])
    (ht : (s.deck d).tests ≠ []) : s.runBinder d = s := by
  have hc : (s.deck d).reqs.contains .bringup = true := by
    rw [hr]
    rfl
  have he : (s.deck d).tests.isEmpty = false := Bool.eq_false_iff.mpr (fun h => ht (List.isEmpty_iff.mp h))
  simp only [runBinder, hf, hj, hc, he, Option.isSome_none, Bool.false_eq_true, ↓reduceIte]

theorem deck_takeBringup (hd : d < 4) (hr : (s.deck d).reqs = [.bringup]) : (s.takeBringup d).deck d = { s.deck d with reqs := [] } := by
  rw [takeBringup, deck_modDeck_self _ hd, hr]
  rfl

theorem plat_bound : (s.bound d).plat = (s.takeBringup d).plat := putEnts_plat _

theorem deck_bound (hd : d < 4) (hr : (s.deck d).reqs = [.bringup]) : (s.bound d).deck d = { s.deck d with reqs := [] } := by
  rw [bound, deck_putEnts, deck_takeBringup hd hr]

/-- A position of the deck holds the entry that the binder gives it, in some generation. -/
theorem bindEnt_bound_of_eq {n : Nat} (hn : n / 32 = d) : ∃ g, (s.bound d).bindEnt n = { (s.takeBringup d).deckEnt d n with bgen := g } :=
  bindEnt_putEnts_wanted (fun _ he => (mem_deckEnts.mp he).2) (mem_keys_deckEnts.mpr hn)

theorem bindEnt_bound_of_ne {n : Nat} (hn : n / 32 ≠ d) : (s.bound d).bindEnt n = s.bindEnt n :=
  (bindEnt_putEnts_changed (fun _ he => (mem_deckEnts.mp he).2) n).trans (if_neg (fun h => hn (mem_keys_deckEnts.mp h.1)))

/-- The state after the bring-up binding. -/
def firstBound (s : State) (d : Nat) : State := ((s.bound d).gateUnbound d).join d

theorem join_binding : (s.join d).binding = s.binding := rfl

theorem gateUnbound_binding : (s.gateUnbound d).binding = s.binding := rfl

theorem binding_firstBound : (s.firstBound d).binding = (s.bound d).binding := by rw [firstBound, join_binding, gateUnbound_binding]

theorem bindEnt_firstBound (n : Nat) : (s.firstBound d).bindEnt n = (s.bound d).bindEnt n := bindEnt_of_binding binding_firstBound n

theorem bringup_firstBound : (s.firstBound d).plat.bringup.decks = s.plat.bringup.decks ||| (1#4 <<< d) := by
  have h : (s.firstBound d).plat.bringup.decks = (s.bound d).plat.bringup.decks ||| (1#4 <<< d) := rfl
  rw [h, plat_bound]
  rfl

theorem deck_firstBound : (s.firstBound d).deck d = ((s.bound d).gateUnbound d).deck d := by
  rw [firstBound, deck_join]

theorem reqs_firstBound (hd : d < 4) (hr : (s.deck d).reqs = [.bringup]) :
    ((s.firstBound d).deck d).reqs = [] ∧ ((s.firstBound d).deck d).health = (s.deck d).health := by
  rw [deck_firstBound, gateUnbound, deck_modDeck_self _ hd, deck_bound hd hr]
  exact ⟨rfl, rfl⟩

theorem gated_firstBound {h : Nat} (hd : d < 4) (hr : (s.deck d).reqs = [.bringup]) (hh : h < 72) :
    ((s.firstBound d).deck d).gated.mem h = ((s.deck d).gated.mem h || !((s.firstBound d).boundHalves d).contains h) := by
  rw [deck_firstBound, gated_gateUnbound hd hh, deck_bound hd hr, boundHalves_of_binding binding_firstBound]

/-- A front end with one binding of valid halves has them. -/
theorem halvesOf_firstBound (hd : d < 4) (hr : (s.deck d).reqs = [.bringup]) {b : Nat × Nat × Nat} (hb : b ∈ bindDeck (s.deck d).health)
    (hb1 : b.1 < 32) (h1 : ((bindDeck (s.deck d).health).filter (fun e => e.1 == b.1)).length = 1) (hlo : b.2.1 < 72) (hhi : b.2.2 < 72) :
    (s.firstBound d).halvesOf (32 * d + b.1) = some b.2 := by
  obtain ⟨g, hg⟩ := bindEnt_bound_of_eq (s := s) (d := d) (n := 32 * d + b.1) (by omega)
  have hh : (s.takeBringup d).deckHalves d (32 * d + b.1) = some b.2 := by
    have hk : ((s.takeBringup d).deck d).health = (s.deck d).health := by rw [deck_takeBringup hd hr]
    rw [← hk] at hb h1
    exact deckHalves_of_only hb hb1 h1
  rw [halvesOf, bindEnt_firstBound, hg]
  exact halves_deckEnt hh hlo hhi g

/-- A front end with no binding is UNBOUND, or dead. -/
theorem role_firstBound (hd : d < 4) (hr : (s.deck d).reqs = [.bringup]) {i : Nat} (hi : i < 32)
    (h : (bindDeck (s.deck d).health).all (fun b => b.1 != i) = true) :
    ((s.firstBound d).bindEnt (32 * d + i)).role = if (s.deck d).health.feOk i then 2 else 3 := by
  obtain ⟨g, hg⟩ := bindEnt_bound_of_eq (s := s) (d := d) (n := 32 * d + i) (by omega)
  have hk : ((s.takeBringup d).deck d).health = (s.deck d).health := by rw [deck_takeBringup hd hr]
  rw [← hk] at h ⊢
  have hr := role_deckEnt (deckHalves_of_none hi h)
  rw [feAlive, show (32 * d + i) / 32 = d by omega, show (32 * d + i) % 32 = i by omega] at hr
  rw [bindEnt_firstBound, hg]
  exact hr

end Sys2Proof.Machine.State
end

section
/-! The two steps of a rebind (spec 01 R26, R29, R34, R36; 13 R357). -/

namespace Sys2Proof.Machine.State

variable {s t : State} {cl w : Nat}

/-! ### What the entries of a cluster depend on -/

theorem feAlive_congr (h : ∀ d, (t.deck d).health = (s.deck d).health) (n : Nat) : t.feAlive n = s.feAlive n := by rw [feAlive, h, feAlive]

theorem aliveHalves_congr (hb : t.binding = s.binding) (h : ∀ d, (t.deck d).health = (s.deck d).health) (n : Nat) :
    t.aliveHalves n = s.aliveHalves n := by
  rw [aliveHalves, feAlive_congr h, halvesOf, bindEnt_of_binding hb]
  rfl

theorem widthFor_congr (hb : t.binding = s.binding) (h : ∀ d, (t.deck d).health = (s.deck d).health) : t.widthFor cl w = s.widthFor cl w := by
  have hp : t.partialCluster cl = s.partialCluster cl := by simp only [partialCluster, unfilled, aliveHalves_congr hb h]
  rw [widthFor, hp, widthFor]

/-! ### The entries a rebind writes -/

/-- The entry that a rebind gives a position, but for its generation. -/
def rebound (s : State) (cl w n : Nat) : BindEnt := makeEnt n (s.widthFor cl w) (s.feAlive n) (s.aliveHalves n)

/-- Whether a rebind changes a position's entry. -/
def Moves (s : State) (cl w n : Nat) : Prop := clusterOf n = cl ∧ { s.rebound cl w n with bgen := (s.bindEnt n).bgen } ≠ s.bindEnt n

/-- A changed entry as a rebind leaves it: two generations on. -/
def moved (s : State) (cl w n : Nat) : BindEnt := { s.rebound cl w n with bgen := (s.bindEnt n).bgen + 2 }

/-- The final entries that the binder keeps. -/
def rebindEnts (s : State) (cl w : Nat) : List (Nat × BindEnt) := s.changed 2 (s.clusterEnts cl (s.widthFor cl w) s.aliveHalves)

theorem rebindEnts_congr (hb : t.binding = s.binding) (h : ∀ d, (t.deck d).health = (s.deck d).health) :
    t.rebindEnts cl w = s.rebindEnts cl w := by
  simp only [rebindEnts, changed, clusterEnts, bindEnt_of_binding hb, feAlive_congr h, aliveHalves_congr hb h, widthFor_congr hb h]

theorem mem_rebindEnts {n : Nat} {b : BindEnt} : (n, b) ∈ s.rebindEnts cl w ↔ s.Moves cl w n ∧ b = s.moved cl w n := by
  rw [rebindEnts, mem_changed]
  constructor
  · rintro ⟨c, hc, hne, rfl⟩
    obtain ⟨hn, rfl⟩ := mem_clusterEnts.mp hc
    exact ⟨⟨hn, hne⟩, rfl⟩
  · rintro ⟨⟨hn, hne⟩, rfl⟩
    exact ⟨_, mem_clusterEnts.mpr ⟨hn, rfl⟩, hne, rfl⟩

theorem unfilled_eq (n : Nat) : s.unfilled n = ((s.halvesOf n).isNone || !s.feAlive n) := by
  unfold unfilled aliveHalves
  cases s.feAlive n <;> simp

theorem widthFor_le (hw : w = 1 ∨ w = 2 ∨ w = 4) : s.widthFor cl w = 1 ∨ s.widthFor cl w = 2 ∨ s.widthFor cl w = 4 := by
  unfold widthFor
  split
  · exact .inl rfl
  · exact hw

theorem pow_wcodeOf {g : Nat} (hg : g = 1 ∨ g = 2 ∨ g = 4) : 2 ^ (BitVec.ofNat 2 (wcodeOf g)).toNat = g := by
  obtain rfl | rfl | rfl := hg <;> rfl

theorem wcode_rebound (n : Nat) : (s.rebound cl w n).wcode = BitVec.ofNat 2 (wcodeOf (s.widthFor cl w)) := by
  unfold rebound makeEnt
  split <;> rfl

theorem halves_rebound (n : Nat) (g : BitVec 8) : ({ s.rebound cl w n with bgen := g } : BindEnt).halves = s.aliveHalves n := by
  refine halves_makeEnt (e := s.bindEnt n) ?_ g
  unfold aliveHalves
  split
  · exact .inr rfl
  · exact .inl rfl

/-! ### The first step -/

/-- The request taken from the binder, the cluster's halves awake. -/
def takeRebind (s : State) (cl : Nat) : State :=
  s.modDeck (cl / 8) (fun k => { k with reqs := k.reqs.erase (.rebind cl), gated := k.gated.filter (fun h => !(s.clusterHalves cl).contains h) })

/-- The entries of the first step, each UNBOUND. -/
def midEnts (s : State) (cl w : Nat) : List (Nat × BindEnt) := (s.rebindEnts cl w).map (fun e => (e.1, s.midEnt e.1))

/-- What the binder keeps of the rebind. -/
def rebindJob (s : State) (cl w : Nat) : BindJob := ⟨s.rebindEnts cl w, some cl, [], 0⟩

/-- The state after the first step. -/
def begun (s : State) (cl w : Nat) : State :=
  ((s.takeRebind cl).putEnts (s.midEnts cl w)).modDeck (cl / 8) (fun k => { k with job := some (s.rebindJob cl w) })

theorem health_modDeck {d j : Nat} {f : Deck → Deck} (hf : ∀ k, (f k).health = k.health) : ((s.modDeck d f).deck j).health = (s.deck j).health := by
  rw [deck_modDeck]
  split
  · exact hf _
  · rfl

theorem health_takeRebind (j : Nat) : ((s.takeRebind cl).deck j).health = (s.deck j).health := health_modDeck (fun _ => rfl)

/-- A rebind that its binder may take begins. -/
theorem rebindCluster_begins (hm : (s.cluster cl).mark = some w) (hb : s.clusterBusy cl = false)
    (hr : (s.deck (cl / 8)).reqs = [.rebind cl]) (hj : (s.deck (cl / 8)).job = none) : s.rebindCluster cl none = s.begun cl w := by
  have hn : s.rebindNext cl = true := by
    simp only [rebindNext, hr, hj]
    simp [nextRepair]
  have hes : (s.takeRebind cl).rebindEnts cl w = s.rebindEnts cl w := rebindEnts_congr rfl health_takeRebind
  have hmid : (s.takeRebind cl).midEnt = s.midEnt := funext fun n => by
    simp only [midEnt, bindEnt_of_binding (t := s.takeRebind cl) (s := s) rfl]
  have hbegin : s.rebindCluster cl none = (s.takeRebind cl).beginJob (cl / 8)
      ((s.takeRebind cl).clusterEnts cl ((s.takeRebind cl).widthFor cl w) (s.takeRebind cl).aliveHalves) (some cl) [] 0 := by
    simp only [rebindCluster, hm, hj, hb, hn, Option.bind_none, reduceCtorEq, Bool.not_true, Bool.or_self, Bool.false_eq_true, ↓reduceIte]
    rfl
  rw [hbegin]
  unfold beginJob
  dsimp only
  rw [show (s.takeRebind cl).changed 2 _ = s.rebindEnts cl w from hes, hmid]
  rfl

theorem deck_begun (hd : cl / 8 < 4) :
    (s.begun cl w).deck (cl / 8) = { (s.takeRebind cl).deck (cl / 8) with job := some (s.rebindJob cl w) } := by
  rw [begun, deck_modDeck_self _ hd, deck_putEnts]

theorem reqs_begun (hd : cl / 8 < 4) (hr : (s.deck (cl / 8)).reqs = [.rebind cl]) : ((s.begun cl w).deck (cl / 8)).reqs = [] := by
  rw [deck_begun hd, takeRebind, deck_modDeck_self _ hd, hr]
  simp

theorem health_begun (j : Nat) : ((s.begun cl w).deck j).health = (s.deck j).health := by
  have hk : ∀ k : Deck, ({ k with job := some (s.rebindJob cl w) } : Deck).health = k.health := fun _ => rfl
  rw [begun, health_modDeck hk, deck_putEnts, health_takeRebind]

theorem mem_midEnts {n : Nat} {b : BindEnt} : (n, b) ∈ s.midEnts cl w ↔ s.Moves cl w n ∧ b = s.midEnt n := by
  simp only [midEnts, List.mem_map, Prod.exists, mem_rebindEnts]
  constructor
  · rintro ⟨m, c, ⟨hm, -⟩, he⟩
    cases he
    exact ⟨hm, rfl⟩
  · rintro ⟨hm, rfl⟩
    exact ⟨n, _, ⟨hm, rfl⟩, rfl⟩

/-- The first step leaves a changed entry UNBOUND, one generation on, and the others as they are. -/
theorem bindEnt_begun (n : Nat) [Decidable (s.Moves cl w n)] : (s.begun cl w).bindEnt n = if s.Moves cl w n then s.midEnt n else s.bindEnt n := by
  have h := bindEnt_putEnts (v := s.midEnt) (es := s.midEnts cl w) n (fun _ he => (mem_midEnts.mp he).2) (s.takeRebind cl)
  have hb : (s.begun cl w).binding = ((s.takeRebind cl).putEnts (s.midEnts cl w)).binding := by rw [begun, modDeck_binding]
  rw [bindEnt_of_binding hb, h, bindEnt_of_binding (t := s.takeRebind cl) (s := s) rfl]
  simp only [mem_keys, mem_midEnts, exists_and_left, exists_eq, and_true]

/-- The first step keeps the cluster's width. -/
theorem cluster_begun (hc : ∀ j, j < 4 → 2 ^ (s.bindEnt (4 * cl + j)).wcode.toNat = (s.cluster cl).width) :
    (s.begun cl w).cluster cl = s.cluster cl := by
  have hes : ∀ e ∈ s.midEnts cl w, clusterOf e.1 = cl ∧ 2 ^ e.2.wcode.toNat = (s.cluster cl).width := by
    rintro ⟨n, b⟩ he
    obtain ⟨⟨hn, -⟩, rfl⟩ := mem_midEnts.mp he
    refine ⟨hn, ?_⟩
    have h := hc (n % 4) (Nat.mod_lt _ (by decide))
    rwa [show 4 * cl + n % 4 = n by unfold clusterOf at hn; omega] at h
  refine (cluster_putEnts hes (s.takeRebind cl)).trans ?_
  split <;> rfl

/-! ### What the second step writes (R22, R26, R36) -/

/-- The final entry that the binder keeps for a position. -/
def keptEnt (j : BindJob) (n : Nat) : Option BindEnt := (j.ents.find? (fun e => e.1 == n)).map (·.2)

/-- The halves that a position of a begun rebind or repair is to have. -/
def dueHalves (s : State) (j : BindJob) (n : Nat) : Option (Nat × Nat) :=
  if s.feAlive n then (match keptEnt j n with | some e => e.halves | none => s.halvesOf n) else none

/-- The width that a cluster of a begun rebind or repair is to have. -/
def dueWidth (s : State) (j : BindJob) (cl : Nat) : Nat :=
  if ((List.range 4).map (4 * cl + ·)).all (fun n => (s.dueHalves j n).isSome) then
    2 ^ ((((((List.range 4).map (4 * cl + ·)).filterMap (keptEnt j)).head?).map (fun e => e.wcode.toNat)).getD 0)
  else 1

/-- The entry that a position is to have, but for its generation. -/
def dueEnt (s : State) (j : BindJob) (n : Nat) : BindEnt := makeEnt n (s.dueWidth j (clusterOf n)) (s.feAlive n) (s.dueHalves j n)

theorem finalEnts_eq (j : BindJob) : s.finalEnts j = ((j.ents.map (fun e => clusterOf e.1)).eraseDups).flatMap (fun cl =>
    (s.clusterEnts cl (s.dueWidth j cl) (s.dueHalves j)).filterMap (fun e => (keptEnt j e.1).map (fun k => (e.1, { e.2 with bgen := k.bgen }))) ++
    s.changed 2 ((s.clusterEnts cl (s.dueWidth j cl) (s.dueHalves j)).filter (fun e => (keptEnt j e.1).isNone))) := rfl

/-- A final entry is one that the binder keeps, or one beside it that changes. -/
theorem mem_finalEnts {j : BindJob} {n : Nat} {b : BindEnt} : (n, b) ∈ s.finalEnts j ↔ (∃ e ∈ j.ents, clusterOf e.1 = clusterOf n) ∧
    ((∃ k, keptEnt j n = some k ∧ b = { s.dueEnt j n with bgen := k.bgen }) ∨
      (keptEnt j n = none ∧ { s.dueEnt j n with bgen := (s.bindEnt n).bgen } ≠ s.bindEnt n ∧
        b = { s.dueEnt j n with bgen := (s.bindEnt n).bgen + 2 })) := by
  rw [finalEnts_eq, List.mem_flatMap]
  constructor
  · rintro ⟨c, hc, h⟩
    obtain ⟨e, he, hec⟩ := List.mem_map.mp (List.mem_eraseDups.mp hc)
    obtain h | h := List.mem_append.mp h
    · obtain ⟨⟨m, x⟩, hx, hk⟩ := List.mem_filterMap.mp h
      obtain ⟨k, hkept, hb⟩ := Option.map_eq_some_iff.mp hk
      cases hb
      obtain ⟨rfl, rfl⟩ := mem_clusterEnts.mp hx
      exact ⟨⟨e, he, hec⟩, .inl ⟨k, hkept, rfl⟩⟩
    · obtain ⟨x, hx, hne, rfl⟩ := mem_changed.mp h
      obtain ⟨hx, hk⟩ := List.mem_filter.mp hx
      obtain ⟨rfl, rfl⟩ := mem_clusterEnts.mp hx
      exact ⟨⟨e, he, hec⟩, .inr ⟨Option.isNone_iff_eq_none.mp hk, hne, rfl⟩⟩
  · rintro ⟨⟨e, he, hec⟩, h⟩
    refine ⟨clusterOf n, List.mem_eraseDups.mpr (List.mem_map.mpr ⟨e, he, hec⟩), List.mem_append.mpr ?_⟩
    have hn : (n, s.dueEnt j n) ∈ s.clusterEnts (clusterOf n) (s.dueWidth j (clusterOf n)) (s.dueHalves j) := mem_clusterEnts.mpr ⟨rfl, rfl⟩
    obtain ⟨k, hk, rfl⟩ | ⟨hk, hne, rfl⟩ := h
    · exact .inl (List.mem_filterMap.mpr ⟨_, hn, Option.map_eq_some_iff.mpr ⟨k, hk, rfl⟩⟩)
    · exact .inr (mem_changed.mpr ⟨_, List.mem_filter.mpr ⟨hn, Option.isNone_iff_eq_none.mpr hk⟩, hne, rfl⟩)

/-! ### The second step of a rebind -/

theorem keptEnt_of_moves {n : Nat} (h : s.Moves cl w n) : keptEnt (s.rebindJob cl w) n = some (s.moved cl w n) := by
  obtain ⟨e, he⟩ := Option.isSome_iff_exists.mp (List.find?_isSome (p := fun e : Nat × BindEnt => e.1 == n).mpr ⟨_, mem_rebindEnts.mpr ⟨h, rfl⟩, beq_self_eq_true n⟩)
  have hp := List.find?_some (p := fun e : Nat × BindEnt => e.1 == n) he
  have hn : e.1 = n := beq_iff_eq.mp hp
  have hm : e.2 = s.moved cl w e.1 := (mem_rebindEnts.mp (List.mem_of_find?_eq_some he)).2
  rw [keptEnt, rebindJob, he, Option.map_some, hm, hn]

theorem keptEnt_of_not_moves {n : Nat} (h : ¬ s.Moves cl w n) : keptEnt (s.rebindJob cl w) n = none := by
  refine Option.map_eq_none_iff.mpr (List.find?_eq_none.mpr ?_)
  rintro ⟨m, b⟩ hm he
  exact h (beq_iff_eq.mp he ▸ (mem_rebindEnts.mp hm).1)

/-- An entry that a rebind leaves has what the rebind gives it. -/
theorem bindEnt_of_not_moves {n : Nat} (hn : clusterOf n = cl) (h : ¬ s.Moves cl w n) :
    { s.rebound cl w n with bgen := (s.bindEnt n).bgen } = s.bindEnt n :=
  not_not.mp (fun hne => h ⟨hn, hne⟩)

theorem dueHalves_begun {n : Nat} : (s.begun cl w).dueHalves (s.rebindJob cl w) n = s.aliveHalves n := by
  classical
  rw [dueHalves, feAlive_congr health_begun]
  by_cases h : s.Moves cl w n
  · rw [keptEnt_of_moves h]
    unfold aliveHalves
    split
    · next ha => exact (halves_rebound n _).trans (if_pos ha)
    · rfl
  · rw [keptEnt_of_not_moves h, halvesOf, bindEnt_begun, if_neg h]
    rfl

theorem dueWidth_begun (hw : w = 1 ∨ w = 2 ∨ w = 4) {n : Nat} (h : s.Moves cl w n) :
    (s.begun cl w).dueWidth (s.rebindJob cl w) cl = s.widthFor cl w := by
  have hall : ((List.range 4).map (4 * cl + ·)).all (fun n => (s.aliveHalves n).isSome) = !s.partialCluster cl := by
    simp only [partialCluster, unfilled, List.all_map, Function.comp_def, List.not_any_eq_all_not, Option.not_isNone]
  have hkept : ∀ e ∈ ((List.range 4).map (4 * cl + ·)).filterMap (keptEnt (s.rebindJob cl w)),
      e.wcode = BitVec.ofNat 2 (wcodeOf (s.widthFor cl w)) := by
    intro e he
    obtain ⟨m, -, hm⟩ := List.mem_filterMap.mp he
    by_cases hmv : s.Moves cl w m
    · rw [keptEnt_of_moves hmv] at hm
      cases hm
      exact wcode_rebound m
    · rw [keptEnt_of_not_moves hmv] at hm
      cases hm
  have hn : s.moved cl w n ∈ ((List.range 4).map (4 * cl + ·)).filterMap (keptEnt (s.rebindJob cl w)) := by
    refine List.mem_filterMap.mpr ⟨n, List.mem_map.mpr ⟨n % 4, List.mem_range.mpr (Nat.mod_lt _ (by decide)), ?_⟩, keptEnt_of_moves h⟩
    have hcl := h.1
    unfold clusterOf at hcl
    omega
  obtain ⟨e, he⟩ : ∃ e, (((List.range 4).map (4 * cl + ·)).filterMap (keptEnt (s.rebindJob cl w))).head? = some e :=
    Option.isSome_iff_exists.mp (List.isSome_head?.mpr (List.ne_nil_of_mem hn))
  have hcode : 2 ^ e.wcode.toNat = s.widthFor cl w := by
    rw [hkept e (List.mem_of_mem_head? he)]
    exact pow_wcodeOf (widthFor_le hw)
  simp only [dueWidth, dueHalves_begun, hall, he, Option.map_some, Option.getD_some, hcode]
  cases hp : s.partialCluster cl with
  | true => exact (if_pos hp).symm
  | false => rfl

theorem dueEnt_begun (hw : w = 1 ∨ w = 2 ∨ w = 4) {m n : Nat} (h : s.Moves cl w m) (hn : clusterOf n = cl) :
    (s.begun cl w).dueEnt (s.rebindJob cl w) n = s.rebound cl w n := by
  rw [dueEnt, hn, dueWidth_begun hw h, feAlive_congr health_begun, dueHalves_begun, rebound]

/-- The second step writes the entries that the first has left UNBOUND, each as the rebind gives it. -/
theorem mem_finalEnts_begun (hw : w = 1 ∨ w = 2 ∨ w = 4) {n : Nat} {b : BindEnt} :
    (n, b) ∈ (s.begun cl w).finalEnts (s.rebindJob cl w) ↔ s.Moves cl w n ∧ b = s.moved cl w n := by
  classical
  rw [mem_finalEnts]
  constructor
  · rintro ⟨⟨⟨m, c⟩, hm, hmn⟩, h⟩
    obtain ⟨hmv, -⟩ := mem_rebindEnts.mp hm
    have hn : clusterOf n = cl := hmn.symm.trans hmv.1
    rw [dueEnt_begun hw hmv hn] at h
    by_cases hnv : s.Moves cl w n
    · rw [keptEnt_of_moves hnv] at h
      obtain ⟨k, hk, rfl⟩ | ⟨hk, -⟩ := h
      · cases hk
        exact ⟨hnv, rfl⟩
      · cases hk
    · rw [keptEnt_of_not_moves hnv, bindEnt_begun, if_neg hnv] at h
      obtain ⟨k, hk, -⟩ | ⟨-, hne, -⟩ := h
      · cases hk
      · exact absurd (bindEnt_of_not_moves hn hnv) hne
  · rintro ⟨hn, rfl⟩
    refine ⟨⟨_, mem_rebindEnts.mpr ⟨hn, rfl⟩, rfl⟩, .inl ⟨_, keptEnt_of_moves hn, ?_⟩⟩
    rw [dueEnt_begun hw hn hn.1]
    rfl

/-- The state after both steps. -/
def rebindDone (s : State) (cl w : Nat) : State :=
  (((s.begun cl w).putEnts ((s.begun cl w).finalEnts (s.rebindJob cl w))).modDeck (cl / 8) (fun k => { k with job := none })).modCluster cl
    (fun c => { c with mark := none })

/-- A begun rebind ends. -/
theorem rebindCluster_ends (hd : cl / 8 < 4) (hm : ((s.begun cl w).cluster cl).mark = some w) :
    (s.begun cl w).rebindCluster cl none = s.rebindDone cl w := by
  have hj : ((s.begun cl w).deck (cl / 8)).job = some (s.rebindJob cl w) := by rw [deck_begun hd]
  have he : (s.begun cl w).rebindCluster cl none = (s.begun cl w).endJob (cl / 8) := by
    simp only [rebindCluster, hm, hj]
    exact if_pos rfl
  rw [he, endJob, hj]
  rfl

theorem bindEnt_rebindDone (hw : w = 1 ∨ w = 2 ∨ w = 4) (n : Nat) [Decidable (s.Moves cl w n)] :
    (s.rebindDone cl w).bindEnt n = if s.Moves cl w n then s.moved cl w n else s.bindEnt n := by
  have h := bindEnt_putEnts (v := s.moved cl w) (es := (s.begun cl w).finalEnts (s.rebindJob cl w)) n
    (fun _ he => ((mem_finalEnts_begun hw).mp he).2) (s.begun cl w)
  simp only [mem_keys, mem_finalEnts_begun hw, exists_and_left, exists_eq, and_true, bindEnt_begun] at h
  have hb : (s.rebindDone cl w).binding = ((s.begun cl w).putEnts ((s.begun cl w).finalEnts (s.rebindJob cl w))).binding := by
    rw [rebindDone, modCluster_binding, modDeck_binding]
  rw [bindEnt_of_binding hb, h]
  split <;> rfl

/-- Both steps give the cluster its width and take its mark. -/
theorem cluster_rebindDone (hw : w = 1 ∨ w = 2 ∨ w = 4) (hc : ∀ j, j < 4 → 2 ^ (s.bindEnt (4 * cl + j)).wcode.toNat = (s.cluster cl).width) :
    (s.rebindDone cl w).cluster cl = { s.cluster cl with width := s.widthFor cl w, mark := none } := by
  classical
  have hes : ∀ e ∈ (s.begun cl w).finalEnts (s.rebindJob cl w), clusterOf e.1 = cl ∧ 2 ^ e.2.wcode.toNat = s.widthFor cl w := by
    rintro ⟨n, b⟩ he
    obtain ⟨hn, rfl⟩ := (mem_finalEnts_begun hw).mp he
    refine ⟨hn.1, ?_⟩
    rw [show (s.moved cl w n).wcode = (s.rebound cl w n).wcode from rfl, wcode_rebound]
    exact pow_wcodeOf (widthFor_le hw)
  have hput := cluster_putEnts hes (s.begun cl w)
  rw [cluster_begun hc] at hput
  rw [rebindDone, cluster_modCluster, if_pos rfl, show ∀ (u : State) d f, (u.modDeck d f).cluster cl = u.cluster cl from fun _ _ _ => rfl, hput]
  split
  · next hnil =>
    have hn : ¬ s.Moves cl w (4 * cl + 0) := fun h => by
      have := (mem_finalEnts_begun hw).mpr ⟨h, rfl⟩
      rw [hnil] at this
      cases this
    have hold := bindEnt_of_not_moves (by unfold clusterOf; omega) hn
    have hcode : (s.rebound cl w (4 * cl + 0)).wcode = (s.bindEnt (4 * cl + 0)).wcode := (congrArg BindEnt.wcode hold :)
    have hwidth := hc 0 (by decide)
    rw [← hcode, wcode_rebound, pow_wcodeOf (widthFor_le hw)] at hwidth
    rw [hwidth]
  · rfl

theorem mem_rebindDone : (s.rebindDone cl w).mem = s.mem := by
  simp only [rebindDone, begun, takeRebind, modCluster_mem, modDeck_mem, putEnts_mem]

theorem strands_rebindDone : (s.rebindDone cl w).strands = s.strands := by
  simp only [rebindDone, begun, takeRebind, modCluster_strands, modDeck_strands, putEnts_strands]

end Sys2Proof.Machine.State
end

section
/-! The events of the binder and of health, each by its rule (settles O50). -/

namespace Sys2Proof.Proofs

open Machine Machine.State Claims

variable {s : State}

/-- A wake test that a half owes, passed and failed (R30, R356, R431, R474). -/
theorem wakeTest_owed (d : Fin 4) (x : Fin 72) (ht : (s.deck d.val).tests.contains (.half x) = true) (hf : s.plat.bringup.fail = false) :
    exec (.wakeTest d (.half x) true) s = .next (s.modDeck d.val (fun _ => tested (s.deck d.val) x)) ∧
    ((s.deck d.val).health.halfOk x.val = true → ∃ t, exec (.wakeTest d (.half x) false) s = .next t ∧
      (t.deck d.val).health.halfok = (s.deck d.val).health.halfok &&& ~~~(1#72 <<< x.val) ∧
      (t.deck d.val).health.feok = (s.deck d.val).health.feok ∧ (t.deck d.val).tests = (tested (s.deck d.val) x).tests ∧
      t.plat.life = { s.plat.life with halfret := upOne s.plat.life.halfret } ∧ { t with plat := s.plat } = s) := by
  refine ⟨congrArg Host.Outcome.next (endTest_pass ht hf), fun hok => ⟨_, congrArg Host.Outcome.next (endTest_fail ht hf), ?_⟩⟩
  have hdeck := deck_modDeck_self (s := s) (fun _ => tested (s.deck d.val) x) d.isLt
  have hu : (s.modDeck d.val (fun _ => tested (s.deck d.val) x)).unitOk d.val (.half x) = true := by
    rw [unitOk, hdeck]
    exact hok
  obtain ⟨hh, htests, hlife, hrest⟩ := retire_of_ok d.isLt hu
  rw [hdeck] at hh htests
  refine ⟨(congrArg Health.halfok hh :), (congrArg Health.feok hh :), htests, ?_, ?_⟩
  · rw [hlife, modDeck_life, countRetired, satSucc_eq_upOne]
  · exact (congrArg (fun u : State => { u with plat := s.plat }) hrest :)

/-- A front end in health that fails (R22, R356, R431, R453). -/
theorem partFailure_healthy (d : Fin 4) (f : Fin 32) (hok : (s.deck d.val).health.feOk f.val = true) :
    ∃ t, exec (.partFailure d (.fe f)) s = .next t ∧ (t.deck d.val).health.feok = (s.deck d.val).health.feok &&& ~~~(1#32 <<< f.val) ∧
      t.plat.life = { s.plat.life with feret := upOne s.plat.life.feret } ∧ (s.joined d.val = false → { t with plat := s.plat } = s) := by
  obtain ⟨hh, hlife, hrest⟩ := partFails_of_ok (s := s) (u := .fe f) d.isLt hok
  refine ⟨_, rfl, congrArg Health.feok hh, ?_, hrest⟩
  rw [hlife, countRetired, satSucc_eq_upOne]

/-- The first binding of a deck whose wake tests are done (R22 to R26, R356, R473, R474). -/
theorem binderRun_bringup (d : Fin 4) (hf : s.plat.bringup.fail = false) (hj : (s.deck d.val).job = none)
    (hr : (s.deck d.val).reqs = [.bringup]) (ht : (s.deck d.val).tests = []) :
    ∃ t, exec (.binderRun d) s = .next t ∧
      t.plat.bringup.decks = s.plat.bringup.decks ||| (1#4 <<< d.val) ∧ (t.deck d.val).reqs = [] ∧
      (t.deck d.val).health = (s.deck d.val).health ∧
      (∀ b ∈ bindDeck (s.deck d.val).health, b.1 < 32 → ((bindDeck (s.deck d.val).health).filter (fun e => e.1 == b.1)).length = 1 →
        b.2.1 < 72 → b.2.2 < 72 → t.halvesOf (32 * d.val + b.1) = some b.2) ∧
      (∀ i : Fin 32, (bindDeck (s.deck d.val).health).all (fun b => b.1 != i.val) = true →
        (t.bindEnt (32 * d.val + i.val)).role = if (s.deck d.val).health.feOk i.val then 2 else 3) ∧
      (∀ h, h < 72 → (t.deck d.val).gated.mem h = ((s.deck d.val).gated.mem h || !(t.boundHalves d.val).contains h)) ∧
      ∀ n, n / 32 ≠ d.val → t.bindEnt n = s.bindEnt n :=
  ⟨_, congrArg Host.Outcome.next (runBinder_bringup hf hj hr ht), bringup_firstBound, (reqs_firstBound d.isLt hr).1, (reqs_firstBound d.isLt hr).2,
    fun _ hb hb1 h1 hlo hhi => halvesOf_firstBound d.isLt hr hb hb1 h1 hlo hhi, fun i h => role_firstBound d.isLt hr i.isLt h,
    fun _ hh => gated_firstBound d.isLt hr hh, fun n hn => (bindEnt_firstBound n).trans (bindEnt_bound_of_ne hn)⟩

/-- Whether two entries are one but for their generation. -/
def SameEnt (a b : BindEnt) : Prop := { a with bgen := b.bgen } = b

/-- An entry that a rebind leaves, and one that it changes, after each of its steps (R36, log entry 30). -/
theorem rebind_steps {cl w n : Nat} (hw : w = 1 ∨ w = 2 ∨ w = 4) :
    (SameEnt ((s.rebindDone cl w).bindEnt n) (s.bindEnt n) →
      (s.begun cl w).bindEnt n = s.bindEnt n ∧ (s.rebindDone cl w).bindEnt n = s.bindEnt n) ∧
    (¬ SameEnt ((s.rebindDone cl w).bindEnt n) (s.bindEnt n) →
      (s.begun cl w).bindEnt n = ⟨(s.bindEnt n).bgen + 1, (s.bindEnt n).wcode, 2, BitVec.ofNat 7 n, false, 0, 0⟩ ∧
      ((s.rebindDone cl w).bindEnt n).bgen = (s.bindEnt n).bgen + 2) := by
  classical
  rw [bindEnt_rebindDone hw, bindEnt_begun]
  by_cases h : s.Moves cl w n
  · rw [if_pos h, if_pos h]
    exact ⟨fun hs => absurd hs h.2, fun _ => ⟨rfl, rfl⟩⟩
  · rw [if_neg h, if_neg h]
    exact ⟨fun _ => ⟨rfl, rfl⟩, fun hs => absurd rfl hs⟩

/-- After a rebind an entry is, but for its generation, the one that the rebind gives it. -/
theorem bindEnt_rebindDone_eq {cl w n : Nat} (hw : w = 1 ∨ w = 2 ∨ w = 4) (hn : clusterOf n = cl) :
    ∃ g, (s.rebindDone cl w).bindEnt n = { s.rebound cl w n with bgen := g } := by
  classical
  rw [bindEnt_rebindDone hw]
  split
  · exact ⟨_, rfl⟩
  · next h => exact ⟨_, (bindEnt_of_not_moves hn h).symm⟩

theorem rebindDone_dead {cl w n : Nat} (hw : w = 1 ∨ w = 2 ∨ w = 4) (hn : clusterOf n = cl) (ha : s.feAlive n = false) :
    ((s.rebindDone cl w).bindEnt n).halves = none ∧ ((s.rebindDone cl w).bindEnt n).role = 3 := by
  obtain ⟨g, hg⟩ := bindEnt_rebindDone_eq (s := s) hw hn
  have hh : s.aliveHalves n = none := by
    rw [aliveHalves, ha]
    rfl
  rw [hg]
  refine ⟨(halves_rebound n g).trans hh, ?_⟩
  rw [rebound, hh, ha]
  rfl

theorem rebindDone_bound {cl w n : Nat} (hw : w = 1 ∨ w = 2 ∨ w = 4) (hn : clusterOf n = cl) (ha : s.feAlive n = true)
    (hb : (s.halvesOf n).isSome = true) :
    ((s.rebindDone cl w).bindEnt n).wcode = BitVec.ofNat 2 (wcodeOf (s.widthFor cl w)) ∧
      ((s.rebindDone cl w).bindEnt n).role = if n % 4 % s.widthFor cl w = 0 then 0 else 1 := by
  obtain ⟨g, hg⟩ := bindEnt_rebindDone_eq (s := s) hw hn
  obtain ⟨⟨lo, hi⟩, hb⟩ := Option.isSome_iff_exists.mp hb
  have hh : s.aliveHalves n = some (lo, hi) := by
    rw [aliveHalves, ha]
    exact hb
  rw [hg]
  refine ⟨wcode_rebound n, ?_⟩
  have hle : n % 4 % s.widthFor cl w ≤ n := (Nat.mod_le _ _).trans (Nat.mod_le _ _)
  have hd : n - n % 4 % s.widthFor cl w = n ↔ n % 4 % s.widthFor cl w = 0 := by omega
  rw [rebound, hh]
  dsimp only [makeEnt]
  simp only [hd]

/-- A width with an UNBOUND or dead position is 1 (R26, R29). -/
theorem widthFor_eq {cl w : Nat} : s.widthFor cl w = if (List.range 4).any (fun j =>
    (s.halvesOf (4 * cl + j)).isNone || !(s.deck (cl / 8)).health.feOk ((4 * cl + j) % 32)) then 1 else w := by
  have h : s.partialCluster cl = (List.range 4).any (fun j =>
      (s.halvesOf (4 * cl + j)).isNone || !(s.deck (cl / 8)).health.feOk ((4 * cl + j) % 32)) := by
    rw [partialCluster, Bool.eq_iff_iff, List.any_eq_true, List.any_eq_true]
    refine exists_congr fun j => and_congr_right fun hj => ?_
    rw [unfilled_eq, feAlive, show (4 * cl + j) / 32 = cl / 8 by have := List.mem_range.mp hj; omega]
  rw [widthFor, h]

/-- A marked cluster that is not busy is rebound in two steps (R26, R29, R34, R36, R357, log entries 30 and 40). -/
theorem rebind_twice (cl : Fin 32) {w : Nat} (hm : (s.cluster cl.val).mark = some w) (hw : w = 1 ∨ w = 2 ∨ w = 4)
    (hb : s.clusterBusy cl.val = false) (hr : (s.deck (cl.val / 8)).reqs = [.rebind cl.val]) (hj : (s.deck (cl.val / 8)).job = none)
    (hc : ∀ j, j < 4 → 2 ^ (s.bindEnt (4 * cl.val + j)).wcode.toNat = (s.cluster cl.val).width) :
    let alive (j : Nat) : Bool := (s.deck (cl.val / 8)).health.feOk ((4 * cl.val + j) % 32)
    let same (t : State) (n : Nat) : Prop := { t.bindEnt n with bgen := (s.bindEnt n).bgen } = s.bindEnt n
    ∃ t u, exec (.rebind cl none) s = .next t ∧ exec (.rebind cl none) t = .next u ∧
      t.cluster cl.val = s.cluster cl.val ∧ (t.deck (cl.val / 8)).reqs = [] ∧
      (∀ j, j < 4 → let n := 4 * cl.val + j
        (same u n → t.bindEnt n = s.bindEnt n ∧ u.bindEnt n = s.bindEnt n) ∧
        (¬ same u n → t.bindEnt n = ⟨(s.bindEnt n).bgen + 1, (s.bindEnt n).wcode, 2, BitVec.ofNat 7 n, false, 0, 0⟩ ∧
          (u.bindEnt n).bgen = (s.bindEnt n).bgen + 2)) ∧
      (u.cluster cl.val).mark = none ∧
      (u.cluster cl.val).width = (if (List.range 4).any (fun j => (s.halvesOf (4 * cl.val + j)).isNone || !alive j) then 1 else w) ∧
      { (u.cluster cl.val) with mark := (s.cluster cl.val).mark, width := (s.cluster cl.val).width } = s.cluster cl.val ∧
      (∀ j, j < 4 → alive j = false → (u.bindEnt (4 * cl.val + j)).halves = none ∧ (u.bindEnt (4 * cl.val + j)).role = 3) ∧
      (∀ j, j < 4 → (s.halvesOf (4 * cl.val + j)).isSome = true → alive j = true →
        (u.bindEnt (4 * cl.val + j)).wcode = BitVec.ofNat 2 (State.wcodeOf (u.cluster cl.val).width) ∧
        (u.bindEnt (4 * cl.val + j)).role = (if j % (u.cluster cl.val).width = 0 then 0 else 1)) ∧
      u.mem = s.mem ∧ u.strands = s.strands := by
  intro alive same
  have hd : cl.val / 8 < 4 := by omega
  have hclu := cluster_rebindDone (s := s) hw hc
  have hcl : ∀ j, j < 4 → clusterOf (4 * cl.val + j) = cl.val := fun j hj => by
    unfold clusterOf
    omega
  have halive : ∀ j, j < 4 → s.feAlive (4 * cl.val + j) = alive j := fun j hj => by
    rw [feAlive, show (4 * cl.val + j) / 32 = cl.val / 8 by omega]
  have hends := rebindCluster_ends (s := s) (w := w) hd (by rw [cluster_begun hc, hm])
  refine ⟨s.begun cl.val w, s.rebindDone cl.val w, congrArg Host.Outcome.next (rebindCluster_begins hm hb hr hj),
    congrArg Host.Outcome.next hends, cluster_begun hc, reqs_begun hd hr, fun j _ => rebind_steps hw, ?_, ?_, ?_, fun j hj ha => ?_, fun j hj hh ha => ?_,
    mem_rebindDone, strands_rebindDone⟩
  · rw [hclu]
  · rw [hclu]
    exact widthFor_eq
  · rw [hclu]
  · exact rebindDone_dead hw (hcl j hj) ((halive j hj).trans ha)
  · have h := rebindDone_bound (s := s) hw (hcl j hj) ((halive j hj).trans ha) hh
    rw [show (4 * cl.val + j) % 4 = j by omega] at h
    rw [hclu]
    exact h

/-- A half of a joined deck that no strand uses is gated (R474). -/
theorem halfPowerGate_unused (d : Fin 4) (x : Fin 72) (hj : s.joined d.val = true) (hk : (s.deck d.val).job = none)
    (hx : s.halfUsed d.val x.val = false) : ∃ t, exec (.halfPowerGate d x) s = .next t ∧
      { t.deck d.val with gated := (s.deck d.val).gated } = s.deck d.val ∧
      (∀ n, (t.deck d.val).gated.mem n = ((s.deck d.val).gated.mem n || n == x.val)) ∧ { t with plat := s.plat } = s := by
  refine ⟨_, congrArg Host.Outcome.next (gateHalf_unused hj hk hx), ?_, fun n => ?_, rfl⟩
  · rw [deck_modDeck_self _ d.isLt]
  · rw [deck_modDeck_self _ d.isLt]
    exact NSet.mem_add _ _ _

/-- Settles O50: each clause by the lemma of its event. -/
theorem binderAndHealthEventsFollowTheirRules : Obligations.BinderAndHealthEventsFollowTheirRules := by
  intro s d x f cl ok k life at_ half
  exact ⟨fun ht hf => wakeTest_owed d x ht hf, fun ht => congrArg Host.Outcome.next (endTest_not_owed ht),
    fun hf hj hr ht => binderRun_bringup d hf hj hr ht, fun hf hj hr ht => congrArg Host.Outcome.next (runBinder_bringup_waits hf hj hr ht),
    fun hok => partFailure_healthy d f hok, fun hno => congrArg Host.Outcome.next (partFails_of_not_ok hno),
    fun hm => congrArg Host.Outcome.next (by simp only [rebindCluster, hm]),
    fun w hm hw hb hr hj hc => rebind_twice cl hm hw hb hr hj hc, fun hj hk hx => halfPowerGate_unused d x hj hk hx,
    fun h => congrArg Host.Outcome.next (gateHalf_held h)⟩

end Sys2Proof.Proofs
end

section
/-! What the end of a launch leaves: the standing of the journal's launches, the registers of every strand, and no resident strand of the launch (spec 16 R437, R445, R452). -/

namespace Sys2Proof.Machine.State

/-! ### The journal under the writes of the I/O die -/

/-- A launch but for the note that a write has reached its batch row (R351). -/
def calm (l : Launch) : Launch := { l with hostVer := false }

/-- From s to t the journal is the same but for that note. -/
def JournalStays (s t : State) : Prop := t.launches.map calm = s.launches.map calm

variable {s t u : State}

namespace JournalStays

theorem refl (s : State) : JournalStays s s := rfl
theorem of_eq (h : t.launches = s.launches) : JournalStays s t := by rw [JournalStays, h]
theorem trans (a : JournalStays s t) (b : JournalStays t u) : JournalStays s u := Eq.trans b a

theorem foldl {α : Type} {f : State → α → State} (h : ∀ s e, JournalStays s (f s e)) (l : List α) :
    ∀ s, JournalStays s (l.foldl f s) := by
  induction l with
  | nil => exact refl
  | cons e l ih => exact fun s => (h s e).trans (ih _)

/-- The numbers of the launches stay. -/
theorem ids (a : JournalStays s t) : t.launches.map (·.id) = s.launches.map (·.id) := by
  have h := congrArg (List.map (·.id)) a
  rwa [List.map_map, List.map_map] at h

end JournalStays

theorem noteWrite_journalStays (s : State) (pa n : Nat) : JournalStays s (s.noteWrite pa n) := by
  simp only [JournalStays, noteWrite, List.map_map]
  congr 1
  funext l
  simp only [Function.comp]
  split <;> rfl

theorem agentTake_launches (s : State) (line : Nat) (st : Mesi) : (s.agentTake line st).launches = s.launches := by
  unfold agentTake
  split <;> rfl

theorem homeWrite_launches (s : State) (pa : Nat) (bs : List Byte) (src : Bool) : (s.homeWrite pa bs src).launches = s.launches := by
  rw [← s.agentTake_launches (pa / 64) .m]
  unfold homeWrite
  dsimp only
  split
  · split <;> rfl
  · split <;> split <;> rfl

theorem homePut_journalStays (s : State) (pa : Nat) (bs : List Byte) (src : Bool) : JournalStays s (s.homePut pa bs src) :=
  (JournalStays.of_eq (s.homeWrite_launches pa bs src)).trans (noteWrite_journalStays _ _ _)

theorem invalidateOthers_journalStays (s : State) (cl line : Nat) : JournalStays s (s.invalidateOthers cl line) :=
  JournalStays.foldl (fun s c => by
    split
    · exact .refl s
    · exact .refl s) _ s

theorem homeMerge_journalStays (s : State) (line : Nat) (mask : BitVec 64) (data : List Byte) (bad : Bool) :
    JournalStays s (s.homeMerge line mask data bad) := by
  unfold homeMerge
  split
  · exact s.homePut_journalStays _ _ _
  · exact JournalStays.foldl (fun s i => by
      split
      · exact s.homePut_journalStays _ _ _
      · exact .refl s) _ s

theorem sysPut_journalStays (s : State) (pa pclass : Nat) (bs : List Byte) : JournalStays s (s.sysPut pa pclass bs) :=
  JournalStays.foldl (fun s c => by
    dsimp only
    split
    · split
      · exact (s.invalidateOthers_journalStays _ _).trans (homePut_journalStays _ _ _ _)
      · exact s.homePut_journalStays _ _ _
    · exact .refl s) _ s

theorem sysWrite_journalStays {h va : Nat} {bs : List Byte} (e : s.sysWrite h va bs = some t) : JournalStays s t := by
  unfold sysWrite at e
  split at e
  · cases e
  · cases e
    exact JournalStays.foldl (fun s e => s.sysPut_journalStays _ _ _) _ s

theorem joinLines_journalStays (s : State) (o : HReq) (lines : List Nat) : JournalStays s (joinLines o lines s) := by
  obtain ⟨h, e⟩ := joinLines_frame (s := s) (o := o) (lines := lines)
  rw [e]
  exact .of_eq rfl

theorem giveBack_journalStays (o : HReq) (lines : List Nat) (a : JournalStays s t) : JournalStays s (giveBack o lines s t) := by
  unfold giveBack
  split <;> exact a

theorem asMine_journalStays (s : State) (o : HReq) (lines : List Nat) : JournalStays s (s.asMine o lines) := by
  unfold asMine
  split <;> exact .refl s

theorem ringPut_journalStays {h : Nat} {r : Fin 6} {rec : List Byte} (e : s.ringPut h r rec = some t) : JournalStays s t := by
  simp only [ringPut] at e
  split at e
  · cases e
  · split at e
    · cases e
    · split at e
      · cases e
      · next u hu =>
          cases e
          exact (sysWrite_journalStays hu).trans (.of_eq rfl)

theorem writeFault_journalStays {h : Nat} {r : FaultRec} (e : s.writeFault h r = some t) : JournalStays s t := by
  simp only [writeFault] at e
  split at e
  · split at e
    · cases e
    · split at e
      · cases e
      · next u hu =>
          cases e
          exact (ringPut_journalStays hu).trans (.of_eq rfl)
  · exact ringPut_journalStays e

theorem raise_journalStays (s : State) (h : Nat) (r : FaultRec) : JournalStays s (s.raise h r) := by
  unfold raise ringTurn
  dsimp only
  split
  · split
    · split
      · next t ht => exact giveBack_journalStays _ _ ((s.asMine_journalStays _ _).trans (writeFault_journalStays ht))
      · exact (giveBack_journalStays _ [] (.refl s)).trans (.of_eq rfl)
    · exact (s.joinLines_journalStays _ _).trans (.of_eq rfl)
  · exact .of_eq rfl

/-! ### Strands and launches that end -/

/-- What the end of a launch leaves of its entry in the journal: all but its status. -/
def standing (l : Launch) : Launch := { l with hostVer := false, status := none }

/-- Since b strands may have ended: every strand keeps its registers, no strand has become resident, and the journal is the same but for statuses. -/
structure EndedIn (b : State) (strands : Map Strand) (launches : List Launch) : Prop where
  regs : ∀ k, (strands.getD k (Strand.reset (k / 4))).front = (b.strand k).front ∧
    (strands.getD k (Strand.reset (k / 4))).eng = (b.strand k).eng
  resident : ∀ e ∈ strands, State.resident e.2 = true → ∃ v, (e.1, v) ∈ b.strands ∧ State.resident v = true ∧ v.launch = e.2.launch
  journal : launches.map standing = b.launches.map standing

/-- The same of a state; it speaks of the strands and the journal, so a change of anything else keeps it as it stands. -/
def Ended (b s : State) : Prop := EndedIn b s.strands s.launches

variable {b : State}

theorem Ended.refl (s : State) : Ended s s := ⟨fun _ => ⟨rfl, rfl⟩, fun e he h => ⟨e.2, he, h, rfl⟩, rfl⟩

theorem Ended.trans (a : Ended b s) (h : Ended s t) : Ended b t where
  regs k := ⟨(h.regs k).1.trans (a.regs k).1, (h.regs k).2.trans (a.regs k).2⟩
  resident e he hr := by
    obtain ⟨v, hv, hr, hl⟩ := h.resident e he hr
    obtain ⟨w, hw, hr', hl'⟩ := a.resident (e.1, v) hv hr
    exact ⟨w, hw, hr', hl'.trans hl⟩
  journal := h.journal.trans a.journal

theorem Ended.ite {c : Prop} [Decidable c] (ht : Ended b s) (hu : Ended b t) : Ended b (if c then s else t) := by
  split
  · exact ht
  · exact hu

theorem Ended.foldl {α : Type} {f : State → α → State} {l : List α} (h : Ended b s) (hf : ∀ s a, Ended b s → Ended b (f s a)) :
    Ended b (l.foldl f s) := by
  induction l generalizing s with
  | nil => exact h
  | cons a l ih => exact ih (hf s a h)

/-- The launches that the journal lists stay. -/
theorem Ended.ids (h : Ended b s) : s.launches.map (·.id) = b.launches.map (·.id) := by
  have e := congrArg (List.map (·.id)) h.journal
  rwa [List.map_map, List.map_map] at e

/-- The writes of the I/O die change neither strands nor what stands in the journal. -/
theorem Ended.journalStays (h : Ended b s) (hs : t.strands = s.strands) (hj : JournalStays s t) : Ended b t where
  regs k := by rw [hs]; exact h.regs k
  resident := by rw [hs]; exact h.resident
  journal := by
    have e := congrArg (List.map standing) hj
    rw [List.map_map, List.map_map] at e
    exact Eq.trans e h.journal

/-- An entry of a strand that is not in its table is that of a free strand. -/
theorem mem_of_resident {k : Nat} (h : State.resident (s.strand k) = true) : (k, s.strand k) ∈ s.strands := by
  cases hk : s.strands.find? (fun e => e.1 == k) with
  | none =>
      have e : s.strand k = Strand.reset (k / 4) := by simp [strand, Map.getD, Map.get?, hk]
      rw [e] at h
      cases h
  | some x =>
      have e : s.strand k = x.2 := by simp [strand, Map.getD, Map.get?, hk]
      have hx : x.1 = k := by simpa using List.find?_some hk
      rw [e, ← hx]
      exact List.mem_of_find?_eq_some hk

/-- A strand changed to one with its registers, that is resident only where it was, for the same launch. -/
theorem Ended.modStrand {k : Nat} {f : Strand → Strand} (h : Ended b s)
    (hf : ∀ u, (f u).front = u.front ∧ (f u).eng = u.eng)
    (hr : ∀ u, State.resident (f u) = true → State.resident u = true ∧ u.launch = (f u).launch) :
    Ended b (s.modStrand k f) := by
  refine h.trans ⟨fun j => ?_, fun e he hres => ?_, rfl⟩
  · change ((s.modStrand k f).strand j).front = _ ∧ ((s.modStrand k f).strand j).eng = _
    rw [strand_modStrand]
    split
    · next e => rw [e]; exact hf _
    · exact ⟨rfl, rfl⟩
  · simp only [State.modStrand, setStrand, Map.set, List.mem_append, List.mem_filter, List.mem_cons] at he
    rcases he with ⟨he, _⟩ | rfl | ⟨he, _⟩
    · exact ⟨e.2, he, hres, rfl⟩
    · exact ⟨_, mem_of_resident (hr _ hres).1, hr _ hres⟩
    · exact ⟨e.2, he, hres, rfl⟩

/-- A strand whose check-outs alone change. -/
theorem Ended.setHeld {k : Nat} {f : List Held → List Held} (h : Ended b s) :
    Ended b (s.modStrand k (fun u => { u with held := f u.held })) := h.modStrand (fun _ => ⟨rfl, rfl⟩) (fun _ hr => ⟨hr, rfl⟩)

theorem Ended.raise {c r} (h : Ended b s) : Ended b (s.raise c r) :=
  h.journalStays (s.raise_sysChange c r).strands (s.raise_journalStays c r)

/-- Strands whose arming of copy-schedule entries alone changes (R213). -/
theorem Ended.fireConsumed {n} (h : Ended b s) : Ended b (s.fireConsumed n) := by
  refine h.trans ⟨fun k => ?_, fun e he hr => ?_, rfl⟩
  · have e : (s.fireConsumed n).strands.get? k = (s.strands.get? k).map
        (fun u => { u with schedOcArm := u.schedOcArm.map (fun l => l.filter (· != n)) }) :=
      Map.get?_map s.strands (fun _ u => { u with schedOcArm := u.schedOcArm.map (fun l => l.filter (· != n)) }) k
    simp only [strand, Map.getD, e]
    cases s.strands.get? k <;> exact ⟨rfl, rfl⟩
  · obtain ⟨v, hv, rfl⟩ := List.mem_map.mp he
    exact ⟨v.2, hv, hr, rfl⟩

theorem Ended.unlockBank {cl n} (h : Ended b s) : Ended b (s.unlockBank cl n) := by
  unfold State.unlockBank
  extract_lets u
  have hu : Ended b u := h
  exact hu.fireConsumed.ite hu

theorem Ended.unlock {m} (h : Ended b s) : Ended b (s.unlock m) := h.ite (h.foldl (fun _ _ h => h.unlockBank))

theorem Ended.discardWork {k} (h : Ended b s) : Ended b (s.discardWork k) := by
  unfold State.discardWork
  extract_lets mine s1 busy s2 chg s3
  have h1 : Ended b s1 := h.foldl (fun _ _ h => h.unlock)
  exact h1

theorem Ended.releaseWindow {k} (h : Ended b s) : Ended b (s.releaseWindow k) := Ended.ite h h

theorem Ended.askRebind {cl} (h : Ended b s) : Ended b (s.askRebind cl) := Ended.ite h h

theorem Ended.freeStrand {k} (h : Ended b s) : Ended b (s.freeStrand k) := by
  have h1 : Ended b (((s.discardWork k).account k).releaseWindow k) := Ended.releaseWindow h.discardWork
  have h2 : Ended b ((((s.discardWork k).account k).releaseWindow k).modStrand k (freedStrand k)) :=
    h1.modStrand (fun _ => ⟨rfl, rfl⟩) (fun _ hr => by cases hr)
  exact h2.askRebind

theorem Ended.evictStrand {k} (h : Ended b s) : Ended b (s.evictStrand k) := by
  unfold State.evictStrand
  extract_lets hc s1
  have h1 : Ended b s1 := h.foldl (fun _ _ h => Ended.ite h h)
  exact Ended.freeStrand h1

theorem Ended.retireFrames {c} (h : Ended b s) : Ended b (s.retireFrames c) := by
  unfold State.retireFrames
  extract_lets frames hit s1 s2
  have h1 : Ended b s1 := h.foldl (fun _ _ h => Ended.ite h h)
  have h2 : Ended b s2 := h1.foldl (fun _ _ h => h)
  exact h2

/-- A change of statuses alone. -/
theorem Ended.mapLaunches {f : Launch → Launch} (h : Ended b s) (hf : ∀ l, standing (f l) = standing l) :
    Ended b { s with launches := s.launches.map f } where
  regs := h.regs
  resident := h.resident
  journal := by
    rw [List.map_map, show standing ∘ f = standing from funext hf]
    exact h.journal

theorem Ended.setStatus {id st} (h : Ended b s) : Ended b (s.setStatus id st) := h.mapLaunches (fun l => by split <;> rfl)

/-- A context's kill ends strands, and makes none resident (R452). -/
theorem Ended.kill {c r} (h : Ended b s) : Ended b (s.kill c r) := by
  unfold State.kill
  extract_lets ks s1 lost s2 s3 s4 shut s5 s6 life killed
  have h1 : Ended b s1 := h.foldl (fun _ _ h => h.evictStrand)
  have h2 : Ended b s2 := h1.foldl (fun _ _ h => h)
  have h3 : Ended b s3 := h2.mapLaunches (fun l => by unfold lost; split <;> rfl)
  have h4 : Ended b s4 := h3.retireFrames
  clear_value s4
  exact Ended.raise h4

/-! ### Check-ins and the end of a launch (R256, R445) -/

theorem Ended.invalidateOthers {cl line} (h : Ended b s) : Ended b (s.invalidateOthers cl line) :=
  h.foldl (fun _ _ h => Ended.ite h h)

theorem Ended.homePut {pa bs src} (h : Ended b s) : Ended b (s.homePut pa bs src) :=
  h.journalStays (s.homePut_sysChange pa bs src).strands (s.homePut_journalStays pa bs src)

theorem Ended.homeMerge {line mask data bad} (h : Ended b s) : Ended b (s.homeMerge line mask data bad) :=
  Ended.ite h.homePut (h.foldl (fun _ _ h => h.homePut.ite h))

theorem Ended.mergeHome {r mask data bad} (h : Ended b s) : Ended b (s.mergeHome r mask data bad) :=
  Ended.ite (Ended.ite h.kill h) h.homeMerge

/-- A check-in at its home. -/
theorem Ended.sendHome {r mask data bad} (h : Ended b s) (hk : r.kind = .chkin mask data bad) : Ended b (s.sendHome r) := by
  refine Ended.ite h ?_
  simp only [runHome, hk]
  exact Ended.mergeHome (h.invalidateOthers.ite h)

theorem Ended.checkIn {k l} (h : Ended b s) : Ended b (s.checkIn k l) := by
  unfold State.checkIn
  extract_lets mask r s1 s2
  have h1 : Ended b s1 := h.setHeld (f := fun es => es.filter (fun e => e.line != l.line))
  have h2 : Ended b s2 := by
    unfold s2 updateCopy
    split <;> exact h1
  split
  · rename_i s3 s4 _ _
    have h4 : Ended b s4 := h2.invalidateOthers.ite h2
    exact Ended.ite h4 h4.homeMerge
  · exact Ended.ite h2 (h2.sendHome rfl)

theorem Ended.checkInAll {k} (h : Ended b s) : Ended b (s.checkInAll k) := h.foldl (fun _ _ h => h.checkIn)

/-- No entry of a strand is resident. -/
def Gone (s : State) (k : Nat) : Prop := ∀ e ∈ s.strands, e.1 = k → State.resident e.2 = false

/-- A strand that has gone does not come back while strands end. -/
theorem Gone.ended {k : Nat} (hg : Gone s k) (h : Ended s t) : Gone t k := by
  intro e he hk
  by_contra hr
  obtain ⟨v, hv, hr', _⟩ := h.resident e he (by simpa using hr)
  rw [hg _ hv hk] at hr'
  cases hr'

theorem freeStrand_gone (s : State) (k : Nat) : Gone (s.freeStrand k) k := by
  have h : Gone ((((s.discardWork k).account k).releaseWindow k).modStrand k (freedStrand k)) k := by
    rintro ⟨j, v⟩ he rfl
    simp only [State.modStrand, setStrand, Map.set, List.mem_append, List.mem_filter, List.mem_cons] at he
    rcases he with ⟨_, he⟩ | he | ⟨_, he⟩
    · simp at he
    · cases he
      rfl
    · simp at he
  exact h.ended (Ended.refl _).askRebind

/-- Freed one after another, strands are gone. -/
theorem foldl_gone {ks : List Nat} {f : State → Nat → State} (hf : ∀ b s k, Ended b s → Ended b (f s k))
    (hg : ∀ s k, Gone (f s k) k) : ∀ s, ∀ k ∈ ks, Gone (ks.foldl f s) k := by
  induction ks with
  | nil => exact fun _ _ h => by cases h
  | cons a ks ih =>
      intro s k hk
      rcases List.mem_cons.mp hk with rfl | hk
      · exact (hg s k).ended ((Ended.refl _).foldl (hf _))
      · exact ih _ k hk

/-- A launch whose every strand has gone has none. -/
theorem launchStrands_eq_nil {id : Nat} (h : Ended s t) (hg : ∀ k ∈ s.launchStrands id, Gone t k) : t.launchStrands id = [] := by
  rw [launchStrands, List.map_eq_nil_iff, List.filter_eq_nil_iff]
  intro e he hr
  simp only [Bool.and_eq_true, beq_iff_eq] at hr
  obtain ⟨v, hv, hr', hl⟩ := h.resident e he hr.1
  have hm : e.1 ∈ s.launchStrands id :=
    List.mem_map.mpr ⟨(e.1, v), List.mem_filter.mpr ⟨hv, by simp [hr', hl, hr.2]⟩, rfl⟩
  rw [hg e.1 hm e he rfl] at hr
  cases hr.1

theorem Ended.stopLaunch {id} (h : Ended b s) : Ended b (s.stopLaunch id) :=
  (h.foldl (fun _ _ h => h.checkInAll.freeStrand) : Ended b ((s.launchStrands id).foldl (fun s k => ((s.checkInAll k).freeStrand k)) s))

/-- Steps 1 to 4 of R445 leave a launch no strand. -/
theorem launchStrands_stopLaunch (s : State) (id : Nat) : (s.stopLaunch id).launchStrands id = [] := by
  refine launchStrands_eq_nil (Ended.refl s).stopLaunch ?_
  exact (foldl_gone (ks := s.launchStrands id) (f := fun s k => (s.checkInAll k).freeStrand k)
    (fun _ _ _ h => h.checkInAll.freeStrand) (fun s k => freeStrand_gone _ k) s)

/-- The launch of a number, where the journal lists the same numbers. -/
theorem launch?_of_ids {id : Nat} {l : Launch} (h : t.launches.map (·.id) = s.launches.map (·.id)) (hl : s.launch? id = some l) :
    ∃ k, t.launch? id = some k := by
  have hm : id ∈ t.launches.map (·.id) := by
    rw [h]
    exact List.mem_map.mpr ⟨l, List.mem_of_find?_eq_some hl, by simpa using List.find?_some hl⟩
  obtain ⟨k, hk, hid⟩ := List.mem_map.mp hm
  exact Option.isSome_iff_exists.mp (List.find?_isSome.mpr ⟨k, hk, by simpa using hid⟩)

/-- A launch after a change of its entry that keeps its number. -/
theorem launch?_modLaunch (s : State) (id : Nat) (f : Launch → Launch) (hf : ∀ l, (f l).id = l.id) :
    (s.modLaunch id f).launch? id = (s.launch? id).map f := by
  have hc : ((fun l : Launch => l.id == id) ∘ fun l => if l.id = id then f l else l) = fun l => l.id == id := by
    funext l
    simp only [Function.comp]
    split <;> simp [hf]
  simp only [launch?, modLaunch, List.find?_map, hc]
  cases h : s.launches.find? (fun l => l.id == id) with
  | none => rfl
  | some l =>
      have hl : l.id = id := by simpa using List.find?_some h
      simp [hl]

/-- A launch ended by a fault has the code as its status and no strand left; every strand keeps its registers (R445). -/
theorem endLaunch_ends {id : Nat} {l : Launch} (r : FaultRec) (hl : s.launch? id = some l) :
    Ended s (s.endLaunch id r) ∧ (s.endLaunch id r).launchStrands id = [] ∧
      ∃ k, (s.endLaunch id r).launch? id = some k ∧ k.status = some (.failed r.code) := by
  have he : s.endLaunch id r = ((s.raise l.hc r).stopLaunch id).setStatus id (.failed r.code) := by simp only [endLaunch, hl]
  have hr : Ended s ((s.raise l.hc r).stopLaunch id) := (Ended.refl s).raise.stopLaunch
  obtain ⟨k, hk⟩ := launch?_of_ids hr.ids hl
  rw [he]
  refine ⟨hr.setStatus, launchStrands_stopLaunch _ _, { k with status := some (.failed r.code) }, ?_, rfl⟩
  exact (launch?_modLaunch _ id (fun l => { l with status := some (.failed r.code) }) (fun _ => rfl)).trans (congrArg _ hk)

end Sys2Proof.Machine.State

namespace Sys2Proof.Proofs

open Machine Claims

/-- A form with a guard is a slot operation: its meaning is its effect behind the tests of issue (R105, R117, R500). -/
theorem exec_slotOp {i : Instr} {g : Guard} (h : i.guard? = some g) : ∃ eff, ∀ s : State, exec i s = s.slotOp i g eff := by
  cases i
  all_goals cases h
  all_goals exact ⟨_, fun _ => by delta exec; rfl⟩

/-- A slot operation that must wait beside its guard leaves the note that it waits. -/
theorem slotOp_waits {i : Instr} {g : Guard} {s : State} (eff : State → State) (ha : s.ctx.admitted = false) (hp : s.pendingWait false i = false)
    (hg : i.always = true ∨ s.holds g = true) (hw : s.slotWait i = true) : s.slotOp i g eff = .next s.wait := by
  have hn : ¬ (!i.always && !s.holds g) = true := by rcases hg with h | h <;> simp [h]
  rw [State.slotOp, if_neg (by simp [ha]), if_neg (by simp [hp]), if_neg hn, if_pos hw]

/-- A performing slot operation is its effect, the launch's SIDE bit noted first (R105, R454). -/
theorem slotOp_acting {i : Instr} {g : Guard} {s : State} (eff : State → State) (hp : performs i g s) :
    s.slotOp i g eff = .next (eff (acting i s)) := by
  cases ha : s.ctx.admitted with
  | true => simp [acting, ha, s.slotOp_admitted i g eff ha]
  | false =>
      obtain ⟨hpend, hg, hw, hs⟩ := hp.resolve_left (by simp [ha])
      simp [acting, ha, s.slotOp_runs i g eff ha hpend (by simpa using hg) hw hs]

/-- Settles O56: a slot operation ends at the first test of issue that it fails; a stop of its issue check is a trap or ends its launch. -/
theorem slotsThatDoNotPerformChangeNoRegister : Obligations.SlotsThatDoNotPerformChangeNoRegister := by
  intro i g s hi ha
  obtain ⟨eff, he⟩ := exec_slotOp hi
  rw [he]
  refine ⟨s.slotOp_pending i g eff ha, s.slotOp_false i g eff ha, fun hp hg hw => slotOp_waits eff ha hp hg hw,
    fun code aux hp hg hw hs => ?_, fun l hp hg hw hs hl => ?_⟩
  · refine ⟨_, s.slotOp_stops i g eff _ ha hp (by simpa using hg) hw hs, s.takeTrap_me code aux _, s.takeTrap_others code aux _, fun hw => ?_⟩
    exact ⟨_, s.takeTrap_waiting code aux _ hw, rfl, rfl, rfl, rfl, rfl⟩
  · obtain ⟨hr, hn, k, hk, hst⟩ := State.endLaunch_ends { s.myRecord 0x10 with info := s.ctx.word } hl
    exact ⟨_, k, s.slotOp_stops i g eff _ ha hp (by simpa using hg) hw hs, hk, hst, hn, hr.regs⟩

end Sys2Proof.Proofs
end

section
/-! Barriers and the levels of a strand's sequencer: O35. -/

namespace Sys2Proof.Machine.State

@[simp] theorem launch?_modMe (s : State) (f : Strand → Strand) (id : Nat) : (s.modMe f).launch? id = s.launch? id := rfl

end Sys2Proof.Machine.State

namespace Sys2Proof.Proofs

open Machine Claims

/-- A change of the acting strand changes that strand alone. -/
theorem onlyMe_modMe (s : State) (f : Strand → Strand) : OnlyMe s (s.modMe f) (f s.me) where
  mine := s.me_modMe f
  others k hk := by rw [s.strand_modMe, if_neg hk]
  rest := rfl
  bytes _ := rfl

/-- A form whose issue sets no SIDE bit acts in the state as it stands (R454). -/
theorem acting_plain {i : Instr} (s : State) (h : State.sideForm i = false) : acting i s = s := by
  simp [acting, State.noteSide, h]

/-! ### BAR (R415, R416) -/

/-- A launch with one more arrival at bar b. -/
def counted (l : Launch) (b : Nat) : Launch :=
  { l with bars := Vector.ofFn (fun i : Fin 16 => if i.val = b then (l.bars[i].1 + 1, l.bars[i].2) else l.bars[i]) }

/-- A launch after one more arrival at bar b, its complete bars settled. -/
def arrivedAt (l : Launch) (b : Nat) : Launch := State.settleBars (counted l b)

theorem arrivedAt_id (l : Launch) (b : Nat) : (arrivedAt l b).id = l.id := by
  simp only [arrivedAt, State.settleBars, counted]

theorem barOf_eq (l : Launch) {k : Nat} (hk : k < 16) : State.barOf l k = l.bars[k] := by
  simp [State.barOf, List.getD_eq_getElem?_getD, hk]

theorem barOf_counted (l : Launch) (b : Nat) {k : Nat} (hk : k < 16) :
    State.barOf (counted l b) k = if k = b then ((State.barOf l k).1 + 1, (State.barOf l k).2) else State.barOf l k := by
  rw [barOf_eq l hk, barOf_eq _ hk]
  simp [counted]

/-- A bar that all live members have reached begins its next generation, another stays (R415). -/
theorem barOf_settleBars (l : Launch) {k : Nat} (hk : k < 16) : State.barOf (State.settleBars l) k =
    if (State.barOf l k).1 ≠ 0 ∧ (State.liveMembers l).length ≤ (State.barOf l k).1 then (0, ((State.barOf l k).2 + 1) % 65536)
    else State.barOf l k := by
  rw [barOf_eq l hk, barOf_eq _ hk]
  simp [State.settleBars]

/-- A bar after one more arrival at bar b, none having been complete before. -/
theorem barOf_arrivedAt {l : Launch} {b k n : Nat} (hn : n = (State.liveMembers l).length) (hk : k < 16) (hold : (State.barOf l k).1 < n) :
    State.barOf (arrivedAt l b) k = if k = b then
      (if (State.barOf l k).1 + 1 = n then (0, ((State.barOf l k).2 + 1) % 65536) else ((State.barOf l k).1 + 1, (State.barOf l k).2))
    else State.barOf l k := by
  rw [arrivedAt, barOf_settleBars _ hk, barOf_counted l b hk, show (State.liveMembers (counted l b)).length = n from hn.symm]
  by_cases hb : k = b
  · simp only [if_pos hb]
    by_cases hc : (State.barOf l k).1 + 1 = n
    · rw [if_pos (by omega), if_pos hc]
    · rw [if_neg (by omega), if_neg hc]
  · simp only [if_neg hb]
    rw [if_neg (by omega)]

/-- An arrival as the change of one launch and one strand. -/
theorem arrive_eq {s : State} {l : Launch} (hl : s.launch? s.me.launch = some l) (b : Nat) :
    s.arrive b = (s.modLaunch s.me.launch (arrivedAt · b)).modMe (fun u => { u with barWait := some (b, (State.barOf l b).2) }) := by
  simp only [State.arrive, State.launchOf]
  rw [show s.launch? (s.strand s.meKey).launch = some l from hl]
  rfl

theorem barArrivesAndTheLastArrivalEndsTheGeneration : Claims.barArrivesAndTheLastArrivalEndsTheGeneration := by
  intro g x s l b old n hp hb hl h0 hc
  have he : exec (.bar g x) s = .next (s.arrive b) := by
    refine (slotOp_performs (State.barOp x) hp rfl).trans ?_
    rw [State.barOp, Nat.mod_eq_of_lt hb]
  have hid : l.id = s.me.launch := by simpa using List.find?_some hl
  refine ⟨_, arrivedAt l b, he, ?_, ?_, ?_, fun k hk hne => ?_, ?_⟩
  · rw [hid, arrive_eq hl, State.launch?_modMe, State.launch?_modLaunch s _ (arrivedAt · b) (arrivedAt_id · b), hl]
    rfl
  · rw [arrive_eq hl, State.me_modMe]
    rfl
  · exact (barOf_arrivedAt rfl hb (hc b hb)).trans (if_pos rfl)
  · exact (barOf_arrivedAt rfl hk (hc k hk)).trans (if_neg hne)
  · rw [arrive_eq hl]
    rfl

/-! ### LNSRUN (R77, R421) -/

/-- A step of R77 through an index stream. -/
theorem seqStep_eq (idx : List (BitVec 16)) (n : Nat) (pc : Word32) : State.seqStep idx n pc = stepsOn idx n pc := by
  induction n generalizing pc with
  | zero => rfl
  | succ n ih =>
      have hs : State.seqNext idx pc = pc + if idx[pc.toNat]? = some 0xFFFF then 25 else 1 := by
        rw [State.seqNext, List.getD_eq_getElem?_getD]
        cases idx[pc.toNat]? with
        | none => rfl
        | some h =>
            by_cases hh : h = 0xFFFF
            · simp [hh]
            · rw [Option.getD_some, if_neg hh, if_neg (by simpa using hh)]
      rw [State.seqStep, stepsOn, hs, ih]

theorem stepsOn_add (idx : List (BitVec 16)) (m n : Nat) (pc : Word32) : stepsOn idx n (stepsOn idx m pc) = stepsOn idx (m + n) pc := by
  induction m generalizing pc with
  | zero => rw [Nat.zero_add]; rfl
  | succ m ih =>
      rw [Nat.succ_add]
      exact ih _

theorem seqNext_eq (idx : List (BitVec 16)) (pc : Word32) : State.seqNext idx pc = stepsOn idx 1 pc := seqStep_eq idx 1 pc

/-- The body of a level, with its length from the level's control word. -/
theorem lnsBody_eq (s : State) (k : Nat) (h : 1 ≤ (levelOf s.me k).ctl.toNat % 512) :
    s.lnsBody k = (stepsOn s.stream 1 s.me.pc, stepsOn s.stream ((levelOf s.me k).ctl.toNat % 512) s.me.pc) := by
  simp only [State.lnsBody, seqNext_eq, seqStep_eq, stepsOn_add]
  have e : 1 + (State.ctlLen (State.level s.me k).ctl - 1) = (levelOf s.me k).ctl.toNat % 512 := Nat.add_sub_cancel' h
  rw [e]

theorem loopLevelsRunOrSkipTheirBody : Claims.loopLevelsRunOrSkipTheirBody := by
  intro g x s k c first last div n hp hk hc
  have hm : (s.rdX x).toNat % 8 = k := Nat.mod_eq_of_lt (by omega)
  have he : exec (.lnsrun g x) s = .next (s.lnsrunOp x) := slotOp_performs (State.lnsrunOp x) hp rfl
  have hn : s.tripOf (State.level s.me k) = n := rfl
  rw [he]
  simp only [State.lnsrunOp, hm, lnsBody_eq s k hc, hn]
  refine ⟨fun h => ?_, fun h => ?_⟩
  · rw [if_pos h, seqNext_eq, stepsOn_add]
    exact ⟨_, rfl, onlyMe_modMe s _⟩
  · rw [if_neg h]
    exact ⟨_, rfl, onlyMe_modMe s _⟩

/-- Settles O35: an arrival is the change of one bar, and a level's run the change of one level. -/
theorem barriersAndLoopLevels : Obligations.BarriersAndLoopLevels :=
  ⟨barArrivesAndTheLastArrivalEndsTheGeneration, loopLevelsRunOrSkipTheirBody⟩

end Sys2Proof.Proofs
end

section
/-! Cycles of a core in which nothing issues: O41. -/

namespace Sys2Proof.Machine.State

variable {s : State} {k : Nat}

/-! ### A strand that stands free (R342, R352) -/

/-- A strand as its end has left it. -/
def IsFree (s : State) (k : Nat) : Prop := s.strand k = freedStrand k (s.strand k)

namespace IsFree

theorem life (h : IsFree s k) : (s.strand k).life = .free := (congrArg Strand.life h :)
theorem withheld (h : IsFree s k) : (s.strand k).withheld = [] := (congrArg Strand.withheld h :)
theorem rolling (h : IsFree s k) : (s.strand k).rolling = none := (congrArg Strand.rolling h :)
theorem vland (h : IsFree s k) : (s.strand k).vland = [] := (congrArg Strand.vland h :)
theorem landings (h : IsFree s k) : (s.strand k).landings = [] := (congrArg Strand.landings h :)
theorem yielded (h : IsFree s k) : (s.strand k).yielded = false := (congrArg Strand.yielded h :)

/-- Nothing of a free strand can come about. -/
theorem settleStrand (h : IsFree s k) : s.settleStrand k = s := by
  simp [State.settleStrand, h.withheld, h.life, h.rolling, h.vland]

/-- A free strand is not ready. -/
theorem ready (h : IsFree s k) : s.ready k = .out := by simp [State.ready, h.life]

/-- No late landing of a free strand holds its core. -/
theorem freezeLasts (h : IsFree s k) : State.freezeLasts (s.strand k) = false := by
  simp [State.freezeLasts, absent, h.landings]

end IsFree

/-- Acts that each leave a state as it is. -/
theorem foldl_eq_self {α : Type} {f : State → α → State} {l : List α} (h : ∀ a ∈ l, f s a = s) : l.foldl f s = s := by
  induction l with
  | nil => rfl
  | cons a l ih =>
      rw [List.foldl_cons, h a (by simp)]
      exact ih (fun b hb => h b (by simp [hb]))

/-- Changing a core twice is changing it once by both. -/
theorem modCore_modCore (s : State) (c : Nat) (f g : Core → Core) : (s.modCore c f).modCore c g = s.modCore c (fun t => g (f t)) := by
  simp only [modCore, setCore, core, Map.getD_set_self, Map.set_set]

theorem core_idle (s : State) (c : Nat) : s.idle.core c = s.core c := rfl

/-! ### The selector (R343, R427, R460) -/

theorem clearYields_none {c : Nat} (h : ∀ i, i < 4 → (s.strand (strandKey c i)).yielded = false) : s.clearYields c = s :=
  foldl_eq_self (fun i hi => if_neg (by simp [h i (List.mem_range.mp hi)]))

/-- A halted core counts a frozen cycle. -/
theorem cycle_halted {c : Nat} (ha : s.active c = true) (hh : (s.core c).halt ≠ 0)
    (hy : ∀ i, i < 4 → (s.strand (strandKey c i)).yielded = false) :
    s.cycle c = s.modCore c (fun k => { k with cycle := k.cycle + 1, frzcyc := k.frzcyc + 1 }) := by
  have hb : ((s.core c).halt != 0) = true := by simpa using hh
  simp only [cycle, ha, hb, clearYields_none hy, Bool.not_true, Bool.false_eq_true, if_false, if_true]

/-- A switch of a core whose strands are free finds none and counts an idle cycle. -/
theorem runCycle_free {c : Nat} (hc : (s.core c).cur < 4) (h : ∀ i, i < 4 → IsFree s (strandKey c i)) (y : Bool) :
    s.runCycle c y = s.modCore c (fun k => { k with cycle := k.cycle + 1, idlecyc := k.idlecyc + 1 }) := by
  have ho : s.othersReady c (s.core c).cur = [] :=
    List.filter_eq_nil_iff.mpr (fun i hi => by simp [readyOn, (h i (List.mem_range.mp hi)).ready])
  have hn : s.choose c (s.core c).cur (s.candidates c (s.core c).cur) = none := by
    simp [candidates, ho, choose, oldestOf]
  simp [runCycle, (h _ hc).ready, switchCycle, hn]

/-- A core whose strands are free counts an idle cycle. -/
theorem cycle_free {c : Nat} (ha : s.active c = true) (hh : (s.core c).halt = 0) (hc : (s.core c).cur < 4)
    (h : ∀ i, i < 4 → IsFree s (strandKey c i)) :
    s.cycle c = (s.modCore c (fun k => { k with freeze := false, cycle := k.cycle + 1, idlecyc := k.idlecyc + 1 })).idle := by
  have hs : (List.range 4).foldl (fun s i => s.settleStrand (strandKey c i)) s = s :=
    foldl_eq_self (fun i hi => (h i (List.mem_range.mp hi)).settleStrand)
  have hy : s.clearYields c = s := clearYields_none (fun i hi => (h i hi).yielded)
  have hr := runCycle_free (s := s.modCore c (fun k => { k with freeze := false })) (c := c)
    (by rw [core_modCore, if_pos rfl]; exact hc) h (s.strand (strandKey c (s.core c).cur)).yielded
  rw [modCore_modCore] at hr
  simp only [cycle, hs, hy, ha, hh, (h _ hc).freezeLasts, hr, Bool.not_true, bne_self_eq_false, Bool.and_false, Bool.false_eq_true, if_false]

end Sys2Proof.Machine.State

namespace Sys2Proof.Proofs

open Machine Claims State

theorem cyclesWithoutIssue : Claims.cyclesWithoutIssue := by
  intro c s at_ k
  refine ⟨fun ha => ?_, fun ha hh hy => congrArg _ (cycle_halted ha hh hy), fun ha hh hc hf => ?_⟩
  · exact congrArg Host.Outcome.next (by simp [cycle, ha])
  · refine ⟨_, congrArg Host.Outcome.next (cycle_free ha hh hc hf), ?_, fun d hd => ?_, rfl⟩
    · rw [core_idle, core_modCore, if_pos rfl]
    · rw [core_idle, core_modCore, if_neg hd]

/-- Settles O41: a core that is inactive, halted or without strands chooses none. -/
theorem cyclesWithoutIssueCountTheirCause : Obligations.CyclesWithoutIssueCountTheirCause := cyclesWithoutIssue

end Sys2Proof.Proofs
end

section
/-! Loads: the value of some bytes, and the bytes that an extent shows a strand (spec 09 R234 to R237; 10 R263, R264, R266; 13 R374): O10. -/

namespace Sys2Proof.Machine

/-! ### Values of bytes -/

theorem leNat_lt (bs : List Byte) : leNat bs < 256 ^ bs.length := by
  induction bs with
  | nil => exact Nat.one_pos
  | cons b bs ih =>
      have hb := b.isLt
      rw [leNat, List.length_cons, Nat.pow_succ]
      omega

/-- A field of n + 1 bits sign-extended from its top bit, as an integer. -/
theorem sextAt_toInt {v n : Nat} (hn : n < 64) (hv : v < 2 ^ (n + 1)) : (sextAt (BitVec.ofNat 64 v) n).toInt = Claims.signedField v (n + 1) := by
  obtain ⟨k, hk⟩ : ∃ k, n + 1 + k = 64 := ⟨63 - n, by omega⟩
  have hp : 2 ^ (n + 1) * 2 ^ k = 2 ^ 64 := by rw [← Nat.pow_add, hk]
  have hh : 2 ^ (n + 1) = 2 * 2 ^ n := Nat.pow_succ'
  have hk0 := Nat.two_pow_pos k
  have hs : v * 2 ^ k < 2 ^ 64 := by
    rw [← hp]
    exact Nat.mul_lt_mul_of_pos_right hv hk0
  have ht : (BitVec.ofNat 64 v <<< k).toNat = v * 2 ^ k := by
    rw [BitVec.toNat_shiftLeft, BitVec.toNat_ofNat, Nat.shiftLeft_eq, Nat.mod_eq_of_lt (a := v), Nat.mod_eq_of_lt hs]
    exact Nat.lt_of_le_of_lt (Nat.le_mul_of_pos_right v hk0) hs
  have hiff : 2 * (v * 2 ^ k) < 2 ^ 64 ↔ v < 2 ^ n := by
    rw [← hp, hh, Nat.mul_assoc, Nat.mul_lt_mul_left Nat.two_pos, Nat.mul_lt_mul_right hk0]
  rw [sextAt, show 63 - n = k by omega, BitVec.toInt_sshiftRight, Int.shiftRight_eq_div_pow, BitVec.toInt_eq_toNat_cond, ht,
    Claims.signedField, if_neg (Nat.succ_ne_zero n), Nat.add_sub_cancel]
  by_cases hlt : v < 2 ^ n
  · rw [if_pos (hiff.mpr hlt), if_neg (Nat.not_le.mpr hlt), Nat.cast_mul]
    exact Int.mul_ediv_cancel _ (by positivity)
  · rw [if_neg (fun h => hlt (hiff.mp h)), if_pos (Nat.not_lt.mp hlt), ← hp, Nat.cast_mul, Nat.cast_mul, ← Int.sub_mul]
    exact (Int.mul_ediv_cancel _ (by positivity)).trans (by push_cast; rfl)

/-- Words of bytes one by one: lane l is the word of bytes 4l to 4l + 3 (R266). -/
theorem wordsOf_getD (bs : List Byte) (h : bs.length % 4 = 0) (l : Nat) :
    (wordsOf bs).getD l 0 = BitVec.ofNat 32 (leNat ((bs.drop (4 * l)).take 4)) := by
  induction l generalizing bs with
  | zero =>
      match bs, h with
      | [], _ => rfl
      | _ :: _ :: _ :: _ :: _, _ => rfl
  | succ l ih =>
      match bs, h with
      | [], _ => rfl
      | a :: b :: c :: d :: bs, h =>
          rw [wordsOf, List.getD_cons_succ, ih bs (by simp only [List.length_cons] at h; omega)]
          rfl

theorem lanesOf_wordsOf (bs : List Byte) (h : bs.length % 4 = 0) : lanesOf (wordsOf bs) = Claims.wordsIn bs := by
  simp only [lanesOf, Claims.wordsIn, wordsOf_getD bs h]

theorem bytes_size (z : Size) : 1 ≤ z.bytes ∧ z.bytes ≤ 8 := by cases z <;> decide

/-- The value of a scalar load is the number of its bytes, signed or not (R264). -/
theorem loadValue_eq (z : Size) (natural : Bool) (bs : List Byte) (h : bs.length = z.bytes) :
    State.loadValue z natural bs = Claims.low (if natural then (leNat bs : Int) else Claims.signedField (leNat bs) (8 * z.bytes)) := by
  cases natural with
  | true => exact (BitVec.ofInt_natCast 64 (leNat bs)).symm
  | false =>
      obtain ⟨n, hn⟩ : ∃ n, 8 * z.bytes = n + 1 := ⟨8 * z.bytes - 1, by have := bytes_size z; omega⟩
      have hv : leNat bs < 2 ^ (8 * z.bytes) := by
        have := leNat_lt bs
        rwa [h, show (256 : Nat) = 2 ^ 8 from rfl, ← Nat.pow_mul] at this
      rw [hn] at hv ⊢
      rw [State.loadValue, if_neg (by simp), if_neg (by simp), Claims.low, ← sextAt_toInt (by have := bytes_size z; omega) hv,
        BitVec.ofInt_toInt, hn]
      rfl

/-! ### Bytes of memory piece by piece -/

namespace Mem

theorem readN_append (m : Mem) (a k n : Nat) : m.readN a k ++ m.readN (a + k) n = m.readN a (k + n) := by
  simp only [readN, List.range_add, List.map_append, List.map_map, Function.comp_def, Nat.add_assoc]

/-- Bytes known one by one. -/
theorem eq_readN {m : Mem} {a n : Nat} {bs : List Byte} (hl : bs.length = n) (h : ∀ i, i < n → bs[i]? = some (m.read (a + i))) :
    bs = m.readN a n := by
  refine List.ext_getElem? (fun i => ?_)
  by_cases hi : i < n
  · simp [h i hi, readN, hi]
  · rw [List.getElem?_eq_none (by omega), List.getElem?_eq_none (by simp; omega)]

end Mem

namespace State

variable {s : State}

/-- The chunks of an extent by line hold its bytes in order. -/
theorem flatMap_lineChunks (m : Mem) (fuel : Nat) : ∀ pa n, n = 0 ∨ n + pa % 64 ≤ 64 * fuel →
    (lineChunks fuel pa n).flatMap (fun c => m.readN c.1 c.2) = m.readN pa n := by
  induction fuel with
  | zero =>
      intro pa n h
      rw [show n = 0 by omega]
      rfl
  | succ fuel ih =>
      intro pa n h
      rw [lineChunks]
      split
      · next hn => rw [hn]; rfl
      · rw [List.flatMap_cons, ih _ _ (by omega), Mem.readN_append]
        congr 1
        omega

theorem flatMap_chunksOf (m : Mem) (pa n : Nat) : (chunksOf pa n).flatMap (fun c => m.readN c.1 c.2) = m.readN pa n :=
  flatMap_lineChunks m _ pa n (.inr (by omega))

theorem mem_lineChunks {fuel : Nat} : ∀ {pa n : Nat} {c : Nat × Nat}, c ∈ lineChunks fuel pa n → pa ≤ c.1 ∧ c.1 < pa + n := by
  induction fuel with
  | zero => exact fun h => by cases h
  | succ fuel ih =>
      intro pa n c h
      rw [lineChunks] at h
      split at h
      · cases h
      · rcases List.mem_cons.mp h with rfl | h
        · exact ⟨le_rfl, by omega⟩
        · have := ih h
          exact ⟨by omega, by omega⟩

/-- A chunk of an extent begins in it. -/
theorem mem_chunksOf {pa n : Nat} {c : Nat × Nat} (h : c ∈ chunksOf pa n) : pa ≤ c.1 ∧ c.1 < pa + n := mem_lineChunks h

theorem pagesOf_zero (va : Nat) : pagesOf va 0 = [] := rfl

/-- An extent within one page. -/
theorem pagesOf_within {va n : Nat} (h0 : n ≠ 0) (h : va % 65536 + n ≤ 65536) : pagesOf va n = [(va, n)] := by
  have hm : min n (65536 - va % 65536) = n := by omega
  simp [pagesOf, pageChunks, h0, hm]

theorem pkind_hbm {pa : Nat} (h : pa < Config.hbmBytes) : pkind (pa / 64 * 64) = .hbm := by
  rw [pkind, if_pos (Nat.lt_of_le_of_lt (Nat.div_mul_le_self pa 64) h)]

/-- Where nothing is withheld a strand sees the bytes as they are. -/
theorem seeWithheld_nil {t : Strand} (h : t.withheld = []) (addr : Nat) (bs : List Byte) : seeWithheld t addr bs = bs := by
  simp [seeWithheld, h]

/-! ### Lines of HBM with nothing before their home (R243, R253, R257) -/

/-- A read of a quiet line need not wait. -/
theorem readHeld_quiet (hq : Claims.quiet s) (c : Nat × Nat) : s.readHeld c = false := by
  obtain ⟨_, _, _, _, hb, hh, _, _⟩ := hq
  simp [readHeld, awaitsLine, lineHeld, homeFree, hb, hh, NSet.mem]

/-- A cluster without CACHE banks takes no line. -/
theorem fill_without_cache {cl : Nat} (hc : s.cacheBanks cl = []) (h line pclass : Nat) : s.fill h cl line pclass = s := by
  simp [fill, takeWay, hc, oldestLine]

/-- A quiet line of HBM is read at its home, and nothing is filled. -/
theorem lineRead_quiet (hq : Claims.quiet s) (hw : s.me.withheld = []) {c : Nat × Nat} (hc : c.1 < Config.hbmBytes) (fill : Bool) (pclass : Nat) :
    lineRead fill pclass c s = ((s.mem.readN c.1 c.2, false), s) := by
  obtain ⟨hheld, hl, hcb, ha, _, _, hr, hp⟩ := hq
  have hline : s.cline (clusterOf s.ctx.core) (c.1 / 64) = none := by simp [cline, hl, Map.get?]
  have hreply : s.replyTo s.ctx.core s.ctx.strand s.ctx.num c = none := by simp [replyTo, hr]
  have hread : s.homeRead c.1 c.2 = s.mem.readN c.1 c.2 := by simp [homeRead, ha, Map.get?]
  have hgood : s.homePoison (c.1 / 64) = false := by simp [homePoison, hp, NSet.mem, poolDead, pkind_hbm hc]
  have hfill : (if fill then s.fill s.hcid (clusterOf s.ctx.core) (c.1 / 64) pclass else s) = s := by
    split
    · exact fill_without_cache hcb _ _ _
    · rfl
  simp only [lineRead, hheld, List.find?_nil, hline, hreply, hread, hgood, hfill, seeWithheld_nil hw]
  rw [agentTake_other (by rw [pkind_hbm hc]; decide)]

/-- Quiet lines of HBM read one after another. -/
theorem readLines_quiet (hq : Claims.quiet s) (hw : s.me.withheld = []) (fill : Bool) (cs : List ((Nat × Nat) × Nat))
    (hc : ∀ c ∈ cs, c.1.1 < Config.hbmBytes) : readLines fill cs s = ((cs.flatMap (fun c => s.mem.readN c.1.1 c.1.2), false), s) := by
  have go : ∀ (cs : List ((Nat × Nat) × Nat)) (bs : List Byte), (∀ c ∈ cs, c.1.1 < Config.hbmBytes) →
      cs.foldl (fun (a : (List Byte × Bool) × State) c =>
        let r := lineRead fill c.2 c.1 a.2
        ((a.1.1 ++ r.1.1, a.1.2 || r.1.2), r.2)) ((bs, false), s) = ((bs ++ cs.flatMap (fun c => s.mem.readN c.1.1 c.1.2), false), s) := by
    intro cs
    induction cs with
    | nil => simp
    | cons c cs ih =>
        intro bs h
        rw [List.foldl_cons]
        simp only [lineRead_quiet hq hw (h c (by simp)), Bool.or_self]
        rw [ih _ (fun c hc => h c (by simp [hc]))]
        simp
  exact go cs [] hc

theorem takeReplies_none (h : s.replies = []) (core strand num : Nat) : s.takeReplies core strand num = s := by
  simp only [takeReplies, h, List.filter_nil]
  rw [← h]

/-- A readable page that the cluster's TLB holds. -/
theorem page_read {fault : State → Nat → Nat → State} {va : Nat} {e : TlbEnt} (he : s.tlbHit (clusterOf s.ctx.core) s.hcid va = some e) :
    page fault .read va s = .ok (leafPa e va, e.pclass) s := by
  simp [page, he, leafFault]

/-! ### Shown extents -/

/-- An extent that shows its bytes is read as they are, in a state that stays. -/
theorem readVa_shows {fault : State → Nat → Nat → State} {va n : Nat} {bs : List Byte} (h : Claims.shows s va n bs) :
    readVa fault va n s = .ok (bs, false) s := by
  obtain ⟨hw, hl, hs⟩ := h
  split at hs
  · next addr hsp =>
      obtain ⟨hp, hb⟩ := hs
      simp only [readVa, hsp, seeWithheld_nil hw, hp, ← Mem.eq_readN hl hb]
  · next o hsp =>
      have e : bs = (List.range n).map (fun i => s.mem.read (accByte s.ctx.core s.me.tb s.g (o + i))) := by
        refine List.ext_getElem? (fun i => ?_)
        by_cases hi : i < n
        · simp [hs i hi, hi]
        · rw [List.getElem?_eq_none (by omega), List.getElem?_eq_none (by simp; omega)]
      simp only [readVa, hsp, ← e]
  · next hsp =>
      obtain ⟨hq, hpage, e, he, hpa, hb⟩ := hs
      obtain ⟨_, _, _, _, _, _, hr, _⟩ := id hq
      simp only [readVa, hsp]
      by_cases h0 : n = 0
      · subst h0
        rw [List.length_eq_zero_iff.mp hl]
        simp [translate, pagesOf_zero, Acc.gather, Acc.bind, readPages, pageLines, readLines, takeReplies_none hr]
      · have ht : translate fault .read va n s = .ok [(leafPa e va, n, e.pclass)] s := by
          simp [translate, pagesOf_within h0 hpage, Acc.gather, page_read he, Acc.bind]
        have hcs : ∀ c ∈ pageLines [(leafPa e va, n, e.pclass)], c.1.1 < Config.hbmBytes := by
          intro c hc
          simp only [pageLines, List.flatMap_cons, List.flatMap_nil, List.append_nil, List.mem_map] at hc
          obtain ⟨x, hx, rfl⟩ := hc
          exact Nat.lt_of_lt_of_le (mem_chunksOf hx).2 hpa
        have hbytes : (pageLines [(leafPa e va, n, e.pclass)]).flatMap (fun c => s.mem.readN c.1.1 c.1.2) = bs := by
          rw [Mem.eq_readN hl hb, ← flatMap_chunksOf]
          simp [pageLines, List.flatMap_map]
        simp [ht, Acc.bind, readPages, readHeld_quiet hq, readLines_quiet hq hw true _ hcs, hbytes, takeReplies_none hr]
  · exact hs.elim

/-- And loaded as they are. -/
theorem load_shows {va n : Nat} {bs : List Byte} (h : Claims.shows s va n bs) : load va n s = .ok bs s := by
  rw [load, readVa_shows h]
  rfl

end State

end Sys2Proof.Machine

namespace Sys2Proof.Proofs

open Machine Claims State

/-- A landing changes the acting strand alone. -/
theorem land_onlyMe (s : State) (dest : Dest) (dist cls : Nat) (v : Datum) :
    OnlyMe s (s.land dest dist cls v) (landedAs s dest dist cls v) := onlyMe_modMe s _

/-- A scalar load of a shown extent lands the number of its bytes. -/
theorem loadX_shows {z : Size} {natural : Bool} {d : XReg} {a : AReg} {l : Land} {s : State} {bs : List Byte}
    (h : shows s (s.ea a l.off) z.bytes bs) :
    OnlyMe s (loadX z natural d a l s) (landed s (.x d) l.dist [(s.ea a l.off, z.bytes)]
      (.x (low (if natural then (leNat bs : Int) else signedField (leNat bs) (8 * z.bytes))))) := by
  rw [loadX, load_shows h, Acc.run, loadValue_eq z natural bs h.2.1]
  exact land_onlyMe s _ _ _ _

/-- Settles O10: each load is a landing of what its extent shows. -/
theorem loadsLandTheBytesOfTheirExtent : Obligations.LoadsLandTheBytesOfTheirExtent := by
  intro i g s d dist va n v bs hg hf hp hs
  cases i
  case ld g' z r a l =>
    cases hg
    cases hf
    exact ⟨_, slotOp_performs (loadX z false r a l) hp rfl, loadX_shows hs⟩
  case ldN g' z r a l =>
    cases hg
    cases hf
    exact ⟨_, slotOp_performs (loadX z true r a l) hp rfl, loadX_shows hs⟩
  case ldv g' r a l =>
    cases hg
    cases hf
    refine ⟨_, slotOp_performs (loadV r a l) hp rfl, ?_⟩
    rw [loadV, load_shows hs, Acc.run, lanesOf_wordsOf bs (by rw [hs.2.1]; omega)]
    exact land_onlyMe s _ _ _ _
  all_goals cases hf

end Sys2Proof.Proofs
end

section
/-! An atomic at a bank where an earlier write of its strand is withheld (spec 10 R262; 16 R448): O15. -/

namespace Sys2Proof.Proofs

open Machine Claims

/-- A strand whose a0 names the first byte of its own scratchpad, where a write of its operation 1 is still withheld; its operation 2 is being performed. -/
def withheldUnderAtomic : State :=
  { State.reset with
    strands := [(0, { Strand.reset 0 with
      front := { (Strand.reset 0).front with a := (Strand.reset 0).front.a.set 0 (BitVec.ofNat 72 spadVa) }
      withheld := [⟨bankAddr 0 0, [1], none, 0, 1⟩] })]
    ctx := { Ctx.idle with slot := 2, num := 2, admitted := true } }

/-- RED.W of x1 to that byte. -/
def redThere : Instr := .red ⟨false, 0⟩ .add false 1 0 none

/-- An atomic at a bank waits for an earlier write of its strand that is withheld over its operand (R262, R448). -/
theorem atomic_waits_over {s : State} {va n addr : Nat} (hs : spotOf s.ctx.core va = .scr addr) (hw : s.withheldOver addr n = true)
    (reply : Option (XReg × Nat)) (new : Nat → Option Nat) (kind : HKind) : State.atomic va n reply new kind s = s.wait := by
  simp [State.atomic, hs, hw]

/-- The operation waits for the withheld write. -/
theorem redThere_waits : exec redThere withheldUnderAtomic = .next withheldUnderAtomic.wait := by
  have hs : spotOf 0 (withheldUnderAtomic.ea 0 0) = .scr (bankAddr 0 0) := by decide
  have hw : withheldUnderAtomic.withheldOver (bankAddr 0 0) (State.dblBytes false) = true := by decide
  have he : exec redThere withheldUnderAtomic =
      .next (State.atomOp .add false 1 (withheldUnderAtomic.ea 0 0) none withheldUnderAtomic) :=
    withheldUnderAtomic.slotOp_admitted redThere ⟨false, 0⟩ (fun s => State.atomOp .add false 1 (s.ea 0 0) none s) rfl
  rw [he, State.atomOp, atomic_waits_over (s := withheldUnderAtomic) (addr := bankAddr 0 0) hs hw]

/-- Refutes O15: an atomic of a strand that has an earlier write withheld over its operand waits for that write, as `atomic` tests before it acts (R262, R448), and the statement has no hypothesis that excludes one. -/
theorem not_atomicsUpdateTheirOperandInOneAct : ¬ Obligations.AtomicsUpdateTheirOperandInOneAct := by
  intro h
  obtain ⟨m, t, he, hb, rfl⟩ := h.1 redThere ⟨false, 0⟩ withheldUnderAtomic spadVa 4 (bankAddr 0 0) none _ rfl rfl (.inl rfl) rfl rfl rfl
  rw [redThere_waits] at he
  cases he
  exact absurd (congrArg (fun s : State => s.ctx.res) hb.rest) (by decide)

end Sys2Proof.Proofs
end

section
/-! What LAUNCH changes: a settled strand's release, the journal's next entry, and a record accepted or rejected (spec 10 R301; 12 R331 to R333, R350). -/

namespace Sys2Proof.Machine.State

variable {s t u : State}

/-! ### A settled strand -/

/-- A settled strand has no earlier operation in a queue. -/
theorem earlierGone_of_settled (h : Claims.settled s) : s.earlierGone = true := by
  obtain ⟨hops, _⟩ := h
  simp [earlierGone, hops]

/-- And everything it issued has performed at every scope. -/
theorem performed_of_settled (h : Claims.settled s) (reads : Bool) (c : Scope) : s.performed reads c = true := by
  obtain ⟨hops, hcopies, hgemvs, hpushes, hhome, hwithheld⟩ := h
  simp [performed, hops, hcopies, hgemvs, hpushes, hhome, hwithheld, seenWaits]

/-- With no request at a home and no busy line the I/O die's reads need not wait. -/
theorem sysHeld_quiet (hh : s.home = []) (hb : s.busyLines = []) (h va n : Nat) : s.sysHeld h va n = false := by
  have free (line : Nat) : s.homeFree line = true := by simp [homeFree, hh, hb, NSet.mem]
  simp [sysHeld, lineHeld, free]

/-! ### The journal's entries (R333) -/

/-- Some entry among the first n + 1 is not one of n. -/
theorem exists_not_mem_lt (js : List Nat) : ∃ i < js.length + 1, i ∉ js := by
  by_contra h
  push Not at h
  have hs : List.range (js.length + 1) ⊆ js := fun i hi => h i (List.mem_range.mp hi)
  have hl := (List.nodup_range.subperm hs).length_le
  simp at hl

/-- The entry that a new launch takes is held by no launch that is not COMPLETE. -/
theorem freeSlot_free (s : State) : ∀ k ∈ s.launches, k.st ≠ .complete → k.jslot ≠ s.freeSlot := by
  obtain ⟨i, hi, hn⟩ := exists_not_mem_lt (s.launches.map (·.jslot))
  rw [List.length_map] at hi
  intro k hk hc
  unfold freeSlot
  cases hf : (List.range (s.launches.length + 1)).find? (fun i => !s.launches.any (fun l => l.st != .complete && l.jslot == i)) with
  | none =>
      have h := List.find?_eq_none.mp hf i (List.mem_range.mpr hi)
      simp only [Bool.not_eq_true', Bool.not_eq_false, List.any_eq_true, Bool.and_eq_true, beq_iff_eq] at h
      obtain ⟨l, hl, _, rfl⟩ := h
      exact absurd (List.mem_map_of_mem hl) hn
  | some j =>
      have h := List.find?_some hf
      simp only [Bool.not_eq_true', List.any_eq_false, Bool.and_eq_true, bne_iff_ne, beq_iff_eq, not_and] at h
      exact h k hk hc

/-! ### The writes of an acceptance (R64, R332) -/

theorem foldl_busyLines {α : Type} {f : State → α → State} (h : ∀ s e, (f s e).busyLines = s.busyLines) (l : List α) :
    ∀ s : State, (l.foldl f s).busyLines = s.busyLines := by
  induction l with
  | nil => exact fun _ => rfl
  | cons e l ih => exact fun s => (ih _).trans (h s e)

theorem agentTake_busyLines (s : State) (line : Nat) (st : Mesi) : (s.agentTake line st).busyLines = s.busyLines := by
  unfold agentTake
  split <;> rfl

theorem homePut_busyLines (s : State) (pa : Nat) (bs : List Byte) (src : Bool) : (s.homePut pa bs src).busyLines = s.busyLines := by
  rw [← s.agentTake_busyLines (pa / 64) .m]
  change (s.homeWrite pa bs src).busyLines = _
  unfold homeWrite
  dsimp only
  split
  · split <;> rfl
  · split <;> split <;> rfl

theorem invalidateOthers_busyLines (s : State) (cl line : Nat) : (s.invalidateOthers cl line).busyLines = s.busyLines :=
  foldl_busyLines (fun s c => by split <;> rfl) _ s

theorem sysPut_busyLines (s : State) (pa pclass : Nat) (bs : List Byte) : (s.sysPut pa pclass bs).busyLines = s.busyLines :=
  foldl_busyLines (fun s c => by
    dsimp only
    split
    · split
      · rw [homePut_busyLines, invalidateOthers_busyLines]
      · rw [homePut_busyLines]
    · rfl) _ s

theorem sysWrite_busyLines {h va : Nat} {bs : List Byte} (e : s.sysWrite h va bs = some t) : t.busyLines = s.busyLines := by
  unfold sysWrite at e
  split at e
  · cases e
  · cases e
    exact foldl_busyLines (fun s e => s.sysPut_busyLines _ _ _) _ s

/-- A state whose next number is n. -/
def numbered (n : Nat) (s : State) : State := { s with nextId := n }

/-- Bytes laid down in the host-line agent's copy, or in memory. -/
def laidDown (pa : Nat) (bs : List Byte) (s : State) : State :=
  match s.agent.get? (pa / 64) with
  | some h => { s with agent := s.agent.set (pa / 64) { h with data := overlay h.data (pa % 64) bs } }
  | none => { s with mem := s.mem.write pa bs }

/-- The poison that a write of n bytes leaves its line. -/
def marked (line n : Nat) (src : Bool) (s : State) : State :=
  if src then { s with linePoison := s.linePoison.add line }
  else if n = 64 then { s with linePoison := s.linePoison.del line } else s

theorem homeWrite_eq (s : State) (pa : Nat) (bs : List Byte) (src : Bool) :
    s.homeWrite pa bs src = marked (pa / 64) bs.length src (laidDown pa bs (s.agentTake (pa / 64) .m)) := rfl

theorem laidDown_numbered (n : Nat) (s : State) (pa : Nat) (bs : List Byte) : laidDown pa bs (numbered n s) = numbered n (laidDown pa bs s) := by
  unfold laidDown
  change (match s.agent.get? (pa / 64) with | some h => _ | none => _) = _
  split <;> rfl

theorem marked_numbered (n : Nat) (s : State) (line k : Nat) (src : Bool) :
    marked line k src (numbered n s) = numbered n (marked line k src s) := by
  unfold marked
  split
  · rfl
  · split <;> rfl

theorem agentTake_numbered (n : Nat) (s : State) (line : Nat) (st : Mesi) :
    (numbered n s).agentTake line st = numbered n (s.agentTake line st) := by
  unfold agentTake
  split <;> rfl

theorem homePut_numbered (n : Nat) (s : State) (pa : Nat) (bs : List Byte) (src : Bool) :
    (numbered n s).homePut pa bs src = numbered n (s.homePut pa bs src) := by
  unfold homePut
  rw [homeWrite_eq, homeWrite_eq, agentTake_numbered, laidDown_numbered, marked_numbered]
  rfl

theorem invalidateOthers_numbered (n : Nat) (s : State) (cl line : Nat) :
    (numbered n s).invalidateOthers cl line = numbered n (s.invalidateOthers cl line) :=
  List.foldl_hom (numbered n) (fun s c => by
    change ite (c = cl ∨ ((s.cline c line).map (·.dirty)).getD 0 ≠ 0) _ _ =
      numbered n (ite (c = cl ∨ ((s.cline c line).map (·.dirty)).getD 0 ≠ 0) _ _)
    split <;> rfl)

theorem sysPut_numbered (n : Nat) (s : State) (pa pclass : Nat) (bs : List Byte) :
    (numbered n s).sysPut pa pclass bs = numbered n (s.sysPut pa pclass bs) :=
  List.foldl_hom (numbered n) (fun s c => by
    change ite (s.homeFree (c.1 / 64) = true) _ _ = numbered n (ite (s.homeFree (c.1 / 64) = true) _ _)
    split
    · split
      · rw [invalidateOthers_numbered, homePut_numbered]
      · rw [homePut_numbered]
    · rfl)

theorem sysWrite_numbered (n : Nat) (s : State) (h va : Nat) (bs : List Byte) :
    (numbered n s).sysWrite h va bs = (s.sysWrite h va bs).map (numbered n) := by
  have e : (pagesOf va bs.length).mapM (fun c => ((numbered n s).sysPa h c.1 true).map (fun p => (p, c))) =
      (pagesOf va bs.length).mapM (fun c => (s.sysPa h c.1 true).map (fun p => (p, c))) := rfl
  unfold sysWrite
  rw [e]
  cases (pagesOf va bs.length).mapM (fun c => (s.sysPa h c.1 true).map (fun p => (p, c))) with
  | none => rfl
  | some ps => exact congrArg some (List.foldl_hom (numbered n) (fun s e => s.sysPut_numbered n _ _ _))

theorem clearRecords_numbered (n : Nat) (s : State) (h : Nat) (areas : List Nat) :
    (numbered n s).clearRecords h areas = numbered n (s.clearRecords h areas) :=
  List.foldl_hom (numbered n) (fun s a => by
    rw [sysWrite_numbered]
    change (Option.map _ (s.sysWrite h ((s.hctx h).saveva.toNat + Config.saveStride * a) _)).getD _ = _
    cases s.sysWrite h ((s.hctx h).saveva.toNat + Config.saveStride * a) (List.replicate 64 0) <;> rfl)

theorem clearRecords_sysChange (s : State) (h : Nat) (areas : List Nat) : SysChange s (s.clearRecords h areas) :=
  SysChange.foldl (fun s a => by
    cases e : s.sysWrite h ((s.hctx h).saveva.toNat + Config.saveStride * a) (List.replicate 64 0) with
    | none => exact .refl s
    | some t => exact s.sysWrite_sysChange e) _ s

theorem clearRecords_journalStays (s : State) (h : Nat) (areas : List Nat) : JournalStays s (s.clearRecords h areas) :=
  JournalStays.foldl (fun s a => by
    cases e : s.sysWrite h ((s.hctx h).saveva.toNat + Config.saveStride * a) (List.replicate 64 0) with
    | none => exact .refl s
    | some t => exact sysWrite_journalStays e) _ s

theorem clearRecords_busyLines (s : State) (h : Nat) (areas : List Nat) : (s.clearRecords h areas).busyLines = s.busyLines :=
  foldl_busyLines (fun s a => by
    cases e : s.sysWrite h ((s.hctx h).saveva.toNat + Config.saveStride * a) (List.replicate 64 0) with
    | none => rfl
    | some t => exact sysWrite_busyLines e) _ s

/-! ### Acceptance and rejection (R42, R332) -/

/-- The launch that an acceptance adds. -/
def accepted (s : State) (h stream r : Nat) (g : Image) (starts : List Word32) (areas : List Nat) (nf : Bool) : Launch :=
  let regs := regionsOf r
  let edges := (s.journal.filter (fun l => l.hc == h && l.regions.any (fun a => regs.any (regionsClash a)))).map (·.id)
  { id := s.nextId, hc := h, stream := stream, seq := ((s.hctx h).streams.toList.getD stream StreamD.reset).nextseq
    cring := bitsAt r 64 2, cls := bitsAt r 38 2, width := g.width, ncl := bitsAt r 33 3, single := r.testBit 32, image := g.handle
    csched := r.testBit 40, regions := regs, starts := starts, st := if edges.isEmpty then .ready else .waiting, edges := edges
    gang := 0, members := [], bars := Vector.replicate 16 (0, 0), pushes := [], areas := areas, everSusp := false, replays := 0
    side := false, status := none, waited := false, notify := nf, thermal := false, markAt := none, hostVer := false
    wdog := (s.hctx h).wdog, owed := none, jslot := s.freeSlot }

/-- A context's block after one of its streams has had a launch accepted (R332, R429). -/
def countAccepted (stream : Nat) (seq : BitVec 48) (c : Hctx) : Hctx :=
  { c with
    acct := c.acct.set 0 (c.acct[0] + 1)
    streams := if hs : stream < 4 then c.streams.set stream { c.streams[stream] with nextseq := seq } else c.streams }

theorem st_accepted (s : State) (h stream r : Nat) (g : Image) (starts : List Word32) (areas : List Nat) (nf : Bool) :
    let l := s.accepted h stream r g starts areas nf
    l.st = if l.edges = [] then .ready else .waiting := by
  simp only [accepted, List.isEmpty_iff]

/-- What an acceptance comes to: the writes of its record and its save areas, its context's counts, and one launch behind the journal's. -/
theorem accept_eq (s : State) (h stream r : Nat) (g : Image) (starts : List Word32) (areas : List Nat) (nf : Bool) :
    let seq := ((s.hctx h).streams.toList.getD stream StreamD.reset).nextseq
    let v := (s.writeJournal s.freeSlot (journalBytes r starts seq)).clearRecords h areas
    s.accept h stream r g starts areas nf =
      { (numbered (s.nextId + 1) v).modHctx h (countAccepted stream (seq + 1)) with
        launches := v.launches ++ [s.accepted h stream r g starts areas nf] } :=
  congrArg (fun v : State => { v.modHctx h (countAccepted stream (((s.hctx h).streams.toList.getD stream StreamD.reset).nextseq + 1)) with
    launches := v.launches ++ [s.accepted h stream r g starts areas nf] })
    (clearRecords_numbered (s.nextId + 1) (s.writeJournal s.freeSlot
      (journalBytes r starts ((s.hctx h).streams.toList.getD stream StreamD.reset).nextseq)) h areas)

theorem SysChange.replies (a : SysChange s t) : t.replies = s.replies := congrArg (·.replies) a.rest

theorem accept_sysChange (s : State) (h stream r : Nat) (g : Image) (starts : List Word32) (areas : List Nat) (nf : Bool) :
    SysChange { s with nextId := s.nextId + 1 } (s.accept h stream r g starts areas nf) := by
  have w := (numbered (s.nextId + 1) (s.writeJournal s.freeSlot
    (journalBytes r starts ((s.hctx h).streams.toList.getD stream StreamD.reset).nextseq))).clearRecords_sysChange h areas
  rw [clearRecords_numbered] at w
  rw [accept_eq]
  have j : SysChange { s with nextId := s.nextId + 1 } (numbered (s.nextId + 1) (s.writeJournal s.freeSlot
      (journalBytes r starts ((s.hctx h).streams.toList.getD stream StreamD.reset).nextseq))) := ⟨rfl, fun _ => rfl⟩
  have m := (j.trans w).trans (modHctx_sysChange _ h (countAccepted stream
    (((s.hctx h).streams.toList.getD stream StreamD.reset).nextseq + 1)) rfl)
  exact ⟨m.rest, m.st⟩

theorem accept_busyLines (s : State) (h stream r : Nat) (g : Image) (starts : List Word32) (areas : List Nat) (nf : Bool) :
    (s.accept h stream r g starts areas nf).busyLines = s.busyLines := by
  rw [accept_eq]
  exact clearRecords_busyLines _ h areas

/-- All that an acceptance leaves alone. -/
theorem accept_rest (s : State) (h stream r : Nat) (g : Image) (starts : List Word32) (areas : List Nat) (nf : Bool) :
    { s.accept h stream r g starts areas nf with
      launches := s.launches, ctxs := s.ctxs, nextId := s.nextId, mem := s.mem, linePoison := s.linePoison, agent := s.agent
      clusters := s.clusters, home := s.home } = s := by
  have hr := congrArg (numbered s.nextId) (s.accept_sysChange h stream r g starts areas nf).rest
  have hb := s.accept_busyLines h stream r g starts areas nf
  refine Eq.trans ?_ hr
  simp only [numbered]
  rw [← hb]

/-! ### LAUNCH at its queue head (R350) -/

/-- LAUNCH of a settled strand hands its record to the scheduler, which decides at once. -/
theorem launchOp_decides {d : XReg} {a : AReg} {bs : List Byte} (hs : Claims.settled s) (hb : s.busyLines = [])
    (ho : s.owesAdmin s.hcid (leNat bs / 2 ^ 78 % 4) = false) (hl : load (s.ea a 0) 128 s = .ok bs s) :
    launchOp d a s = ((s.deviceLaunch s.hcid (leNat bs)).2.takeReplies 128 0 0).wrX d (s.deviceLaunch s.hcid (leNat bs)).1 := by
  obtain ⟨_, _, _, _, hhome, _⟩ := id hs
  have ho' : s.owesAdmin s.hcid (bitsAt (leNat bs) 78 2) = false := ho
  rw [launchOp, earlierGone_of_settled hs, performed_of_settled hs, hl]
  simp [Acc.run, ho', sysHeld_quiet hhome hb]

theorem deviceLaunch_foreign {h r : Nat} (hh : r / 2 ^ 72 % 64 ≠ h) :
    s.deviceLaunch h r = (0x8000000000000001, s.reject h (r / 2 ^ 78 % 4) 1) := by
  have hh' : bitsAt r 72 6 ≠ h := hh
  rw [deviceLaunch, if_pos (Or.inl hh')]
  rfl

variable {h r : Nat} (hh : r / 2 ^ 72 % 64 = h) (hm : ((s.hctx h).streams.toList.getD (r / 2 ^ 78 % 4) StreamD.reset).mode = 2)
  (hz : r / 2 ^ 80 % 2 ^ 48 = 0)

include hh hm hz

theorem deviceLaunch_full (hj : s.journalRoom = false) : s.deviceLaunch h r = (0x8000000000000002, s) := by
  have hc : ¬(bitsAt r 72 6 ≠ h ∨ ((s.hctx h).streams.toList.getD (bitsAt r 78 2) StreamD.reset).mode ≠ 2 ∨ bitsAt r 80 48 ≠ 0) :=
    fun hn => hn.elim (· hh) (fun hn => hn.elim (· hm) (· hz))
  rw [deviceLaunch, if_neg hc, hj]
  rfl

theorem deviceLaunch_taken {g : Image} {st : List Word32} {as : List Nat} (hj : s.journalRoom = true)
    (hk : s.checkLaunch h (r / 2 ^ 78 % 4) 0 r = .ok (g, st)) (ha : s.freeAreas h g.cores.length = some as) :
    s.deviceLaunch h r = (((s.hctx h).streams.toList.getD (r / 2 ^ 78 % 4) StreamD.reset).nextseq.setWidth 64,
      s.accept h (r / 2 ^ 78 % 4) r g st as false) := by
  have hc : ¬(bitsAt r 72 6 ≠ h ∨ ((s.hctx h).streams.toList.getD (bitsAt r 78 2) StreamD.reset).mode ≠ 2 ∨ bitsAt r 80 48 ≠ 0) :=
    fun hn => hn.elim (· hh) (fun hn => hn.elim (· hm) (· hz))
  have hk' : s.checkLaunch h (bitsAt r 78 2) 0 r = .ok (g, st) := hk
  have ha' : s.freeAreas h g.ncores = some as := ha
  rw [deviceLaunch, if_neg hc, hj, Bool.not_true, if_neg Bool.false_ne_true, hk']
  simp only [ha']
  rfl

end Sys2Proof.Machine.State

namespace Sys2Proof.Proofs

open Machine Claims State

theorem wrX_onlyMe (s : State) (d : XReg) (v : XWord) : OnlyMe s (s.wrX d v) (withX s.me d v) := by
  unfold State.wrX withX
  split
  · exact ⟨rfl, fun _ _ => rfl, rfl, fun _ => rfl⟩
  · exact onlyMe_modMe s _

/-- The acting state is the state, but for its launches' marks. -/
theorem acting_eq (i : Instr) (s : State) : ∃ ls, Claims.acting i s = { s with launches := ls } := by
  unfold Claims.acting noteSide
  split
  · exact ⟨_, rfl⟩
  · split <;> exact ⟨_, rfl⟩

theorem low_nextseq (v : BitVec 48) : low v.toNat = v.setWidth 64 := by
  apply BitVec.eq_of_toInt_eq
  simp [low]

/-- A state with what LAUNCH changes taken from s. -/
def restored (s v : State) : State :=
  { v with
    strands := s.strands, launches := s.launches, ctxs := s.ctxs, nextId := s.nextId, mem := s.mem
    linePoison := s.linePoison, agent := s.agent, clusters := s.clusters, home := s.home }

/-- Settles O23: a settled LAUNCH is the scheduler's decision on the record, and its result written to xD. -/
theorem launchJournalsItsRecordOrReportsWhy : Obligations.LaunchJournalsItsRecordOrReportsWhy := by
  intro g d a s bs i u h r stream e hp hs hb hr ho hl
  obtain ⟨ls, hu⟩ : ∃ ls, u = { s with launches := ls } := acting_eq i s
  have hx : exec i s = .next (((u.deviceLaunch h r).2.takeReplies 128 0 0).wrX d (u.deviceLaunch h r).1) := by
    have hd : launchOp d a u = ((u.deviceLaunch u.hcid r).2.takeReplies 128 0 0).wrX d (u.deviceLaunch u.hcid r).1 := by
      clear_value u
      subst hu
      exact launchOp_decides (s := { s with launches := ls }) hs hb ho hl
    have hh : u.hcid = h := by rw [hu]; rfl
    rw [hh] at hd
    exact (slotOp_acting (launchOp d a) hp).trans (congrArg Host.Outcome.next hd)
  have hme : u.me = s.me := by rw [hu]; rfl
  have hru : u.replies = [] := by rw [hu]; exact hr
  have hctx : u.hctx h = s.hctx h := by rw [hu]; rfl
  refine ⟨fun hf => ?_, fun hh hm hz => ⟨fun hj => ?_, fun im st as hj hk ha => ?_⟩⟩
  · have hc := u.raise_sysChange h (ctxRecord h 0x30 stream stream 1)
    have hr' : (u.reject h stream 1).replies = [] := hc.replies.trans hru
    have hme' : (u.reject h stream 1).me = s.me := hc.me.trans hme
    rw [deviceLaunch_foreign hf] at hx
    refine ⟨_, hx, ?_⟩
    rw [takeReplies_none hr', ← hme']
    exact wrX_onlyMe _ d _
  · rw [deviceLaunch_full hh (by rw [hctx]; exact hm) hz hj] at hx
    refine ⟨_, hx, ?_⟩
    rw [takeReplies_none hru, ← hme]
    exact wrX_onlyMe u d _
  · have hc := u.accept_sysChange h stream r im st as false
    have hr' : (u.accept h stream r im st as false).replies = [] := hc.replies.trans hru
    have hme' : (u.accept h stream r im st as false).me = s.me := hc.me.trans hme
    have heq := u.accept_eq h stream r im st as false
    rw [hctx] at heq
    rw [deviceLaunch_taken hh (by rw [hctx]; exact hm) hz hj hk ha, takeReplies_none hr', hctx, ← low_nextseq] at hx
    have hw := wrX_onlyMe (u.accept h stream r im st as false) d (low e.nextseq.toNat)
    have hj' : JournalStays u ((u.writeJournal u.freeSlot (journalBytes r st e.nextseq)).clearRecords h as) :=
      JournalStays.trans (.of_eq rfl) (clearRecords_journalStays _ h as)
    refine ⟨_, _, u.accepted h stream r im st as false, hx, ?launches, hj', ?me, ?id, rfl, rfl, ?seq, rfl, rfl, rfl,
      u.st_accepted h stream r im st as false, u.freeSlot_free, ?mem, ?rest⟩
    case launches => exact (congrArg (·.launches) hw.rest).trans (congrArg (·.launches) heq)
    case me => exact hw.mine.trans (by rw [hme'])
    case id => exact congrArg (·.nextId) hu
    case seq => exact congrArg (fun c => (c.streams.toList.getD stream StreamD.reset).nextseq) hctx
    case mem => exact (congrArg (·.mem) hw.rest).trans (congrArg (·.mem) heq)
    case rest =>
      refine (congrArg (restored s) hw.rest).trans ((congrArg (restored s) (u.accept_rest h stream r im st as false)).trans ?_)
      rw [hu]
      rfl

end Sys2Proof.Proofs
end

section
/-! What a mailbox command leaves: its answer, and the parts of the state that the unregistering of an arena, the release of banks and the protection of pages leave alone (spec 13 R368; 14 R384; 17 R463, R464). -/

namespace Sys2Proof.Machine.State

open Claims

variable {s t : State}

/-! ### The answer (R463) -/

/-- An answer frees the mailbox, drops its turns and uses its reads' answers up. -/
theorem answer_eq (s : State) (status value : Nat) : s.answer status value = answered s status value := by
  unfold answer answered giveUp giveBack
  split
  · next h => simp [closeLines, dropTurns, keepLines, takeReplies]
  · next h =>
      have hf : s.home.filter (fun r => !isTurn (ioTurn 1 0) r) = s.home := by
        rw [List.filter_eq_self]
        intro r hr
        simp only [taken, List.any_eq_true, not_exists, not_and, Bool.or_eq_true, not_or] at h
        simpa using (h r hr).1
      rw [hf]
      rfl

section

variable {op : Nat} {u : Uses} {ok : Cmd → Bool} {run : Cmd → State → Answer}

/-- A command that is not rung changes nothing (log entry 2). -/
theorem command_not_rung (h : s.mbox.busy = false) : s.command op u ok run = s := by simp [command, h]

theorem command_fields (hb : s.mbox.busy = true) (ho : s.mbox.cmd[0].toNat = op) (hf : fieldsOk u (cmdOf s.mbox) = false) :
    s.command op u ok run = answered s 2 0 := by simp [command, hb, ho, hf, answer_eq]

variable (hr : rung s op u) (hk : ok (cmdOf s.mbox) = true)

include hr hk

theorem command_ok {v : Nat} (h : run (cmdOf s.mbox) s = .ok v t) : s.command op u ok run = answered t 0 v := by
  obtain ⟨hb, ho, hf⟩ := hr
  simp [command, hb, ho, hf, hk, h, answer_eq]

theorem command_refused (h : run (cmdOf s.mbox) s = .refused) : s.command op u ok run = answered s 1 0 := by
  obtain ⟨hb, ho, hf⟩ := hr
  simp [command, hb, ho, hf, hk, h, answer_eq]

theorem command_invalid (h : run (cmdOf s.mbox) s = .invalid) : s.command op u ok run = answered s 2 0 := by
  obtain ⟨hb, ho, hf⟩ := hr
  simp [command, hb, ho, hf, hk, h, answer_eq]

end

/-- Where no request waits and no line is busy, a command's effect needs no turns. -/
theorem turned_idle {lines : List Nat} {run : State → Answer} {v : Nat} (hq : homesFree s) (h : run s = .ok v t) :
    turned lines run s = .ok v t := by
  obtain ⟨hh, hb⟩ := hq
  have hm : s.linesMine (ioTurn 1 0) lines = true := by simp [linesMine, lineMine_idle hh, hb, NSet.mem]
  simp [turned, hm, asMine_idle hh, h, giveBack_idle hh]

/-- And it reads without waiting. -/
theorem reading_idle {h va n : Nat} {run : State → Answer} (hq : homesFree s) : reading h va n run s = run s := by
  simp [reading, sysHeld_quiet hq.1 hq.2]

/-! ### What goes with a context (R368, R384) -/

/-- A mapping removed leaves all but the mapping table. -/
theorem removeMap_frame (s : State) (k : MKey) : ∃ slots cells, s.removeMap k = { s with slots := slots, cells := cells } := by
  unfold removeMap modSlot
  split
  · exact ⟨_, _, rfl⟩
  · exact ⟨_, _, rfl⟩
  · exact ⟨_, _, rfl⟩

theorem foldl_removeMap_frame (ks : List MKey) (s : State) :
    ∃ slots cells, ks.foldl removeMap s = { s with slots := slots, cells := cells } := by
  induction ks generalizing s with
  | nil => exact ⟨_, _, rfl⟩
  | cons k ks ih =>
      obtain ⟨a, b, e⟩ := s.removeMap_frame k
      obtain ⟨a', b', e'⟩ := ih (s.removeMap k)
      exact ⟨a', b', by rw [List.foldl_cons, e', e]⟩

theorem foldl_banks_frame {α : Type} {f : State → α → State} (h : ∀ s e, ∃ mem full poison clusters,
      f s e = { s with mem := mem, full := full, poison := poison, clusters := clusters }) (l : List α) (s : State) :
    ∃ mem full poison clusters, l.foldl f s = { s with mem := mem, full := full, poison := poison, clusters := clusters } := by
  induction l generalizing s with
  | nil => exact ⟨_, _, _, _, rfl⟩
  | cons e l ih =>
      obtain ⟨a, b, c, d, e'⟩ := h s e
      obtain ⟨a', b', c', d', e''⟩ := ih (f s e)
      exact ⟨a', b', c', d', by rw [List.foldl_cons, e'', e']⟩

/-- Banks given up leave all but the clusters and their bytes and bits. -/
theorem releaseBanks_frame (s : State) (h : Nat) :
    ∃ mem full poison clusters, s.releaseBanks h = { s with mem := mem, full := full, poison := poison, clusters := clusters } :=
  foldl_banks_frame (fun _ _ => foldl_banks_frame (fun _ _ => ⟨_, _, _, _, rfl⟩) _ _) _ s

/-- An arena unregistered: besides its blocks and its mappings, its entries in pfx go and its record is reset. -/
theorem unregister_frame (s : State) (h : Nat) : ∃ slots cells blks, s.unregister h =
    { s.modMed h (fun _ => MedRec.reset) with
      pfx := s.pfx.filter (fun e => e.2.hc != h), slots := slots, cells := cells, blks := blks } := by
  obtain ⟨slots, cells, e⟩ := foldl_removeMap_frame (s.ctxKeys h) s
  refine ⟨slots, cells, s.blks.filter (fun e => !(decide ((s.med h).base ≤ e.1 ∧ e.1 < (s.med h).base + (s.med h).count))), ?_⟩
  rw [unregister, e]
  rfl

/-- An image's pages made read-only leave all but memory and the translations held. -/
theorem protectPages_frame (s : State) (h va n : Nat) :
    ∃ mem full poison clusters, s.protectPages h va n = { s with mem := mem, full := full, poison := poison, clusters := clusters } :=
  foldl_banks_frame (fun s c => by split <;> exact ⟨_, _, _, _, rfl⟩) _ s

/-! ### A page-table entry written (R373) -/

/-- A home's write of part of a line of the part's own memory that no host line covers: its bytes, and what the scheduler notes. -/
theorem homePut_plain {pa : Nat} {bs : List Byte} (ha : s.agent = []) (hk : pkind (pa / 64 * 64) ≠ .host) (hl : bs.length ≠ 64) :
    s.homePut pa bs false = ({ s with mem := s.mem.write pa bs } : State).noteWrite pa bs.length := by
  have ht : s.agentTake (pa / 64) .m = s := by simp [agentTake, hk]
  have hg : s.agent.get? (pa / 64) = none := by rw [ha]; rfl
  rw [homePut, homeWrite_eq, ht]
  simp [marked, laidDown, hg, hl]

/-! ### Leaves dropped (R377) -/

/-- Every TLB loses the leaves that an invalidation names. -/
theorem cluster_dropLeaves {d : Drop} (h : s.dropLeaves d = some t) (cl : Nat) :
    t.cluster cl = { s.cluster cl with tlb := (s.cluster cl).tlb.filter (fun e => !d.names e) } := by
  rw [dropLeaves] at h
  split at h
  · cases h
  · cases h
    have e := Map.get?_map s.clusters (fun _ k => { k with tlb := k.tlb.filter (fun t => !d.names t) }) cl
    simp only [cluster, Map.getD, e]
    cases s.clusters.get? cl <;> rfl

end Sys2Proof.Machine.State

namespace Sys2Proof.Proofs

open Machine Claims State

variable {s : State}

theorem hccreate_answers (hr : rung s 0x01 { hc := true }) : exec .hccreate s = .next (
    if (s.hctx (cmdOf s.mbox).hc).st = .free then
      answered { s.setHctx (cmdOf s.mbox).hc (Hctx.fresh .live (s.hctx (cmdOf s.mbox).hc).rootpa) with
        reserved := (tableBlocks s.mem 3 (rootBlock (s.hctx (cmdOf s.mbox).hc) * 131072)).foldl NSet.add s.reserved } 0 0
    else answered s 1 0) := by
  refine congrArg Host.Outcome.next ?_
  split
  · next h => exact command_ok hr rfl (by simp [hcCreate, h, reserveTables])
  · next h => exact command_refused hr rfl (by simp [hcCreate, h])

theorem hcdestroy_refused (hr : rung s 0x02 { hc := true })
    (h : (s.hctx (cmdOf s.mbox).hc).st = .free ∨ s.journal.any (fun l => l.hc == (cmdOf s.mbox).hc) = true) :
    exec .hcdestroy s = .next (answered s 1 0) :=
  congrArg Host.Outcome.next (command_refused hr rfl (by simp only [hcDestroy, h, if_true]))

/-- The state without a context's images, arena and banks. -/
def without (s : State) (h : Nat) : State := (({ s with images := s.images.filter (fun g => g.hc != h) } : State).unregister h).releaseBanks h

theorem without_frame (s : State) (h : Nat) : ∃ slots cells blks mem full poison clusters, without s h =
    { s.modMed h (fun _ => MedRec.reset) with
      images := s.images.filter (fun g => g.hc != h), pfx := s.pfx.filter (fun e => e.2.hc != h), slots := slots, cells := cells
      blks := blks, mem := mem, full := full, poison := poison, clusters := clusters } := by
  obtain ⟨slots, cells, blks, hu⟩ := ({ s with images := s.images.filter (fun g => g.hc != h) } : State).unregister_frame h
  obtain ⟨mem, full, poison, clusters, hb⟩ := (({ s with images := s.images.filter (fun g => g.hc != h) } : State).unregister h).releaseBanks_frame h
  refine ⟨slots, cells, blks, mem, full, poison, clusters, ?_⟩
  rw [without, hb, hu]
  rfl

/-- HCDESTROY of a context that may go leaves the state without what it had, the context free, and no table but the others' reserved. -/
theorem hcDestroy_runs {c : Cmd} (hf : (s.hctx c.hc).st ≠ .free) (hj : s.journal.any (fun l => l.hc == c.hc) = false) (hq : homesFree s) :
    ∃ reserved, hcDestroy c s = .ok 0 { (without s c.hc).modHctx c.hc (fun k => { k with st := .free }) with reserved := reserved } := by
  have hn : ¬((s.hctx c.hc).st = .free ∨ s.journal.any (fun l => l.hc == c.hc) = true) := by simp [hf, hj]
  refine ⟨((without s c.hc).modHctx c.hc (fun k => { k with st := .free })).tablesOf, ?_⟩
  rw [hcDestroy, if_neg hn]
  refine turned_idle hq ?_
  simp only [List.foldl_cons, List.foldl_nil, giveUp_idle hq.1]
  rfl

theorem hcdestroy_answers (hr : rung s 0x02 { hc := true }) (hf : (s.hctx (cmdOf s.mbox).hc).st ≠ .free)
    (hj : s.journal.any (fun l => l.hc == (cmdOf s.mbox).hc) = false) (hq : homesFree s) :
    ∃ t, exec .hcdestroy s = .next t ∧ t.mbox = (answered s 0 0).mbox ∧ (t.hctx (cmdOf s.mbox).hc).st = .free ∧
      (t.hctx (cmdOf s.mbox).hc).med = MedRec.reset ∧ t.images = s.images.filter (fun g => g.hc != (cmdOf s.mbox).hc) ∧
      t.pfx = s.pfx.filter (fun e => e.2.hc != (cmdOf s.mbox).hc) ∧ t.strands = s.strands ∧ t.launches = s.launches ∧
      ∀ h, h ≠ (cmdOf s.mbox).hc → t.hctx h = s.hctx h := by
  obtain ⟨reserved, hd⟩ := hcDestroy_runs hf hj hq
  obtain ⟨slots, cells, blks, mem, full, poison, clusters, hw⟩ := without_frame s (cmdOf s.mbox).hc
  have hctx (j : Nat) : ((without s (cmdOf s.mbox).hc).modHctx (cmdOf s.mbox).hc (fun k => { k with st := .free })).hctx j =
      if j = (cmdOf s.mbox).hc then { s.hctx (cmdOf s.mbox).hc with st := .free, med := MedRec.reset } else s.hctx j := by
    have hm (i : Nat) : (without s (cmdOf s.mbox).hc).hctx i = (s.modMed (cmdOf s.mbox).hc (fun _ => MedRec.reset)).hctx i :=
      (congrArg (fun v : State => v.hctx i) hw :)
    simp only [hctx_modHctx, hm, modMed, if_true]
    split <;> rfl
  refine ⟨_, congrArg Host.Outcome.next (command_ok hr rfl hd), ?_, ?_, ?_, ?_, ?_, ?_, ?_, fun h hne => ?_⟩
  · exact (congrArg (fun v : State => ({ v.mbox with busy := false, result := BitVec.ofNat 64 (0 + 0 * 256) } : Mailbox)) hw :)
  · exact (congrArg (·.st) (hctx _)).trans (by rw [if_pos rfl])
  · exact (congrArg (·.med) (hctx _)).trans (by rw [if_pos rfl])
  · exact (congrArg (fun v : State => v.images) hw :)
  · exact (congrArg (fun v : State => v.pfx) hw :)
  · exact (congrArg (fun v : State => v.strands) hw :)
  · exact (congrArg (fun v : State => v.launches) hw :)
  · exact (hctx h).trans (if_neg hne)

theorem hcrestart_answers (hr : rung s 0x03 { hc := true }) : exec .hcrestart s = .next (
    if (s.hctx (cmdOf s.mbox).hc).st = .killed then
      answered (s.setHctx (cmdOf s.mbox).hc { s.hctx (cmdOf s.mbox).hc with st := .live }) 0 0
    else answered s 1 0) := by
  refine congrArg Host.Outcome.next ?_
  split
  · next h => exact command_ok hr rfl (by simp [hcRestart, h, modHctx])
  · next h => exact command_refused hr rfl (by simp [hcRestart, h])

/-- RESIDE of an image whose sections are as they lie makes it resident. -/
theorem residency_runs {c : Cmd} {i : Image} (hl : (s.hctx c.hc).st = .live) (hq : homesFree s)
    (hi : s.buildImage c.hc c.va1 c.va2 = .ok (i, [])) : ∃ mem full poison clusters,
    residency c s = .ok (s.nextId % 2 ^ 32) { s with
      nextId := s.nextId + 1, mem := mem, full := full, poison := poison, clusters := clusters
      images := s.images ++ [{ i with handle := s.nextId % 2 ^ 32 }] } := by
  obtain ⟨mem, full, poison, clusters, hp⟩ := ({ s with nextId := s.nextId + 1 } : State).protectPages_frame c.hc c.va1 (s.imageSize c.hc c.va1)
  have hs : settleImage c s = .ok (s.nextId % 2 ^ 32) { s with
      nextId := s.nextId + 1, mem := mem, full := full, poison := poison, clusters := clusters
      images := s.images ++ [{ i with handle := s.nextId % 2 ^ 32 }] } := by
    rw [settleImage, hi]
    refine turned_idle hq ?_
    simp only [residentImage, writeBack, backChunks, List.flatMap_nil, List.foldl_nil, newId, hp]
  refine ⟨mem, full, poison, clusters, ?_⟩
  rw [residency, if_neg (by simp [hl]), reading_idle hq, reading_idle hq]
  split
  · exact hs
  · rw [reading_idle hq]
    exact hs

theorem reside_answers (hr : rung s 0x10 { hc := true, va1 := true, va2 := true }) (h1 : (cmdOf s.mbox).va1 % 16 = 0)
    (h2 : (cmdOf s.mbox).va2 % 8 = 0) :
    ((s.hctx (cmdOf s.mbox).hc).st ≠ .live → exec .reside s = .next (answered s 1 0)) ∧
    (∀ i, (s.hctx (cmdOf s.mbox).hc).st = .live → s.home = [] → s.busyLines = [] →
      s.buildImage (cmdOf s.mbox).hc (cmdOf s.mbox).va1 (cmdOf s.mbox).va2 = .ok (i, []) → ∃ t, exec .reside s = .next t ∧
        t.mbox = (answered s 0 (s.nextId % 2 ^ 32)).mbox ∧ t.images = s.images ++ [{ i with handle := s.nextId % 2 ^ 32 }] ∧
        t.nextId = s.nextId + 1 ∧ t.strands = s.strands ∧ t.launches = s.launches) := by
  have hk : ((cmdOf s.mbox).va1 % 16 == 0 && (cmdOf s.mbox).va2 % 8 == 0) = true := by simp [h1, h2]
  refine ⟨fun hl => ?_, fun i hl hh hb hi => ?_⟩
  · exact congrArg Host.Outcome.next (command_refused hr hk (by simp [residency, hl]))
  · obtain ⟨mem, full, poison, clusters, e⟩ := residency_runs hl ⟨hh, hb⟩ hi
    exact ⟨_, congrArg Host.Outcome.next (command_ok hr hk e), rfl, rfl, rfl, rfl, rfl⟩

theorem unload_answers (hr : rung s 0x11 { hc := true, w1 := true }) (hw : (cmdOf s.mbox).w1 < 2 ^ 32)
    (hf : (s.hctx (cmdOf s.mbox).hc).st ≠ .free) :
    let c := cmdOf s.mbox
    let mine (g : Image) : Bool := g.hc == c.hc && g.handle == c.w1
    exec .unload s = .next (
      if s.images.any mine = false then answered s 2 0
      else if s.journal.any (fun l => l.hc == c.hc && l.image == c.w1) = true then answered s 1 0
      else answered { s with images := s.images.filter (fun g => !mine g) } 0 0) := by
  have hk : decide ((cmdOf s.mbox).w1 < 2 ^ 32) = true := decide_eq_true hw
  intro c mine
  refine congrArg Host.Outcome.next ?_
  split
  · next hm => exact command_invalid hr hk (by rw [unloadImage, if_neg hf, show s.images.any (fun g => g.hc == c.hc && g.handle == c.w1) = false from hm]; rfl)
  · next hm =>
      have hm' : s.images.any (fun g => g.hc == c.hc && g.handle == c.w1) = true := eq_true_of_ne_false hm
      split
      · next hj => exact command_refused hr hk (by rw [unloadImage, if_neg hf, hm', if_pos hj]; rfl)
      · next hj => exact command_ok hr hk (by rw [unloadImage, if_neg hf, hm', if_neg hj]; rfl)

theorem ptewrite_answers {a : Nat} (hr : rung s 0x20 { hc := true, sub := true, va1 := true, w1 := true }) (hs : (cmdOf s.mbox).sub < 4)
    (hf : (s.hctx (cmdOf s.mbox).hc).st ≠ .free) (he : s.entryAt (cmdOf s.mbox).hc (cmdOf s.mbox).sub (cmdOf s.mbox).va1 = some a) :
    let c := cmdOf s.mbox
    (s.entryOk c.sub c.w1 = false → exec .ptewrite s = .next (answered s 2 0)) ∧
    (s.entryOk c.sub c.w1 = true → homesFree s → s.agent = [] → pkind (a / 64 * 64) ≠ .host →
      ∃ t, exec .ptewrite s = .next t ∧
      t.mbox = (answered s 0 0).mbox ∧
      (∀ x, t.mem.read x = if a ≤ x ∧ x < a + 8 then (leBytes 8 c.w1).getD (x - a) 0 else s.mem.read x) ∧
      t.reserved = (if c.w1.testBit 63 && !c.w1.testBit 62 then s.reserved.add (bitsAt c.w1 17 35) else s.reserved) ∧
      { t with mem := s.mem, mbox := s.mbox, reserved := s.reserved, ctxs := s.ctxs, launches := s.launches, replies := s.replies } = s) := by
  have hk : decide ((cmdOf s.mbox).sub < 4) = true := decide_eq_true hs
  intro c
  refine ⟨fun ho => ?_, fun ho hq ha hh => ?_⟩
  · exact congrArg Host.Outcome.next (command_invalid hr hk (by rw [pteWrite, if_neg hf, he]; simp [c, ho]))
  · have hp : s.homePut a (leBytes 8 c.w1) false = ({ s with mem := s.mem.write a (leBytes 8 c.w1) } : State).noteWrite a (leBytes 8 c.w1).length :=
      homePut_plain ha hh (by simp [leBytes])
    have hrun : pteWrite c s = .ok 0 { s.homePut a (leBytes 8 c.w1) false with
        reserved := if c.w1.testBit 63 && !c.w1.testBit 62 then s.reserved.add (bitsAt c.w1 17 35) else s.reserved } := by
      rw [pteWrite, if_neg hf, he]
      simp only [ho, Bool.not_true, Bool.false_eq_true, if_false]
      refine turned_idle hq ?_
      rw [hp]
      split <;> rfl
    rw [hp] at hrun
    refine ⟨_, congrArg Host.Outcome.next (command_ok hr hk hrun), rfl, fun x => ?_, rfl, ?_⟩
    · exact (Mem.read_write s.mem a _ x).trans (by rw [length_leBytes])
    · have hh' : s.home.filter (fun r => !isTurn (ioTurn 1 0) r) = s.home := by rw [hq.1]; rfl
      change ({ s with home := s.home.filter (fun r => !isTurn (ioTurn 1 0) r) } : State) = s
      rw [hh']

theorem tlbdrop_answers (hr : rung s 0x21 { hc := true, sub := true, va1 := true }) (hf : (s.hctx (cmdOf s.mbox).hc).st ≠ .free)
    (hw : s.walks = []) (hh : s.home = []) (hs : ∀ e ∈ s.strands, e.2.withheld = []) (d : Drop)
    (hd : d = if (cmdOf s.mbox).sub = 0 then .page (cmdOf s.mbox).hc (cmdOf s.mbox).va1 else .hc (cmdOf s.mbox).hc)
    (hk : ((cmdOf s.mbox).sub == 0 || ((cmdOf s.mbox).sub == 1 && (cmdOf s.mbox).va1 == 0)) = true) :
    ∃ t, exec .tlbdrop s = .next t ∧ { t with clusters := s.clusters } = answered s 0 0 ∧
      ∀ cl, t.cluster cl = { s.cluster cl with tlb := (s.cluster cl).tlb.filter (fun e => !d.names e) } := by
  have hu : s.leafUsed d = false := by
    simp only [leafUsed, hh, List.any_nil, Bool.false_or, List.any_eq_false]
    intro e he
    simp [hs e he]
  have hdrop : s.dropLeaves d = some { s with
      clusters := s.clusters.map (fun e => (e.1, { e.2 with tlb := e.2.tlb.filter (fun t => !d.names t) })) } := by
    simp [dropLeaves, hu, hw]
  have hrun : tlbDrop (cmdOf s.mbox) s = .ok 0 { s with
      clusters := s.clusters.map (fun e => (e.1, { e.2 with tlb := e.2.tlb.filter (fun t => !d.names t) })) } := by
    rw [tlbDrop, if_neg hf, ← hd, hdrop]
  exact ⟨_, congrArg Host.Outcome.next (command_ok hr hk hrun), rfl, fun cl => (cluster_dropLeaves hdrop cl :)⟩

/-- Settles O45: each command by its answer. -/
theorem contextImageAndTranslationCommands : Obligations.ContextImageAndTranslationCommands := by
  intro s c k
  refine ⟨fun hb => ⟨congrArg Host.Outcome.next (command_not_rung hb), congrArg Host.Outcome.next (command_not_rung hb)⟩,
    fun hb ho hf => congrArg Host.Outcome.next (command_fields hb ho hf), hccreate_answers,
    fun hr => ⟨hcdestroy_refused hr, hcdestroy_answers hr⟩, hcrestart_answers, reside_answers, unload_answers,
    fun a hr hs hf he => ptewrite_answers hr hs hf he, fun hr hf hw hh hs => ⟨fun h0 => ?_, fun h1 hz => ?_⟩⟩
  · exact tlbdrop_answers hr hf hw hh hs (.page c.hc c.va1) (if_pos h0).symm (by simp [c] at h0; simp [h0])
  · exact tlbdrop_answers hr hf hw hh hs (.hc c.hc) (if_neg (h1 ▸ Nat.one_ne_zero)).symm (by simp [c] at h1 hz; simp [h1, hz])

end Sys2Proof.Proofs
end

section
/-! The kind of slot that a decoded instruction belongs to: what an opcode map's rows read are forms of its own slot (spec 06 R102 to R114). -/

namespace Sys2Proof

/-- The kind of slot of a form. -/
def Instr.kind (i : Instr) : Option SlotKind := i.enc.map (·.1)

/-- Whatever a reading gives has the property. -/
def Gives (P : Instr → Prop) (o : Option Instr) : Prop := ∀ i, o = some i → P i

namespace Gives

variable {P : Instr → Prop}

theorem bind {α : Type} {o : Option α} {k : α → Option Instr} (h : ∀ a, Gives P (k a)) : Gives P (o >>= k) := by
  intro i hi
  obtain ⟨a, _, ha⟩ := Option.bind_eq_some_iff.mp hi
  exact h a i ha

theorem pure {j : Instr} (h : P j) : Gives P (Pure.pure j) := by
  rintro i ⟨⟩
  exact h

theorem ite {c : Prop} [Decidable c] {a b : Option Instr} (ha : Gives P a) (hb : Gives P b) : Gives P (if c then a else b) := by
  split
  · exact ha
  · exact hb

theorem pure_ite {c : Prop} [Decidable c] {a b : Instr} (ha : P a) (hb : P b) : Gives P (Pure.pure (if c then a else b)) := by
  split
  · exact .pure ha
  · exact .pure hb

end Gives

theorem sMap_gives : ∀ r ∈ sMap, ∀ f lim, Gives (fun i => i.kind = some .s) (r.2 f lim) := by
  simp only [sMap, List.forall_mem_append, List.forall_mem_cons, List.not_mem_nil, false_imp_iff, implies_true, and_true]
  repeat' apply And.intro
  all_goals
    intro f lim
    repeat' refine Gives.bind fun _ => ?_
  all_goals first | exact Gives.pure rfl | exact Gives.pure_ite rfl rfl

theorem gives_pVShift {P : Instr → Prop} {mk : Guard → VReg → VReg → VCount → QReg → Instr} (h : ∀ g d s t m, P (mk g d s t m))
    (f : Fields) (lim : Option Nat) : Gives P (pVShift mk f lim) := by
  repeat' refine Gives.bind fun _ => ?_
  refine .ite ?_ ?_
  all_goals
    repeat' refine Gives.bind fun _ => ?_
    exact .pure (h _ _ _ _ _)

theorem gives_pVbcast {P : Instr → Prop} (h : ∀ g d s m, P (.vbcast g d s m)) (f : Fields) (lim : Option Nat) :
    Gives P (pVbcast f lim) := by
  repeat' refine Gives.bind fun _ => ?_
  cases lim
  · refine .ite ?_ ?_
    all_goals
      repeat' refine Gives.bind fun _ => ?_
      exact .pure (h _ _ _ _)
  · refine Gives.bind fun _ => ?_
    exact .pure (h _ _ _ _)

theorem vMap_gives : ∀ r ∈ vMap, ∀ f lim, Gives (fun i => i.kind = some .v) (r.2 f lim) := by
  simp only [vMap, List.forall_mem_append, List.forall_mem_cons, List.not_mem_nil, false_imp_iff, implies_true, and_true]
  repeat' apply And.intro
  any_goals exact gives_pVShift (fun _ _ _ _ _ => rfl)
  any_goals exact gives_pVbcast (fun _ _ _ _ => rfl)
  all_goals
    intro f lim
    repeat' refine Gives.bind fun _ => ?_
  all_goals first | exact Gives.pure rfl | exact Gives.pure_ite rfl rfl

theorem xMap_gives : ∀ r ∈ xMap, ∀ f lim, Gives (fun i => i.kind = some .x) (r.2 f lim) := by
  simp only [xMap, List.forall_mem_cons, List.not_mem_nil, false_imp_iff, implies_true, and_true]
  repeat' apply And.intro
  all_goals
    intro f lim
    repeat' refine Gives.bind fun _ => ?_
  all_goals exact Gives.pure rfl

/-- A decoded slot word is a form of the slot's kind, where its map's rows give only such forms. -/
theorem kind_of_decodeSlot {k : SlotKind} (h : ∀ r ∈ k.map, ∀ f lim, Gives (fun i => i.kind = some k) (r.2 f lim))
    {w : Nat} {lim : Option Nat} {i : Instr} (hd : decodeSlot k w lim = some i) : i.kind = some k := by
  unfold decodeSlot parseSlot at hd
  split at hd
  · cases hd
  · next r hr =>
      split at hd
      · cases hd
      · next j hj =>
          split at hd
          · cases hd
            exact h r (List.mem_of_find?_eq_some hr) _ _ _ hj
          · cases hd

/-- The operations of a bundle are decoded from its slots. -/
theorem decoded_of_mem_decodeSlots {b : BitVec 384} {fuel n : Nat} {ops : List SlotOp} (h : decodeSlots b fuel n = .ok ops) :
    ∀ o ∈ ops, o.slot < n + fuel ∧ ∃ w lim, decodeSlot (SlotKind.ofNum o.slot) w lim = some o.instr := by
  induction fuel generalizing n ops with
  | zero =>
      cases h
      simp
  | succ fuel ih =>
      unfold decodeSlots at h
      dsimp only at h
      split at h
      · intro o ho
        obtain ⟨hlt, hd⟩ := ih h o ho
        exact ⟨by omega, hd⟩
      · split at h
        · cases h
        · next i hi =>
            split at h
            · cases h
            · next rest hr =>
                cases h
                intro o ho
                rcases List.mem_cons.mp ho with rfl | ho
                · exact ⟨by dsimp only; omega, _, _, hi⟩
                · obtain ⟨hlt, hd⟩ := ih hr o ho
                  exact ⟨by omega, hd⟩

/-- A legal bundle has its own header, and its operations are those of its slots. -/
theorem decodeBundle_ok {b : BitVec 384} {h : Header} {ops : List SlotOp} (hd : decodeBundle b = .ok h ops) :
    h = headerOf b ∧ ∀ o ∈ ops, o.slot < 9 ∧ ∃ w lim, decodeSlot (SlotKind.ofNum o.slot) w lim = some o.instr := by
  unfold decodeBundle at hd
  split at hd
  · cases hd
  · split at hd
    · cases hd
    · split at hd
      · cases hd
      · next hs =>
          cases hd
          refine ⟨rfl, fun o ho => ?_⟩
          simpa using decoded_of_mem_decodeSlots hs o ho

/-- An operation that enters no queue and is no counter form is a form of slot S (R115). -/
theorem kind_s_of_decodeBundle {b : BitVec 384} {h : Header} {o : SlotOp} (hd : decodeBundle b = .ok h [o])
    (he : engineOf o.slot o.instr = none) (hc : o.instr.isCounter = false) : o.instr.kind = some .s := by
  obtain ⟨hlt, w, lim, hi⟩ := (decodeBundle_ok hd).2 o (by simp)
  obtain ⟨slot, word, i⟩ := o
  have hs : slot = 0 ∨ slot = 1 := by
    simp only [engineOf, hc, Bool.false_eq_true, if_false] at he
    interval_cases slot <;> simp at he ⊢
  rcases hs with rfl | rfl <;> exact kind_of_decodeSlot (k := .s) sMap_gives hi

/-- A lane engine's operation is a form of slot V or X (R115). -/
theorem kind_lane_of_decodeBundle {b : BitVec 384} {h : Header} {o : SlotOp} {e : Engine} (hd : decodeBundle b = .ok h [o])
    (he : engineOf o.slot o.instr = some e) (hl : Claims.laneEngine e) : o.instr.kind = some .v ∨ o.instr.kind = some .x := by
  obtain ⟨hlt, w, lim, hi⟩ := (decodeBundle_ok hd).2 o (by simp)
  obtain ⟨slot, word, i⟩ := o
  have hs : slot = 5 ∨ slot = 6 ∨ slot = 7 := by
    cases hc : i.isCounter with
    | true => simp [engineOf, hc] at he
    | false =>
        simp only [engineOf, hc, Bool.false_eq_true, if_false] at he
        interval_cases slot <;> simp at he ⊢ <;> subst he <;> exact hl
  rcases hs with rfl | rfl | rfl
  · exact .inl (kind_of_decodeSlot (k := .v) vMap_gives hi)
  · exact .inl (kind_of_decodeSlot (k := .v) vMap_gives hi)
  · exact .inr (kind_of_decodeSlot (k := .x) xMap_gives hi)

end Sys2Proof

namespace Sys2Proof.Machine

/-! ### What the forms of slots V and X leave pending (R117) -/

/-- Whether a register is an x register or a predicate. -/
def GReg.scalar : GReg → Bool
  | .x n => decide (n < 64)
  | .p n => decide (n < 16)
  | _ => false

/-- Whether a register reference is a read, or writes a register that an engine keeps, an x register or a predicate. -/
def LaneRef (r : Ref) : Prop := r.wr = true → r.reg.engine = true ∨ r.reg.scalar = true

def LaneRefs (l : List Ref) : Prop := ∀ r ∈ l, LaneRef r

theorem LaneRef.read {g : GReg} : LaneRef ⟨g, true, false⟩ := fun h => by cases h
theorem LaneRef.engine {g : GReg} {a b : Bool} (h : g.engine = true) : LaneRef ⟨g, a, b⟩ := fun _ => .inl h
theorem LaneRef.scalar {g : GReg} {a b : Bool} (h : g.scalar = true) : LaneRef ⟨g, a, b⟩ := fun _ => .inr h
theorem LaneRef.x {d : XReg} {a b : Bool} : LaneRef ⟨.x d.val, a, b⟩ := .scalar (decide_eq_true d.isLt)
theorem LaneRef.p {d : PReg} {a b : Bool} : LaneRef ⟨.p d.val, a, b⟩ := .scalar (decide_eq_true d.isLt)

theorem LaneRefs.nil : LaneRefs [] := fun r hr => by cases hr
theorem LaneRefs.cons {r : Ref} {l : List Ref} (h : LaneRef r) (hl : LaneRefs l) : LaneRefs (r :: l) :=
  List.forall_mem_cons.mpr ⟨h, hl⟩
theorem LaneRefs.append {l m : List Ref} (h : LaneRefs l) (hm : LaneRefs m) : LaneRefs (l ++ m) := List.forall_mem_append.mpr ⟨h, hm⟩
theorem LaneRefs.rmRef {b : Bool} {rm : Rm} : LaneRefs (Machine.rmRef b rm) := by
  unfold Machine.rmRef
  split
  · exact .cons .read .nil
  · exact .nil
theorem LaneRefs.lowFirst {m n : Nat} {a b : Ref} (ha : LaneRef a) (hb : LaneRef b) : LaneRefs (Machine.lowFirst m n a b) := by
  unfold Machine.lowFirst
  split
  · exact .cons hb (.cons ha .nil)
  · exact .cons ha (.cons hb .nil)
theorem LaneRefs.allK {rd wr : Bool} : LaneRefs (Machine.allK rd wr) := by
  intro r hr
  obtain ⟨n, _, rfl⟩ := List.mem_map.mp hr
  exact .engine rfl

theorem laneRefs_bodyRefs {i : Instr} (hk : i.kind = some .v ∨ i.kind = some .x) : LaneRefs (bodyRefs i) := by
  cases i
  all_goals rcases hk with h | h <;> cases h
  all_goals repeat' first
    | exact LaneRefs.nil
    | exact LaneRefs.rmRef
    | exact LaneRefs.allK
    | exact LaneRef.read
    | exact LaneRef.engine rfl
    | exact LaneRef.x
    | exact LaneRef.p
    | refine LaneRefs.cons ?_ ?_
    | refine LaneRefs.append ?_ ?_
    | refine LaneRefs.lowFirst ?_ ?_
    | split

/-- The destinations that a form of slot V or X leaves pending are x registers and predicates (R117). -/
theorem scalar_of_mem_pendDests {i : Instr} (hk : i.kind = some .v ∨ i.kind = some .x) : ∀ r ∈ pendDests i, r.scalar = true := by
  intro r hr
  simp only [pendDests, List.mem_map, List.mem_filter, Bool.and_eq_true, Bool.not_eq_true'] at hr
  obtain ⟨a, ⟨ha, ⟨hw, _⟩, he⟩, rfl⟩ := hr
  exact (laneRefs_bodyRefs hk a ha hw).resolve_left (by simp [he])

end Sys2Proof.Machine
end

section
/-! The forms of slot S and the group: none of them changes what its strand's group holds or marks it as having yielded (spec 03 R84; 12 R342). -/

namespace Sys2Proof.Machine.State

/-- The acting strand's group and yield mark stand, and the state acts for the same strand. -/
structure Steady (s t : State) : Prop where
  ctx : t.ctx = s.ctx
  group : t.me.group = s.me.group
  yielded : t.me.yielded = s.me.yielded

namespace Steady

variable {s t u : State}

theorem refl (s : State) : Steady s s := ⟨rfl, rfl, rfl⟩
theorem trans (a : Steady s t) (b : Steady t u) : Steady s u :=
  ⟨b.ctx.trans a.ctx, b.group.trans a.group, b.yielded.trans a.yielded⟩

theorem modMe (f : Strand → Strand) (h : (f s.me).group = s.me.group ∧ (f s.me).yielded = s.me.yielded) : Steady s (s.modMe f) :=
  ⟨rfl, by rw [me_modMe]; exact h.1, by rw [me_modMe]; exact h.2⟩

theorem wrX (s : State) (d : XReg) (v : XWord) : Steady s (s.wrX d v) := by
  unfold State.wrX
  split
  · exact refl s
  · exact .modMe _ ⟨rfl, rfl⟩

theorem wrP (s : State) (d : PReg) (v : Bool) : Steady s (s.wrP d v) := by
  unfold State.wrP
  split
  · exact refl s
  · exact .modMe _ ⟨rfl, rfl⟩

theorem wrA (s : State) (d : AReg) (v : AWord) : Steady s (s.wrA d v) := .modMe _ ⟨rfl, rfl⟩
theorem wrB (s : State) (d : BReg) (v : Word32) : Steady s (s.wrB d v) := .modMe _ ⟨rfl, rfl⟩
theorem addFlags (s : State) (f : Fl) : Steady s (s.addFlags f) := .modMe _ ⟨rfl, rfl⟩
theorem branchTo (s : State) (b : Word32) : Steady s (s.branchTo b) := .modMe _ ⟨rfl, rfl⟩
theorem wrF (s : State) (d : XReg) (r : XVal × Fl) : Steady s (State.wrF d r s) := (wrX s d _).trans (addFlags _ _)

theorem putsTo (s : State) (r : SReg) (v : XWord) : Steady s (State.putsTo r v s) := by
  cases r
  case fstat | fmode | bindsel => exact .modMe _ ⟨rfl, rfl⟩
  all_goals exact refl s

end Steady

end Sys2Proof.Machine.State

namespace Sys2Proof.Proofs

open Machine State

/-- The effect of a form of slot S that no issue check stops changes neither group nor yield mark. -/
theorem effect_s_steady {i : Instr} (hk : i.kind = some .s) (ht : ∀ s : State, s.issueStop i = none) :
    ∃ g eff, (∀ s : State, exec i s = s.slotOp i g eff) ∧ ∀ s, Steady s (eff s) := by
  cases i
  all_goals cases hk
  case trap => cases ht State.reset
  all_goals refine ⟨_, _, fun _ => by delta exec; rfl, fun s => ?_⟩
  case fadd | fsub | fmul | ffma | cvtf | cvtfN => exact .wrF s _ _
  case cvti | cvtiN => exact (Steady.wrX s _ _).trans (.addFlags _ _)
  case pand | por | pxor | pandn | cmp | cmpImm | fcmp => exact .wrP s _ _
  case pset => exact .modMe _ ⟨rfl, rfl⟩
  case ptb | ptbx => exact .wrB s _ _
  case br => exact .branchTo s _
  case brl => exact (Steady.branchTo s _).trans (.wrX _ _ _)
  case aadd | aaddImm | aset | alea => exact .wrA s _ _
  case puts => exact .putsTo s _ _
  all_goals exact .wrX s _ _

theorem exec_s_steady {i : Instr} {s m : State} (hk : i.kind = some .s) (ha : s.ctx.admitted = true)
    (ht : ∀ s : State, s.issueStop i = none) (he : exec i s = .next m) : Steady s m := by
  obtain ⟨g, eff, hx, hs⟩ := effect_s_steady hk ht
  rw [hx, s.slotOp_admitted i g eff ha] at he
  cases he
  exact hs s

end Sys2Proof.Proofs
end

section
/-! One bundle of one operation, issued by a strand with nothing before it (spec 02 R60, R77, R84, R85; 12 R343; R500). -/

namespace Sys2Proof.Machine.State

open Claims

/-! ### A strand with nothing before its next bundle -/

/-- A strand that runs with nothing pending, queued, landing, looping or marked, and no copy-schedule entry left. -/
structure Alone (s : State) (k : Nat) : Prop where
  runs : (s.strand k).life = .running ∧ (s.strand k).holds = 0 ∧ (s.strand k).barWait = none ∧ (s.strand k).rolling = none ∧
    (s.strand k).marked = none
  still : (s.strand k).ops = [] ∧ (s.strand k).landings = [] ∧ (s.strand k).vland = [] ∧ (s.strand k).redirects = [] ∧
    (s.strand k).group = [] ∧ (s.strand k).pend = PendBits.reset
  plain : (s.strand k).yielded = false ∧ (s.strand k).skipNext = false ∧ (s.strand k).shadow = none ∧ (s.strand k).segFresh = false ∧
    (s.strand k).withheld = []
  loops : ∀ l ∈ (s.strand k).levels.toList, l.run = false
  entries : s.schedEntry k = none

/-- A bundle of one operation that the strand finds at its program counter, with nothing that holds it. -/
structure Finds (s : State) (k half : Nat) (b : BitVec 384) (h : Header) (o : SlotOp) : Prop where
  fetch : s.fetch k = .bundle half b
  whole : half ≠ 65535
  decode : decodeBundle b = .ok h [o]
  seg : h.seg = false
  yield : h.yield = false
  waits : ∀ i, i < 8 → h.waits i = false
  performs : suppressed (s.strand k) h = false
  landing : o.instr.landing? = none
  free : ∀ z : State, z.slotWait o.instr = false ∧ z.issueStop o.instr = none

variable {s : State} {k half : Nat} {b : BitVec 384} {h : Header} {o : SlotOp}

/-- A register of a strand with nothing pending. -/
theorem isPending_reset {u : Strand} (hp : u.pend = PendBits.reset) (r : GReg) : isPending u r = false := by
  have none (n m : Nat) : (List.replicate m false).getD n false = false := by
    rw [List.getD_eq_getElem?_getD, List.getElem?_replicate]
    split <;> rfl
  cases r
  case x | p | b => simp only [isPending, hp, PendBits.reset, Vector.toList_replicate, none]
  all_goals rfl

/-- The machine that acts for a strand. -/
@[simp] theorem strandKey_div_mod (k : Nat) : strandKey (k / 4) (k % 4) = k := Nat.div_add_mod' k 4

theorem me_acting (s : State) (k : Nat) : (s.acting k).me = s.strand k := by
  change s.strand (strandKey (k / 4) (k % 4)) = _
  rw [strandKey_div_mod]

/-- A strand whose next bundle is counted (R85). -/
def bundleCounted (u : Strand) : Strand := { u with count := u.count + 1, segFresh := false, literal := false, skipNext := false }

/-- What issue does once the slots of a bundle at an index have run: the group, the segment's counts, the next program counter, the check of a SEG bundle and the strand's leaving (R77, R84, R86, R426, R427). -/
def afterSlots (k : Nat) (v : View) (at_ : Word32) (s : State) : State :=
  let s := { s with ctx := { s.ctx with slot := 15, word := 0, latch := none, admitted := false, num := 0, res := .done } }
  let s := s.modStrand k (fun t => { t with
    group := if v.header.stop then [] else t.group ++ written v.ops
    segcnt := t.segcnt + 1, segsig := crcWord t.segsig v.header.word v.half
    perf := { t.perf with issued := t.perf.issued + 1 }, yielded := v.header.yield })
  let atPoint := v.header.seg && (match s.segRec k with
    | some r => r.susp && r.endseg == at_
    | none => false)
  let id := (s.strand k).launch
  let s := s.advance k at_
  let s := if v.header.seg then s.endSegment k at_ else s
  let live := (s.strand k).life == .running && (s.strand k).launch == id && (s.strand k).rolling.isNone
  let s := if live then s.leaveAfter k atPoint else s
  (s.settleVland k).setRes .done

theorem issueBundle_eq (s : State) (k : Nat) (v : View) (clear : Bool) :
    s.issueBundle k v clear = afterSlots k v (s.strand k).pc (((s.protect k clear).modStrand k bundleCounted).runSlots v.ops) := rfl

/-- With nothing pending a guard is found at once. -/
theorem guardAt_of_still {z : State} {g : Guard} {i : Instr} (hp : z.me.pend = PendBits.reset) (hi : i.guard? = some g)
    (hg : z.holds g = true) : z.guardAt i = some true := by
  simp [guardAt, hi, isPending_reset hp, hg]

/-- Whether a guard holds is a matter of the registers read. -/
theorem holds_of_front {y z : State} (h : z.front = y.front) (g : Guard) : z.holds g = y.holds g := by simp [holds, rdP, h]

namespace Alone

variable (ha : Alone s k)

include ha

/-- Nothing of it can come about. -/
theorem settleStrand : s.settleStrand k = s := by
  obtain ⟨hlife, _, _, hroll, _⟩ := ha.runs
  obtain ⟨_, _, hv, _, _, _⟩ := ha.still
  obtain ⟨_, _, _, _, hw⟩ := ha.plain
  simp [State.settleStrand, hw, hlife, hroll, hv, armEntry, ha.entries]

theorem view (hb : Finds s k half b h o) : s.view k = ⟨half, h, true, [o], none⟩ := by
  obtain ⟨_, hskip, _⟩ := ha.plain
  obtain rfl := (decodeBundle_ok hb.decode).1
  simp [State.view, hb.fetch, hskip, hb.decode, hb.performs]

/-- Its bundle need not wait. -/
theorem bundleWaits {z : State} (hz : z.me = s.strand k) (hb : Finds s k half b h o) : z.bundleWaits ⟨half, h, true, [o], none⟩ = false := by
  obtain ⟨hops, _, _, _, _, hp⟩ := ha.still
  have hpend := isPending_reset (hz ▸ hp)
  have hocc : z.me.pend.occ = false := by rw [hz, hp]; rfl
  have htok : (List.range 8).any (fun i => h.waits i && tokBusy z.me i) = false := by
    simp only [List.any_eq_false, List.mem_range]
    exact fun i hi => by simp [hb.waits i hi]
  have hdict : z.dictBusy half = false := by simp [dictBusy, hz, hops]
  have hslot : z.slotHolds o = false := by
    have hw : z.pendingWait (queued o) o.instr = false := by simp [pendingWait, hpend, hocc]
    simp [slotHolds, hw, (hb.free z).1]
  have hroom : z.hasRoom o = true := by
    unfold hasRoom
    split
    · rfl
    · next e _ => cases e <;> simp [hz, hops, Engine.depth, Config.depthA, Config.depthC, Config.depthM, Config.depthV, Config.depthX, Config.depthQ]
  have hland : z.landRoom [o] = true := by simp [landRoom, hb.landing]
  simp [State.bundleWaits, htok, hdict, hslot, hroom, hland]

/-- It is ready to issue. -/
theorem ready (hb : Finds s k half b h o) : s.ready k = .ok := by
  obtain ⟨hlife, hholds, hbar, hroll, _⟩ := ha.runs
  obtain ⟨hops, hland, _⟩ := ha.still
  have hw : (s.withLanded k).acting k = s.acting k := by simp [withLanded, dueLandings, hland]
  have hv : (s.acting k).bundleWaits ⟨half, h, true, [o], none⟩ = false := ha.bundleWaits (me_acting s k) hb
  simp [State.ready, hlife, hholds, hroll, barHeld, hbar, leaveUnsure, hops, ha.view hb, hw, hv, hb.whole, absent, hland]

/-- No landing of it is due, and no segment of it fresh. -/
theorem landDue : s.landDue k = s.modStrand k id := by
  obtain ⟨_, hland, _⟩ := ha.still
  obtain ⟨_, _, _, hfresh, _⟩ := ha.plain
  have hl : (s.strand k).landings.filter (fun l => l.due != (s.strand k).count + 1) = (s.strand k).landings := by rw [hland]; rfl
  have hs : (if (s.strand k).segFresh then (s.strand k).pc else (s.strand k).segStart) = (s.strand k).segStart := by simp [hfresh]
  have hdue : dueLandings (s.strand k) = [] := by simp [dueLandings, hland]
  simp only [State.landDue, hdue, List.foldl_nil, modStrand, hl, hs, id]

/-- Its landings and its protection leave it to be counted. -/
theorem counts (clear : Bool) : ((s.landDue k).protect k clear).modStrand k bundleCounted = s.modStrand k bundleCounted := by
  obtain ⟨_, _, _, hfresh, _⟩ := ha.plain
  have hp : (s.modStrand k id).protect k clear = s.modStrand k id := by simp [protect, hfresh]
  rw [ha.landDue, hp, modStrand_modStrand]
  rfl

theorem acting : Alone (s.acting k) k := ⟨ha.runs, ha.still, ha.plain, ha.loops, ha.entries⟩

/-- Its bundle meets no trap and no violation: its slots run, and it passes on. -/
theorem issueNext (hb : Finds s k half b h o) : s.issueNext k =
    afterSlots k ⟨half, h, true, [o], none⟩ (s.strand k).pc (((s.acting k).modStrand k bundleCounted).runSlots [o]) := by
  obtain ⟨_, hland, _, _, hgroup, _⟩ := ha.still
  obtain ⟨_, _, _, hfresh, _⟩ := ha.plain
  have hv : (s.acting k).view k = ⟨half, h, true, [o], none⟩ := ha.view hb
  have hseg : ({ s.acting k with ctx := { (s.acting k).ctx with seg := h.seg } } : State) = s.acting k := by rw [hb.seg]; rfl
  have hme : ((s.acting k).modStrand k id).me = s.strand k := by
    change ((s.acting k).modStrand k id).strand (strandKey (k / 4) (k % 4)) = _
    rw [strandKey_div_mod, strand_modStrand_self]
    rfl
  have hg : ((s.acting k).modStrand k id).groupStop [o] = none := by simp [groupStop, hme, hgroup, written]
  have hs : ((s.acting k).modStrand k id).slotStop [o] = none := by simp [slotStop, (hb.free _).2]
  have hc : ((s.acting k).modStrand k id).landClash ((s.acting k).strand k) [o] = false := by
    have hl : ((s.acting k).strand k).landings = [] := hland
    simp [landClash, dueLandings, hl, repeats]
  have hf : (((s.acting k).modStrand k id).strand k).segFresh = false := by
    rw [strand_modStrand_self]
    exact hfresh
  have hcount := ha.acting.counts (((s.acting k).strand k).landings.isEmpty && ((s.acting k).strand k).vland.isEmpty)
  rw [ha.acting.landDue] at hcount
  simp only [State.issueNext, hv, hseg, ha.acting.landDue, hg, hs, hc, hf, Bool.false_and, Bool.or_false, Bool.false_eq_true, if_false,
    issueBundle_eq, hcount]
  rw [strand_modStrand_self]
  rfl

end Alone

/-! ### After the slots (R77, R84, R426, R427) -/

/-- A strand after a bundle is counted in its group, its segment and its performance counter. -/
def marks (v : View) (t : Strand) : Strand :=
  { t with
    group := if v.header.stop then [] else t.group ++ written v.ops
    segcnt := t.segcnt + 1, segsig := crcWord t.segsig v.header.word v.half
    perf := { t.perf with issued := t.perf.issued + 1 }, yielded := v.header.yield }

/-- A strand that has passed a bundle and goes on at an index. -/
def passes (v : View) (next : Word32) (t : Strand) : Strand := { marks v t with pc := next, redirects := [] }

/-- A strand whose bundle leaves it running on: no branch, no loop and no leaving stands. -/
structure GoesOn (u : Strand) : Prop where
  life : u.life = .running
  rolling : u.rolling = none
  redirects : u.redirects = []
  vland : u.vland = []
  marked : u.marked = none
  stays : ∀ q ∈ u.ops, isExit q.instr = false ∧ isSuspend q = false
  loops : ∀ l ∈ u.levels.toList, l.run = false

namespace GoesOn

variable {u : Strand} (hu : GoesOn u)

include hu

theorem levels : (List.range 6).reverse.filter (fun j => (level u j).run) = [] := by
  refine List.filter_eq_nil_iff.mpr (fun j _ => ?_)
  simp only [level, List.getD_eq_getElem?_getD]
  cases hj : u.levels.toList[j]? with
  | none => simp [Level.reset]
  | some l => simpa using hu.loops l (List.mem_of_getElem? hj)

/-- Its program counter moves to the next bundle. -/
theorem advance {s : State} {k : Nat} {at_ : Word32} (he : s.strand k = u) (hp : u.pc = at_) :
    s.advance k at_ = s.setStrand k { u with pc := stepsOn (s.streamOf k) 1 at_, redirects := [] } := by
  simp only [State.advance, he, hu.levels, wrapLevels, hp, if_true, hu.redirects, Option.getD_none,
    Proofs.seqNext_eq]

theorem marks (v : View) : GoesOn (marks v u) := ⟨hu.life, hu.rolling, hu.redirects, hu.vland, hu.marked, hu.stays, hu.loops⟩

theorem at_ (hnext : Word32) : GoesOn { u with pc := hnext, redirects := [] } :=
  ⟨hu.life, hu.rolling, rfl, hu.vland, hu.marked, hu.stays, hu.loops⟩

theorem leaveAfter {s : State} {k : Nat} (he : s.strand k = u) (p : Bool) : s.leaveAfter k p = s := by
  have hx : u.ops.any (fun o => isExit o.instr && o.guard == some true && o.cnt == u.count) = false := by
    simp only [List.any_eq_false]
    exact fun q hq => by simp [(hu.stays q hq).1]
  have hs (sure : Bool) : suspends u sure = false := by
    simp only [suspends, List.any_eq_false]
    exact fun q hq => by simp [(hu.stays q hq).2]
  simp [State.leaveAfter, he, hx, hs, hu.marked]

end GoesOn

/-- A strand's index stream is that of its image's member. -/
theorem streamOf_congr {r : State} (hs : r.images = s.images) (hi : (r.strand k).image = (s.strand k).image)
    (hm : (r.strand k).member = (s.strand k).member) : r.streamOf k = s.streamOf k := by
  simp only [streamOf, coreImg, imageOf, image?, hs, hi, hm]

/-- A bundle that is no SEG bundle passes its strand on. -/
theorem afterSlots_eq {v : View} {at_ : Word32} {r : State} (hseg : v.header.seg = false) (hu : GoesOn (r.strand k)) (hp : (r.strand k).pc = at_) :
    ∃ c : Ctx, c.res = .done ∧
      afterSlots k v at_ r = { r.modStrand k (passes v (stepsOn (r.streamOf k) 1 at_)) with ctx := c } := by
  let x := ({ r with ctx := { r.ctx with slot := 15, word := 0, latch := none, admitted := false, num := 0, res := .done } } : State).modStrand k (marks v)
  have hx : x.strand k = marks v (r.strand k) := strand_modStrand_self _ k _
  have hs : x.streamOf k = r.streamOf k := streamOf_congr rfl (by rw [hx]; rfl) (by rw [hx]; rfl)
  have hadv : x.advance k at_ = x.setStrand k (passes v (stepsOn (r.streamOf k) 1 at_) (r.strand k)) := by
    rw [(hu.marks v).advance hx hp, hs]
    rfl
  let y := x.setStrand k (passes v (stepsOn (r.streamOf k) 1 at_) (r.strand k))
  have hy : y.strand k = passes v (stepsOn (r.streamOf k) 1 at_) (r.strand k) := by simp [y, strand_setStrand]
  have hleave (p : Bool) : y.leaveAfter k p = y := ((hu.marks v).at_ _).leaveAfter hy p
  have hsettle : y.settleVland k = y := by
    have hv : (y.strand k).vland = [] := by rw [hy]; exact hu.vland
    simp [settleVland, hv, settleV]
  refine ⟨{ r.ctx with slot := 15, word := 0, latch := none, admitted := false, num := 0, res := .done }, rfl, ?_⟩
  have he : afterSlots k v at_ r = y.setRes .done := by
    have hlet : afterSlots k v at_ r =
        (let y := x.advance k at_
         let y := if v.header.seg then y.endSegment k at_ else y
         let live := (y.strand k).life == .running && (y.strand k).launch == (x.strand k).launch && (y.strand k).rolling.isNone
         let y := if live then y.leaveAfter k (v.header.seg && (match x.segRec k with
            | some r => r.susp && r.endseg == at_
            | none => false)) else y
         (y.settleVland k).setRes .done) := rfl
    rw [hlet, hadv]
    simp only [hseg, Bool.false_eq_true, if_false]
    change ((ite _ (y.leaveAfter k _) y).settleVland k).setRes .done = _
    rw [hleave, ite_self, hsettle]
  rw [he]
  simp only [y, x, modStrand, setStrand, Map.set_set]
  rfl

/-! ### The step (R60, R343, log entry 1) -/

/-- The state in which a core's selector runs its current strand. -/
def selected (s : State) (c : Nat) : State :=
  ({ s with nextCore := s.nextCore + 1 } : State).idle.modCore c (fun k => { k with freeze := false })

/-- A core's freeze is nothing to what its strands fetch. -/
theorem fetch_selected (s : State) (c k : Nat) : (s.selected c).fetch k = s.fetch k := by
  have hw : (s.selected c).windowOf k = s.windowOf k := by
    have hc : ((s.selected c).core (k / 4)).windows = (s.core (k / 4)).windows := by
      unfold selected
      rw [core_modCore]
      split
      · next e => rw [e]; rfl
      · rfl
    simp only [windowOf, hc]
    rfl
  simp only [fetch, hw]
  rfl

theorem finds_selected (c : Nat) (hb : Finds s k half b h o) : Finds (s.selected c) k half b h o :=
  { hb with fetch := (s.fetch_selected c _).trans hb.fetch, performs := hb.performs }

/-- A selector cycle as an event. -/
theorem runEvent_selectorCycle (core : Fin 128) (s : State) : runEvent (.selectorCycle core) s = .next (s.idle.cycle core.val).idle := by
  have he : exec (.selectorCycle core) s.idle = .next (s.idle.cycle core.val) := by delta exec; rfl
  rw [runEvent, he]

/-- A step with an empty schedule takes the next event. -/
theorem step_of_nextEvent {i : Instr} (hs : s.schedule = []) (hp : s.plat.poweredOff = false) (he : s.nextEvent = some i) :
    step s = runEvent i { s with nextCore := s.nextCore + 1 } := by
  unfold step
  split
  · next h => rw [hs] at h; cases h
  · rw [if_neg (by simp [hp]), he]

section

variable {c n : Nat} (hp : poised s c n)

include hp

theorem alone_of_poised : Alone (s.selected c) (strandKey c n) :=
  ⟨hp.runs, hp.still, hp.plain, hp.loops, hp.entries⟩

/-- The selector of a poised strand's core has it issue. -/
theorem runCycle_poised (hb : Finds s (strandKey c n) half b h o)
    (hr : ((s.selected c).issueNext (strandKey c n)).ctx.res = .done) :
    (s.selected c).runCycle c false = ((s.selected c).issueNext (strandKey c n)).modCore c (fun k => { k with cycle := k.cycle + 1 }) := by
  have hcur : ((s.selected c).core c).cur = n := by
    unfold selected
    rw [core_modCore, if_pos rfl]
    exact hp.core.2.2
  have hready := (alone_of_poised hp).ready (finds_selected c hb)
  have hothers : (s.selected c).othersReady c n = [] := by
    refine List.filter_eq_nil_iff.mpr (fun i hi => ?_)
    by_cases hin : i = n
    · simp [hin]
    · have hf : IsFree (s.selected c) (strandKey c i) := hp.others i (List.mem_range.mp hi) hin
      simp [readyOn, hf.ready]
  have hd : (s.selected c).displaced c n false = false := by simp [displaced, hothers]
  simp [runCycle, hcur, hready, hd, hr]

/-- A cycle of its core is that. -/
theorem cycle_poised (hn : n < 4) (hb : Finds s (strandKey c n) half b h o)
    (hr : ((s.selected c).issueNext (strandKey c n)).ctx.res = .done) :
    ({ s with nextCore := s.nextCore + 1 } : State).idle.cycle c =
      (((s.selected c).issueNext (strandKey c n)).modCore c (fun k => { k with cycle := k.cycle + 1 })).idle := by
  let z : State := ({ s with nextCore := s.nextCore + 1 } : State).idle
  obtain ⟨hhalt, hfreeze, hcur⟩ := hp.core
  have hfree (i : Nat) (hi : i < 4) (hne : i ≠ n) : IsFree z (strandKey c i) := hp.others i hi hne
  have hself : Alone z (strandKey c n) := ⟨hp.runs, hp.still, hp.plain, hp.loops, hp.entries⟩
  have hsettle : (List.range 4).foldl (fun s i => s.settleStrand (strandKey c i)) z = z := by
    refine foldl_eq_self (fun i hi => ?_)
    by_cases he : i = n
    · rw [he]
      exact hself.settleStrand
    · exact (hfree i (List.mem_range.mp hi) he).settleStrand
  have hyield : ∀ i, i < 4 → (z.strand (strandKey c i)).yielded = false := by
    intro i hi
    by_cases he : i = n
    · rw [he]
      exact hp.plain.1
    · exact (hfree i hi he).yielded
  have hy : (z.strand (strandKey c n)).yielded = false := hyield n hn
  have hc1 : (z.core c).halt = 0 := hhalt
  have hc2 : (z.core c).freeze = false := hfreeze
  have hc3 : (z.core c).cur = n := hcur
  have hact : z.active c = true := hp.active
  change z.cycle c = _
  simp only [cycle, hact, hsettle, clearYields_none hyield, hc1, hc2, hc3, hy, Bool.not_true, bne_self_eq_false, Bool.false_and,
    Bool.false_eq_true, if_false]
  exact congrArg State.idle (runCycle_poised hp hb hr)

/-- A step of a poised strand's machine is that strand's issue. -/
theorem step_poised (hc : c < 128) (hn : n < 4) (hb : Finds s (strandKey c n) half b h o)
    (hr : ((s.selected c).issueNext (strandKey c n)).ctx.res = .done) :
    step s = .next (((s.selected c).issueNext (strandKey c n)).modCore c (fun k => { k with cycle := k.cycle + 1 })).idle := by
  have he : s.nextEvent = some (.selectorCycle ⟨c, hc⟩) := by
    rw [nextEvent, dif_pos (by rw [hp.turn]; exact hc)]
    simp only [hp.turn]
  rw [step_of_nextEvent hp.sched hp.power he, runEvent_selectorCycle, cycle_poised hp hn hb hr]
  rfl

end

end Sys2Proof.Machine.State
end

section
/-! A step is exec of the decoded operation, or puts it into its engine's queue: O51. -/

namespace Sys2Proof.Machine.State

open Claims

variable {s m : State} {k half : Nat} {b : BitVec 384} {h : Header} {o : SlotOp}

/-- A slot operation of no queue performs at issue, over the registers latched. -/
theorem runSlots_now (he : engineOf o.slot o.instr = none) (hg : (s.atIssue s.me.front o).guardAt o.instr = some true) :
    s.runSlots [o] = perform o.instr (s.atIssue s.me.front o) := by
  have hq : queued o = false := by simp [queued, he]
  cases hp : isPuts o.instr <;> simp [runSlots, hq, hp, he, performNow, hg]

/-- An engine's operation enters its queue. -/
theorem runSlots_queue {e : Engine} (he : engineOf o.slot o.instr = some e) (hg : s.guardAt o.instr = some true) :
    s.runSlots [o] = enqueue s.me.front (some true) e s o := by
  have hq : queued o = true := by simp [queued, he]
  simp [runSlots, hq, he, hg]

/-! ### Pending bits (R117) -/

theorem setPend_frame (t : Strand) (r : GReg) : ∃ p, setPend true t r = { t with pend := p } := by cases r <;> exact ⟨_, rfl⟩

/-- Setting pending bits changes nothing else of a strand. -/
theorem foldl_setPend_frame (rs : List GReg) (t : Strand) : ∃ p, rs.foldl (setPend true) t = { t with pend := p } := by
  induction rs generalizing t with
  | nil => exact ⟨_, rfl⟩
  | cons r rs ih =>
      obtain ⟨p, e⟩ := setPend_frame t r
      obtain ⟨p', e'⟩ := ih { t with pend := p }
      exact ⟨p', by rw [List.foldl_cons, e, e']⟩

/-- A list of bits with one of them set. -/
theorem getD_set_bit {N : Nat} (v : Vector Bool N) (n m : Nat) :
    (Vector.ofFn (fun i : Fin N => if i.val = n then true else v[i])).toList.getD m false = (v.toList.getD m false || decide (m = n ∧ m < N)) := by
  by_cases hm : m < N
  · by_cases he : m = n
    · subst he
      simp [hm]
    · simp [hm, he]
  · simp [hm]

theorem isPending_setPend (t : Strand) {r : GReg} (h : r.scalar = true) : isPending (setPend true t r) r = true := by
  cases r
  case x n =>
    have hn : n < 64 := of_decide_eq_true h
    simp [setPend, isPending, hn]
  case p n =>
    have hn : n < 16 := of_decide_eq_true h
    simp [setPend, isPending, hn]
  all_goals cases h

theorem isPending_setPend_mono (t : Strand) {r q : GReg} (h : isPending t q = true) : isPending (setPend true t r) q = true := by
  have keep {N : Nat} {v : Vector Bool N} {n m : Nat} (hv : v.toList.getD m false = true) :
      (Vector.ofFn (fun i : Fin N => if i.val = n then true else v[i])).toList.getD m false = true := by
    rw [getD_set_bit, hv, Bool.true_or]
  cases r
  case x n =>
    cases q
    case x m => simpa only [isPending, setPend] using keep h
    all_goals simpa only [isPending, setPend] using h
  case p n =>
    cases q
    case p m => simpa only [isPending, setPend] using keep h
    all_goals simpa only [isPending, setPend] using h
  case b n =>
    cases q
    case b m => simpa only [isPending, setPend] using keep h
    all_goals simpa only [isPending, setPend] using h
  all_goals simpa only [isPending, setPend] using h

theorem isPending_of_pend {t u : Strand} (h : t.pend = u.pend) (r : GReg) : isPending t r = isPending u r := by
  cases r <;> simp only [isPending, h]

theorem isPending_foldl_setPend {rs : List GReg} (hs : ∀ r ∈ rs, r.scalar = true) (t : Strand) :
    ∀ r ∈ rs, isPending (rs.foldl (setPend true) t) r = true := by
  have mono : ∀ (rs : List GReg) (t : Strand) (q : GReg), isPending t q = true → isPending (rs.foldl (setPend true) t) q = true := by
    intro rs
    induction rs with
    | nil => exact fun _ _ h => h
    | cons r rs ih => exact fun t q h => ih _ q (isPending_setPend_mono t h)
  induction rs generalizing t with
  | nil => simp
  | cons r rs ih =>
      intro q hq
      rcases List.mem_cons.mp hq with rfl | hq
      · exact mono rs _ q (isPending_setPend t (hs q (by simp)))
      · exact ih (fun r hr => hs r (by simp [hr])) _ q hq

/-! ### The issuing machine -/

/-- The machine in which a poised strand's slots run. -/
def issuer (s : State) (c k : Nat) : State := ((s.selected c).acting k).modStrand k bundleCounted

theorem me_issuer (s : State) (c k : Nat) : (s.issuer c k).me = bundleCounted (s.strand k) := by
  change (((s.selected c).acting k).modStrand k bundleCounted).strand (strandKey (k / 4) (k % 4)) = _
  rw [strandKey_div_mod, strand_modStrand_self]
  rfl

theorem front_me_issuer (s : State) (c k : Nat) : (s.issuer c k).me.front = (s.strand k).front := by rw [me_issuer]; rfl

theorem front_asStrand (s : State) (k : Nat) : (asStrand s k).front = (s.strand k).front := by
  change (s.strand (strandKey (k / 4) (k % 4))).front = _
  rw [strandKey_div_mod]

theorem atIssue_issuer (s : State) (c n : Nat) (o : SlotOp) :
    (s.issuer c (strandKey c n)).atIssue (s.strand (strandKey c n)).front o = issuing s c n o := rfl

/-- A lane operation as it stands in its queue. -/
def laneOp (u : Strand) (e : Engine) (o : SlotOp) : QOp :=
  { num := u.opNum + 1, cnt := u.count + 1, eng := e, slot := o.slot, bundle := u.pc, word := o.word, instr := o.instr
    latch := u.front, guard := some true, stage := .queued, cap := none, tok := none, acts := 0, got := none }

/-- A strand into whose queue an operation has entered. -/
def withOp (q : QOp) (t : Strand) : Strand := 
  let t := (pendDests q.instr).foldl (setPend true) t
  { t with opNum := q.num, ops := t.ops ++ [q] }

theorem pend_passes (v : View) (next : Word32) (t : Strand) : (passes v next t).pend = t.pend := rfl
theorem pend_withOp_laneOp (u : Strand) (e : Engine) (o : SlotOp) (t : Strand) :
    (withOp (laneOp u e o) t).pend = ((pendDests o.instr).foldl (setPend true) t).pend := rfl

theorem withOp_frame (q : QOp) (t : Strand) : ∃ p, withOp q t = { t with pend := p, opNum := q.num, ops := t.ops ++ [q] } := by
  obtain ⟨p, e⟩ := foldl_setPend_frame (pendDests q.instr) t
  exact ⟨p, by rw [withOp, e]⟩

/-- A lane operation's entry into its queue (R115, R117). -/
theorem enqueue_lane {latch : FrontRegs} {e : Engine} (hun : unprotects o.instr = false) (htok : o.instr.token? = none)
    (htile : o.instr.tile? = none) (hl : o.instr.landing? = none) (hocc : writesOcc o.instr = false)
    (hmat : ∀ z : State, z.enterMma (s.me.opNum + 1) o.instr = z ∧ z.reserve o.instr = z) :
    ∃ c : Ctx, enqueue latch (some true) e s o = { s.modMe (withOp
      { num := s.me.opNum + 1, cnt := s.me.count, eng := e, slot := o.slot, bundle := s.ctx.bundle, word := o.word, instr := o.instr
        latch := latch, guard := some true, stage := .queued, cap := none, tok := none, acts := 0, got := none }) with ctx := c } := by
  refine ⟨{ s.ctx with slot := o.slot, word := o.word, latch := some latch }, ?_⟩
  simp only [enqueue, hun, htok, htile, hl, hocc, Bool.false_and, Bool.false_eq_true, if_false, Option.map_none]
  change ((State.enterMma _ (s.me.opNum + 1) o.instr).reserve o.instr) = _
  rw [(hmat _).1, (hmat _).2]
  rfl

end Sys2Proof.Machine.State

namespace Sys2Proof.Proofs

open Machine Claims State

theorem stepPerforms : Claims.stepPerforms := by
  intro c n s m half b h o g k u hp hf hh hd hseg hy hw hs he hcnt hl hg ht hz hx hm
  obtain ⟨hlife, hroll, hops, hredir, hvland, hpc, hmarked, _, himage, hmember, himages, hloops⟩ := hm
  have hb : Finds s k half b h o := ⟨hf, hh, hd, hseg, hy, hw, hs, hl, hz⟩
  have hkind := kind_s_of_decodeBundle hd he hcnt
  have hpend : (s.strand k).pend = PendBits.reset := hp.still.2.2.2.2.2
  have hme : (issuing s c.val n.val o).me = bundleCounted (s.strand k) := s.me_issuer c.val k
  have hguard : (issuing s c.val n.val o).guardAt o.instr = some true := by
    refine guardAt_of_still (by rw [hme]; exact hpend) hg ?_
    rw [holds_of_front (y := asStrand s k) ?_ g]
    · exact ht
    · exact (front_asStrand s k).symm
  have henc : (encode o.instr).isSome = true := by
    obtain ⟨e, he, _⟩ := Option.map_eq_some_iff.mp hkind
    simp [encode, he]
  have hrun : (s.issuer c.val k).runSlots [o] = m := by
    rw [runSlots_now he (by rw [front_me_issuer]; exact hguard), front_me_issuer]
    exact perform_eq henc hx
  have hsteady := exec_s_steady hkind rfl (fun z => (hz z).2) hx
  have hmk : m.me = m.strand k := by
    have hkey : m.meKey = k := by
      rw [meKey, hsteady.ctx]
      exact strandKey_div_mod k
    rw [me, hkey]
  have hgroup : (m.strand k).group = [] := by
    rw [← hmk, hsteady.group, hme]
    exact hp.still.2.2.2.2.1
  have hyield : (m.strand k).yielded = false := by
    rw [← hmk, hsteady.yielded, hme]
    exact hp.plain.1
  have hon : GoesOn (m.strand k) := ⟨hlife, hroll, hredir, hvland, hmarked, by simp [hops], hloops⟩
  have hstream : m.streamOf k = s.streamOf k := streamOf_congr himages himage hmember
  obtain ⟨ctx, hres, hafter⟩ := afterSlots_eq (v := ⟨half, h, true, [o], none⟩) hseg hon hpc
  have hissue : (s.selected c.val).issueNext k =
      { m.modStrand k (passes ⟨half, h, true, [o], none⟩ (stepsOn (m.streamOf k) 1 u.pc)) with ctx := ctx } := by
    rw [(alone_of_poised hp).issueNext (finds_selected c.val hb), ← hafter, ← hrun]
    rfl
  have hstep := step_poised hp c.isLt n.isLt hb (by rw [hissue]; exact hres)
  rw [hissue] at hstep
  refine ⟨_, hstep, ?_, fun j hj => ?_, ?_, rfl⟩
  · have hpass : passes ⟨half, h, true, [o], none⟩ (stepsOn (m.streamOf k) 1 u.pc) (m.strand k) =
        passed (m.strand k) h half o (stepsOn (s.streamOf k) 1 u.pc) := by
      simp only [passes, marks, passed, hgroup, List.nil_append, hstream]
      rw [hy, ← hyield, ← hredir]
    exact (m.strand_modStrand_self k _).trans hpass
  · exact (m.strand_modStrand k j _).trans (if_neg hj)
  · exact (m.core_modCore c.val c.val (fun k => { k with cycle := k.cycle + 1 })).trans (if_pos rfl)

theorem stepQueues : Claims.stepQueues := by
  intro c n s half b h o g e k u hp hf hh hd hseg hy hw hs he hlane hl htok htile hg ht hz hun hex hsus hmat hocc
  have hb : Finds s k half b h o := ⟨hf, hh, hd, hseg, hy, hw, hs, hl, hz⟩
  have hkind := kind_lane_of_decodeBundle hd he hlane
  obtain ⟨hlife, _, _, hroll, hmarked⟩ := hp.runs
  obtain ⟨hops, hland, hvland, hredir, hgroup, hpend⟩ := hp.still
  have hme : (s.issuer c.val k).me = bundleCounted (s.strand k) := s.me_issuer c.val k
  have hguard : (s.issuer c.val k).guardAt o.instr = some true := by
    refine guardAt_of_still (by rw [hme]; exact hpend) hg ?_
    have hfront : (s.issuer c.val k).front = (asStrand s k).front := (front_me_issuer s c.val k).trans (front_asStrand s k).symm
    rw [holds_of_front hfront g]
    exact ht
  obtain ⟨ctx, henq⟩ := enqueue_lane (s := s.issuer c.val k) (latch := u.front) (e := e) hun htok htile hl hocc
    (fun z => by rw [hme]; exact hmat z)
  obtain ⟨r, hr⟩ : ∃ r, r = ({ (s.issuer c.val k).modStrand k (withOp (laneOp u e o)) with ctx := ctx } : State) := ⟨_, rfl⟩
  have hrun : (s.issuer c.val k).runSlots [o] = r := by
    have hq : ({ num := (s.issuer c.val k).me.opNum + 1, cnt := (s.issuer c.val k).me.count, eng := e, slot := o.slot
                 bundle := (s.issuer c.val k).ctx.bundle, word := o.word, instr := o.instr, latch := u.front, guard := some true
                 stage := .queued, cap := none, tok := none, acts := 0, got := none } : QOp) = laneOp u e o := by rw [hme]; rfl
    have hkey : (s.issuer c.val k).meKey = k := strandKey_div_mod k
    rw [runSlots_queue he hguard, front_me_issuer, henq, hq, modMe, hkey, hr]
  have hrk : r.strand k = withOp (laneOp u e o) (bundleCounted u) := by
    have hc : (s.issuer c.val k).strand k = bundleCounted u := strand_modStrand_self _ k _
    rw [hr]
    exact (strand_modStrand_self _ k _).trans (by rw [hc])
  obtain ⟨pend, hwith⟩ := withOp_frame (laneOp u e o) (bundleCounted u)
  have hrk' := hrk.trans hwith
  have hopsq : (r.strand k).ops = [laneOp u e o] := by
    rw [hrk']
    exact congrArg (· ++ [laneOp u e o]) hops
  have hfront : (r.strand k).front = u.front := by rw [hrk']; rfl
  have heng : (r.strand k).eng = u.eng := by rw [hrk']; rfl
  have hon : GoesOn (r.strand k) := by
    refine ⟨?_, ?_, ?_, ?_, ?_, fun x hx => ?_, ?_⟩
    case refine_6 =>
      rw [hopsq, List.mem_singleton] at hx
      subst hx
      exact ⟨hex, hsus _ rfl⟩
    all_goals rw [hrk']
    · exact hlife
    · exact hroll
    · exact hredir
    · exact hvland
    · exact hmarked
    · exact hp.loops
  have hstream : r.streamOf k = s.streamOf k := streamOf_congr (by rw [hr]; rfl) (by rw [hrk']; rfl) (by rw [hrk']; rfl)
  obtain ⟨ctx', hres, hafter⟩ := afterSlots_eq (v := ⟨half, h, true, [o], none⟩) (at_ := u.pc) hseg hon (by rw [hrk']; rfl)
  have hissue : (s.selected c.val).issueNext k =
      { r.modStrand k (passes ⟨half, h, true, [o], none⟩ (stepsOn (r.streamOf k) 1 u.pc)) with ctx := ctx' } := by
    rw [(alone_of_poised hp).issueNext (finds_selected c.val hb), ← hafter, ← hrun]
    rfl
  have hstep := step_poised hp c.isLt n.isLt hb (by rw [hissue]; exact hres)
  rw [hissue] at hstep
  have htk := r.strand_modStrand_self k (passes ⟨half, h, true, [o], none⟩ (stepsOn (r.streamOf k) 1 u.pc))
  refine ⟨_, hstep, ?_, ?_, ?_, ?_, fun d hd => ?_, by rw [hr]; rfl, fun j hj => ?_⟩
  · exact (congrArg Strand.ops htk).trans hopsq
  · exact (congrArg Strand.front htk).trans hfront
  · exact (congrArg Strand.eng htk).trans heng
  · exact (congrArg Strand.pc htk).trans (by rw [← hstream]; rfl)
  · have hpd : (r.strand k).pend = ((pendDests o.instr).foldl (setPend true) (bundleCounted u)).pend := by
      rw [hrk, pend_withOp_laneOp]
    have hbit (w : Strand) (hw : w = passes ⟨half, h, true, [o], none⟩ (stepsOn (r.streamOf k) 1 u.pc) (r.strand k)) : isPending w d = true := by
      have hwp : w.pend = (r.strand k).pend := by
        rw [hw, pend_passes]
      rw [isPending_of_pend (hwp.trans hpd)]
      exact isPending_foldl_setPend (scalar_of_mem_pendDests hkind) _ d hd
    exact hbit _ htk
  · have hj' : r.strand j = s.strand j := by
      rw [hr]
      exact (strand_modStrand _ k j _).trans ((if_neg hj).trans ((strand_modStrand _ k j _).trans (if_neg hj)))
    exact (strand_modStrand r k j _).trans ((if_neg hj).trans hj')

/-- Settles O51: a poised strand's step issues its bundle. -/
theorem aStepRunsTheDecodedInstruction : Obligations.AStepRunsTheDecodedInstruction := ⟨stepPerforms, stepQueues⟩

end Sys2Proof.Proofs
end

section
/-! What the writes of the I/O die leave of contexts and of the journal's members, and the strand of a member that ends: the layer under O24, O48 and O49. -/

namespace Sys2Proof.Machine.State

variable {s t u : State}

/-! ### The settings of a context -/

/-- A stream's descriptor but for its signal. -/
def hushed (d : StreamD) : StreamD := { d with signal := false }

theorem hushed_signalled (b : Bool) (d : StreamD) : hushed (if b then { d with signal := true } else d) = hushed d := by
  split <;> rfl

/-- What a context is set to: where its save areas lie, and its streams but for their signals. -/
def setting (c : Hctx) : BitVec 64 × Vector StreamD 4 := (c.saveva, c.streams.map hushed)

/-- From s to t every context keeps its settings. -/
def SettingsStay (s t : State) : Prop := ∀ h, setting (t.hctx h) = setting (s.hctx h)

namespace SettingsStay

theorem refl (s : State) : SettingsStay s s := fun _ => rfl
theorem of_eq (h : t.ctxs = s.ctxs) : SettingsStay s t := fun j => by rw [hctx_of_ctxs h]
theorem trans (a : SettingsStay s t) (b : SettingsStay t u) : SettingsStay s u := fun h => (b h).trans (a h)

theorem foldl {α : Type} {f : State → α → State} (h : ∀ s e, SettingsStay s (f s e)) (l : List α) :
    ∀ s, SettingsStay s (l.foldl f s) := by
  induction l with
  | nil => exact refl
  | cons e l ih => exact fun s => (h s e).trans (ih _)

theorem saveva (a : SettingsStay s t) (h : Nat) : (t.hctx h).saveva = (s.hctx h).saveva := congrArg Prod.fst (a h)

theorem stream (a : SettingsStay s t) (h : Nat) (i : Fin 4) : hushed ((t.hctx h).streams[i]) = hushed ((s.hctx h).streams[i]) := by
  have e := congrArg (fun p : BitVec 64 × Vector StreamD 4 => p.2[i]) (a h)
  simpa [setting] using e

end SettingsStay

theorem modHctx_settingsStay (s : State) (h : Nat) (f : Hctx → Hctx) (hf : setting (f (s.hctx h)) = setting (s.hctx h)) :
    SettingsStay s (s.modHctx h f) := fun j => by
  rw [hctx_modHctx]
  split
  · next e => rw [hf, e]
  · rfl

theorem noteWrite_settingsStay (s : State) (pa n : Nat) : SettingsStay s (s.noteWrite pa n) := fun h => by
  have e : (s.noteWrite pa n).ctxs.get? h = (s.ctxs.get? h).map (s.signalTails pa n h) := Map.get?_map _ _ _
  simp only [hctx, Map.getD, e]
  cases s.ctxs.get? h with
  | none => rfl
  | some c =>
      simp only [Option.map_some, Option.getD_some, setting, signalTails, Vector.map_map]
      congr 2
      funext d
      exact hushed_signalled _ d

theorem agentTake_ctxs (s : State) (line : Nat) (st : Mesi) : (s.agentTake line st).ctxs = s.ctxs := by
  unfold agentTake
  split <;> rfl

theorem homeWrite_ctxs (s : State) (pa : Nat) (bs : List Byte) (src : Bool) : (s.homeWrite pa bs src).ctxs = s.ctxs := by
  rw [← s.agentTake_ctxs (pa / 64) .m]
  unfold homeWrite
  dsimp only
  split
  · split <;> rfl
  · split <;> split <;> rfl

theorem homePut_settingsStay (s : State) (pa : Nat) (bs : List Byte) (src : Bool) : SettingsStay s (s.homePut pa bs src) :=
  (SettingsStay.of_eq (s.homeWrite_ctxs pa bs src)).trans (noteWrite_settingsStay _ _ _)

theorem invalidateOthers_settingsStay (s : State) (cl line : Nat) : SettingsStay s (s.invalidateOthers cl line) :=
  SettingsStay.foldl (fun s c => by split <;> exact .refl s) _ s

theorem sysPut_settingsStay (s : State) (pa pclass : Nat) (bs : List Byte) : SettingsStay s (s.sysPut pa pclass bs) :=
  SettingsStay.foldl (fun s c => by
    dsimp only
    split
    · split
      · exact (s.invalidateOthers_settingsStay _ _).trans (homePut_settingsStay _ _ _ _)
      · exact s.homePut_settingsStay _ _ _
    · exact .refl s) _ s

theorem sysWrite_settingsStay {h va : Nat} {bs : List Byte} (e : s.sysWrite h va bs = some t) : SettingsStay s t := by
  unfold sysWrite at e
  split at e
  · cases e
  · cases e
    exact SettingsStay.foldl (fun s e => s.sysPut_settingsStay _ _ _) _ s

/-! ### A write to a save area -/

variable (s)

theorem saveAt_sysChange (h va : Nat) (w : Nat × List Byte) : SysChange s (s.saveAt h va w) := by
  unfold saveAt
  cases e : s.sysWrite h (va + w.1) w.2 with
  | none => exact .refl s
  | some t => exact s.sysWrite_sysChange e

theorem saveAt_journalStays (h va : Nat) (w : Nat × List Byte) : JournalStays s (s.saveAt h va w) := by
  unfold saveAt
  cases e : s.sysWrite h (va + w.1) w.2 with
  | none => exact .refl s
  | some t => exact sysWrite_journalStays e

theorem saveAt_settingsStay (h va : Nat) (w : Nat × List Byte) : SettingsStay s (s.saveAt h va w) := by
  unfold saveAt
  cases e : s.sysWrite h (va + w.1) w.2 with
  | none => exact .refl s
  | some t => exact sysWrite_settingsStay e

variable {s}

/-! ### Journals that list the same members -/

/-- The numbers of the launches, each with how many members it has. -/
def roster (s : State) : List (Nat × Nat) := s.launches.map (fun l => (l.id, l.members.length))

theorem JournalStays.roster (a : JournalStays s t) : t.roster = s.roster := by
  have h := congrArg (List.map (fun l : Launch => (l.id, l.members.length))) a
  rwa [List.map_map, List.map_map] at h

theorem roster_foldl {α : Type} {f : State → α → State} (h : ∀ s e, (f s e).roster = s.roster) (l : List α) :
    ∀ s, (l.foldl f s).roster = s.roster := by
  induction l with
  | nil => exact fun _ => rfl
  | cons e l ih => exact fun s => (ih _).trans (h s e)

theorem roster_modLaunch (s : State) (id : Nat) (f : Launch → Launch) (hf : ∀ l, (f l).id = l.id ∧ (f l).members.length = l.members.length) :
    (s.modLaunch id f).roster = s.roster := by
  simp only [State.roster, modLaunch, List.map_map]
  congr 1
  funext l
  simp only [Function.comp]
  split
  · rw [(hf l).1, (hf l).2]
  · rfl

theorem roster_modMember (s : State) (id i : Nat) (f : Machine.Member → Machine.Member) : (s.modMember id i f).roster = s.roster :=
  s.roster_modLaunch id _ (fun l => ⟨rfl, by simp⟩)

/-- The launch of a number, where the journal lists the same members. -/
theorem launch?_of_roster {id : Nat} {l : Launch} (h : t.roster = s.roster) (hl : s.launch? id = some l) :
    ∃ k, t.launch? id = some k ∧ k.members.length = l.members.length := by
  have find (v : State) : (v.launch? id).map (fun k => (k.id, k.members.length)) = v.roster.find? (fun e => e.1 == id) := by
    simp only [launch?, State.roster, List.find?_map, Function.comp_def]
  have hk := (find t).trans ((congrArg _ h).trans (find s).symm)
  rw [hl] at hk
  obtain ⟨k, hk, e⟩ := Option.map_eq_some_iff.mp hk
  exact ⟨k, hk, congrArg Prod.snd e⟩

/-- The launch of a number, where the journal stays. -/
theorem JournalStays.launch? {id : Nat} (a : JournalStays s t) : (t.launch? id).map calm = (s.launch? id).map calm := by
  have find (v : State) : (v.launch? id).map calm = (v.launches.map calm).find? (fun e => e.id == id) := by
    simp only [State.launch?, List.find?_map]
    rfl
  rw [find, find, a]

/-! ### A strand that has nothing of a matrix operation under way is freed -/

/-- No matrix operation of strand k is under way. -/
def NoMma (s : State) (k : Nat) : Prop := s.mmas.filter (fun m => strandKey m.core m.strand == k) = []

theorem discardWork_eq {k : Nat} (h : NoMma s k) : ∃ cs cls ms co ge pu wa ho re, s.discardWork k = { s with
    cores := cs, clusters := cls, mmas := ms, copies := co, gemvs := ge, pushes := pu, walks := wa, home := ho, replies := re } := by
  simp only [discardWork]
  rw [show s.mmas.filter (fun m => strandKey m.core m.strand == k) = [] from h]
  exact ⟨_, _, _, _, _, _, _, _, _, rfl⟩

theorem account_strands (s : State) (k : Nat) : (s.account k).strands = s.strands := rfl

theorem askRebind_eq (s : State) (cl : Nat) : ∃ ds, s.askRebind cl = { s with plat := ds } := by
  unfold askRebind
  split
  · exact ⟨s.plat, rfl⟩
  · exact ⟨_, rfl⟩

theorem releaseWindow_eq (s : State) (k : Nat) : ∃ cs, s.releaseWindow k = { s with cores := cs } := by
  unfold releaseWindow
  dsimp only
  split
  · exact ⟨s.cores, rfl⟩
  · exact ⟨_, rfl⟩

/-- Freeing a strand changes no other strand, no launch and no memory (R352, R445). -/
theorem freeStrand_eq {k : Nat} (h : NoMma s k) : (s.freeStrand k).strands = (s.modStrand k (freedStrand k)).strands ∧
    (s.freeStrand k).launches = s.launches ∧ (s.freeStrand k).mem = s.mem ∧ (s.freeStrand k).ctx = s.ctx := by
  obtain ⟨cs, cls, ms, co, ge, pu, wa, ho, re, e⟩ := discardWork_eq h
  obtain ⟨cs', e'⟩ := releaseWindow_eq ((s.discardWork k).account k) k
  obtain ⟨d, e''⟩ := askRebind_eq ((((s.discardWork k).account k).releaseWindow k).modStrand k (freedStrand k)) (k / 16)
  have hf : s.freeStrand k = ((((s.discardWork k).account k).releaseWindow k).modStrand k (freedStrand k)).askRebind (k / 16) := rfl
  rw [hf, e'', e', e]
  exact ⟨rfl, rfl, rfl, rfl⟩

end Sys2Proof.Machine.State
end

section
/-! What a suspended member writes: its registers by offset, and its continuation record (R64, R456). -/

namespace Sys2Proof.Proofs

open Machine Claims

/-! ### Bits and bytes -/

/-- The bits that a fold over some predicate numbers sets. -/
theorem foldl_predBit (p : Vector Bool 16) (js : List (Fin 16)) (i : Nat) : ∀ w : BitVec 64,
    (js.foldl (fun w j => if p[j] && j.val != 0 then w ||| (1#64 <<< j.val) else w) w).getLsbD i =
      (w.getLsbD i || js.any (fun j => p[j] && j.val != 0 && j.val == i)) := by
  induction js with
  | nil => simp
  | cons j js ih =>
      intro w
      rw [List.foldl_cons, ih, List.any_cons]
      by_cases hp : (p[j] && j.val != 0) = true
      · have hj := j.isLt
        have hb : (1#64 <<< j.val).getLsbD i = (j.val == i) := by
          rw [← BitVec.twoPow_eq, BitVec.getLsbD_twoPow, beq_eq_decide, decide_eq_true (by omega : j.val < 64), Bool.true_and]
        rw [if_pos hp, BitVec.getLsbD_or, hb, hp]
        simp [Bool.or_assoc]
      · rw [if_neg hp, Bool.eq_false_iff.mpr hp]
        simp

/-- Bit i of the bits of p1 to p15. -/
theorem predBits_bit (p : Vector Bool 16) (i : Nat) :
    (State.predBits p).getLsbD i = (decide (0 < i) && p.toList.getD i false) := by
  rw [State.predBits, foldl_predBit, show (0 : BitVec 64).getLsbD i = false from BitVec.getLsbD_zero, Bool.false_or]
  by_cases hi : i < 16
  · rw [List.getD_eq_getElem?_getD, Vector.getElem?_toList, Vector.getElem?_eq_getElem hi, Option.getD_some, Bool.eq_iff_iff]
    simp only [List.any_eq_true, List.mem_finRange, true_and, Bool.and_eq_true, bne_iff_ne, beq_iff_eq, decide_eq_true_eq]
    constructor
    · rintro ⟨j, ⟨hp, hj⟩, rfl⟩
      exact ⟨by omega, hp⟩
    · rintro ⟨h0, hp⟩
      exact ⟨⟨i, hi⟩, ⟨hp, by simpa using h0.ne'⟩, rfl⟩
  · rw [List.getD_eq_default _ _ (by simpa using hi), Bool.and_false, List.any_eq_false]
    intro j _
    have : j.val ≠ i := by have := j.isLt; omega
    simp [this]

/-- The predicate word of a save area keeps the bits that are not saved (R456). -/
theorem savedPreds_eq (u : Strand) (m : BitVec 16) (old : Nat) :
    ((BitVec.ofNat 64 old &&& ~~~(if m = BitVec.allOnes 16 then BitVec.allOnes 64 else m.setWidth 64)) |||
      (State.predBits u.front.p &&& (if m = BitVec.allOnes 16 then BitVec.allOnes 64 else m.setWidth 64))) = savedPreds u m old := by
  apply BitVec.eq_of_getLsbD_eq
  intro i hi
  have hs : (savedPreds u m old).getLsbD i =
      if m = BitVec.allOnes 16 ∨ m.getLsbD i = true then decide (0 < i) && u.front.p.toList.getD i false else old.testBit i := by
    rw [savedPreds, BitVec.getLsbD_ofFnLE, dif_pos hi]
  rw [hs, BitVec.getLsbD_or, BitVec.getLsbD_and, BitVec.getLsbD_and, BitVec.getLsbD_not, predBits_bit, BitVec.getLsbD_ofNat]
  by_cases hm : m = BitVec.allOnes 16
  · rw [if_pos hm, if_pos (.inl hm), BitVec.getLsbD_allOnes]
    simp [hi]
  · simp only [hm, if_false, false_or, BitVec.getLsbD_setWidth]
    cases hb : m.getLsbD i with
    | true => simp [hi]
    | false => simp [hi]

/-- A number's bytes by their powers of 256. -/
theorem sum_bytes (bs : List Byte) : ((List.range bs.length).map (fun j => (bs.getD j 0).toNat * 256 ^ j)).sum = leNat bs := by
  induction bs with
  | nil => rfl
  | cons b bs ih =>
      have hs : ((List.range bs.length).map (fun j => (bs.getD j 0).toNat * 256 ^ (j + 1))).sum = 256 * leNat bs := by
        rw [← ih, ← List.sum_map_mul_left]
        congr 2
        funext j
        ring
      rw [List.length_cons, List.range_succ_eq_map, List.map_cons, List.sum_cons, List.map_map]
      simpa [leNat, Function.comp_def] using hs

/-! ### The save area (R456) -/

/-- What a member writes before its record (R456). -/
theorem saveWrites_eq (g : Nat) (u : Strand) (m : SegRec) (oldP : List Byte) : State.saveWrites g u m oldP = saved g u m (leNat oldP) := by
  simp only [State.saveWrites, saved, savedPreds_eq, List.flatMap_cons, List.flatMap_nil, List.append_nil, List.append_assoc]
  rfl

/-! ### The continuation record (R64) -/

theorem tokByte_toNat (t : TokSt) : (BitVec.ofNat 8 (tokenCode t)).toNat = State.tokByte t := by cases t <;> rfl

/-- The TOKENS field: one byte for each token (R64, R411). -/
theorem tokens_field (ts : Vector Token 8) :
    ((List.range 8).map (fun j => State.tokByte (ts.toList.getD j Token.reset).st * 256 ^ j)).sum =
      leNat (ts.toList.map (fun c => BitVec.ofNat 8 (tokenCode c.st))) := by
  rw [← sum_bytes, List.length_map, Vector.length_toList]
  congr 1
  apply List.map_congr_left
  intro j hj
  have hj : j < ts.toList.length := by simpa using hj
  simp only [List.getD_eq_getElem?_getD, List.getElem?_map, List.getElem?_eq_getElem hj, Option.map_some, Option.getD_some, tokByte_toNat]

/-- A member with its levels at rest has no level to name in its record. -/
theorem levels_rest {u : Strand} (h : u.levels = Vector.replicate 6 Level.reset) :
    u.levels.toList.any (fun v => v != Level.reset) = false ∧ ∀ j, j < 6 → State.level u j = Level.reset := by
  rw [h]
  refine ⟨by decide, fun j hj => ?_⟩
  rw [State.level, h, List.getD_eq_getElem?_getD, Vector.getElem?_toList, Vector.getElem?_eq_getElem hj, Option.getD_some,
    Vector.getElem_replicate]

/-- The record of the acting member, its SUSPEND's word given and its levels at rest, as any state gives it in which the launch, the image, the save area and what it holds are the same (R64). -/
theorem contRecord_eq {s z : State} (l : Launch) (i : Nat) (w : Word32) (hva : z.saveVa s.meKey = s.saveVa s.meKey) (hi : z.images = s.images)
    (hl : s.me.levels = Vector.replicate 6 Level.reset)
    (hz : (z.strand s.meKey).levels = s.me.levels ∧ (z.strand s.meKey).tokens = s.me.tokens ∧ (z.strand s.meKey).pc = s.me.pc ∧
      (z.strand s.meKey).dep = some w) :
    z.contRecord l i s.meKey false = record s l i w := by
  obtain ⟨hzl, hzt, hzp, hzd⟩ := hz
  obtain ⟨hany, hlv⟩ := levels_rest (hzl.trans hl)
  have himg : z.image? l.image = s.image? l.image := by simp only [State.image?, hi]
  have hrun : ((List.range 6).map (fun j => if (State.level (z.strand s.meKey) j).run then 2 ^ j else 0)).sum = 0 := by
    rw [List.map_congr_left (fun j hj => by rw [hlv j (List.mem_range.mp hj)])]
    decide
  have hit : ((List.range 6).map (fun j => (State.level (z.strand s.meKey) j).iter.toNat * 2 ^ (20 * j))).sum = 0 := by
    rw [List.map_congr_left (fun j hj => by rw [hlv j (List.mem_range.mp hj)])]
    decide
  have hw : State.wcodeOf l.width = (match l.width with | 4 => 2 | 2 => 1 | _ => 0) := by
    split
    · next h => rw [h]; rfl
    · next h => rw [h]; rfl
    · next h4 h2 => rw [State.wcodeOf, if_neg h4, if_neg h2]
  simp only [State.contRecord, record, hrun, hit, hany, hva, himg, hzt, hzp, hzd, tokens_field, hw, Option.getD_some, Bool.false_eq_true,
    if_false, Bool.false_and]
    <;> rfl

end Sys2Proof.Proofs
end

section
/-! The rendezvous of a suspension and the exit of a member (R62, R63, R351, R352). -/

namespace Sys2Proof.Machine.State

variable {s t u : State}

/-! ### The rendezvous -/

theorem not_arrived {k : Nat} (h : (s.strand k).life ≠ .rendezvous) : s.arrived k = false := by simp [arrived, h]

/-- A member that has arrived has no matrix operation under way. -/
theorem noMma_of_idleBut {k : Nat} {f : Bool} {ok : QOp → Bool} (h : s.idleBut k f ok = true) : NoMma s k := by
  simp only [idleBut, Bool.and_eq_true, Bool.not_eq_true', List.any_eq_false] at h
  obtain ⟨⟨⟨⟨⟨_, hm⟩, _⟩, _⟩, _⟩, _⟩ := h
  exact List.filter_eq_nil_iff.mpr hm

theorem noMma_of_arrived {k : Nat} (h : s.arrived k = true) : NoMma s k := by
  simp only [arrived, Bool.and_eq_true] at h
  obtain ⟨⟨⟨⟨⟨⟨_, hi⟩, _⟩, _⟩, _⟩, _⟩, _⟩ := h
  exact noMma_of_idleBut hi

/-- The rendezvous waits for a member that has not come (R63). -/
theorem tryRendezvous_waits {id : Nat} {l : Launch} {e : Nat × Machine.Member} (hl : s.launch? id = some l) (he : e ∈ liveMembers l)
    (h : (s.strand (Member.key e.2)).life ≠ .rendezvous) : s.tryRendezvous id = s := by
  have ha : (liveMembers l).all (fun e => s.arrived (Member.key e.2)) = false :=
    List.all_eq_false.mpr ⟨e, he, by simp [not_arrived h]⟩
  simp [tryRendezvous, hl, ha]

theorem checkInAll_none {k : Nat} (h : (s.strand k).held = []) : s.checkInAll k = s := by simp [checkInAll, h]

theorem areaLines_idle {k : Nat} (hh : s.home = []) (hb : s.busyLines = []) : s.areaLines k = [] := by
  rw [areaLines, hh, hb]
  refine List.flatMap_eq_nil_iff.mpr (fun c _ => ?_)
  split <;> rfl

/-- When every live member has arrived and holds no line, the gang is suspended at once (R63). -/
theorem tryRendezvous_suspends {id : Nat} {l : Launch} (hl : s.launch? id = some l) (hst : l.st = .running) (hs : l.status = none)
    (hn : liveMembers l ≠ []) (ha : ∀ e ∈ liveMembers l, s.arrived (Member.key e.2) = true ∧ (s.strand (Member.key e.2)).held = [])
    (hh : s.home = []) (hb : s.busyLines = []) : s.tryRendezvous id = suspendGang l s := by
  have hall : (liveMembers l).all (fun e => s.arrived (Member.key e.2)) = true := List.all_eq_true.mpr (fun e he => (ha e he).1)
  have hin : (liveMembers l).foldl (fun s e => s.checkInAll (Member.key e.2)) s = s :=
    foldl_eq_self (fun e he => checkInAll_none (ha e he).2)
  have hlines : s.gangLines l = [] := List.flatMap_eq_nil_iff.mpr (fun e _ => areaLines_idle hh hb)
  have he : (liveMembers l).isEmpty = false := by simpa using hn
  simp only [tryRendezvous, hl, hst, hs, hin, hall, he, hlines, inTurn_idle _ hh (lines := []) (by simp)]
  simp

/-! ### The journal of a suspension -/

theorem roster_putDatum (s : State) (k : Nat) (d : Dest) (v : Datum) : (s.putDatum k d v).roster = s.roster := by
  unfold putDatum
  split
  · split <;> rfl
  · rfl
  · rfl

theorem roster_settleLandings (s : State) (k : Nat) : (s.settleLandings k).roster = s.roster := by
  change State.roster (List.foldl _ (List.foldl _ s _) _) = _
  rw [roster_foldl (fun s l => by split <;> simp [roster_putDatum]), roster_foldl (fun s l => roster_putDatum s _ _ _)]

theorem roster_movePark (s : State) (k n : Nat) : (s.movePark k n).roster = s.roster := by
  unfold movePark
  split
  · rfl
  · split <;> rfl

theorem roster_freeBytes (n : Nat) : ∀ s : State, (freeBytes n s).2.roster = s.roster := by
  induction n with
  | zero => exact fun _ => rfl
  | succ n ih => exact fun s => (ih _).trans rfl

theorem roster_unlock (s : State) (m : Mma) : (s.unlock m).roster = s.roster := by
  unfold unlock
  split
  · rfl
  · refine roster_foldl (fun s b => ?_) _ s
    unfold unlockBank
    dsimp only
    split <;> rfl

theorem roster_freeStrand (s : State) (k : Nat) : (s.freeStrand k).roster = s.roster := by
  obtain ⟨cs, e⟩ := releaseWindow_eq ((s.discardWork k).account k) k
  obtain ⟨d, e'⟩ := askRebind_eq ((((s.discardWork k).account k).releaseWindow k).modStrand k (freedStrand k)) (k / 16)
  have hf : s.freeStrand k = ((((s.discardWork k).account k).releaseWindow k).modStrand k (freedStrand k)).askRebind (k / 16) := rfl
  rw [hf, e', e]
  exact roster_foldl roster_unlock (s.mmas.filter (fun m => strandKey m.core m.strand == k)) s

theorem roster_saveAt (s : State) (h va : Nat) (w : Nat × List Byte) : (s.saveAt h va w).roster = s.roster := (s.saveAt_journalStays h va w).roster

theorem roster_suspendMember (l : Launch) (s : State) (e : Nat × Machine.Member) : (suspendMember l s e).roster = s.roster := by
  unfold suspendMember
  dsimp only
  rw [roster_modMember, roster_freeStrand]
  change State.roster (State.saveAt _ _ _ _) = _
  rw [roster_saveAt, roster_foldl]
  · split
    · rw [roster_saveAt, roster_freeBytes, roster_foldl (fun s w => roster_saveAt s _ _ _), roster_foldl (fun s p => roster_movePark s _ _),
        roster_settleLandings]
    · rw [roster_foldl (fun s w => roster_saveAt s _ _ _), roster_foldl (fun s p => roster_movePark s _ _), roster_settleLandings]
  · intro s j
    split
    · rw [roster_saveAt, roster_freeBytes]
    · rfl

/-- A suspended launch: SUSPENDED, and a member that has exited keeps no record. -/
def laidOff (l : Launch) : Launch := { l with
  members := l.members.map (fun m => if m.exited then { m with record := [], copies := [], gemvs := [] } else m)
  st := .suspended, side := false, everSusp := true, thermal := false, markAt := none, hostVer := false }

/-- A gang's suspension: its members', then its launch's. -/
theorem suspendGang_eq (l : Launch) (s : State) : suspendGang l s = ((liveMembers l).foldl (suspendMember l)
    (if (liveMembers l).any (fun e => (s.strand (Member.key e.2)).dep.isNone) then s.notePreempt l (leadCore l) else s)).modLaunch l.id laidOff :=
  rfl

theorem roster_notePreempt (s : State) (l : Launch) (core : Nat) : (s.notePreempt l core).roster = s.roster := by
  unfold notePreempt
  dsimp only
  split <;> rfl

/-- A gang's suspension leaves its launch SUSPENDED, with the members that it had (R41, R63). -/
theorem suspendGang_suspends {l m : Launch} (hl : s.launch? l.id = some m) :
    ∃ k, (suspendGang l s).launch? l.id = some k ∧ k.st = .suspended ∧ k.members.length = m.members.length := by
  have hp : (if (liveMembers l).any (fun e => (s.strand (Member.key e.2)).dep.isNone) then s.notePreempt l (leadCore l) else s).roster =
      s.roster := by
    split
    · exact s.roster_notePreempt _ _
    · rfl
  obtain ⟨k, hk, hn⟩ := launch?_of_roster ((roster_foldl (roster_suspendMember l) (liveMembers l) _).trans hp) hl
  rw [suspendGang_eq, launch?_modLaunch _ l.id laidOff (fun _ => rfl), hk]
  exact ⟨_, rfl, rfl, by simpa [laidOff] using hn⟩

end Sys2Proof.Machine.State
end

section
/-! A member that suspends alone, and the member that exits: O24. -/

namespace Sys2Proof.Machine.State

variable {s t u : State}

/-! ### A lone member's suspension (R63, R64, R456) -/

theorem settleLandings_none {k : Nat} (hl : (s.strand k).landings = []) (hv : (s.strand k).vland = []) :
    s.settleLandings k = s.modStrand k (fun t => { t with vland := [], landings := [] }) := by
  simp [settleLandings, hl, hv]

/-- The registers of strand k written to its save area by some masks. -/
def registersSaved (k : Nat) (m : SegRec) (z : State) : State :=
  (saveWrites (z.width (k / 4)) (z.strand k) m ((z.sysRead (z.strand k).hc (z.saveVa k + 104) 8).getD [])).foldl
    (fun s w => s.saveAt (z.strand k).hc (z.saveVa k) w) z

theorem registersSaved_stays (k : Nat) (m : SegRec) (z : State) :
    SysChange z (registersSaved k m z) ∧ JournalStays z (registersSaved k m z) ∧ SettingsStay z (registersSaved k m z) :=
  ⟨SysChange.foldl (fun s w => s.saveAt_sysChange _ _ w) _ z, JournalStays.foldl (fun s w => s.saveAt_journalStays _ _ w) _ z,
    SettingsStay.foldl (fun s w => s.saveAt_settingsStay _ _ w) _ z⟩

/-- Where the journal, the settings and the strands stay, a strand's save area lies where it lay. -/
theorem saveVa_stays (hc : SysChange s t) (hj : JournalStays s t) (hs : SettingsStay s t) (k : Nat) : t.saveVa k = s.saveVa k := by
  have e : (t.launchOf k).bind (fun l => l.areas[(s.strand k).member]?) = (s.launchOf k).bind (fun l => l.areas[(s.strand k).member]?) := by
    have h := congrArg (fun o : Option Launch => o.bind (fun l => l.areas[(s.strand k).member]?)) (hj.launch? (id := (s.strand k).launch))
    simp only [launchOf, hc.strand]
    cases h₁ : t.launch? (s.strand k).launch <;> cases h₂ : s.launch? (s.strand k).launch <;> simp_all [calm]
  simp only [saveVa, hc.strand, hs.saveva, e]

/-- A suspended member in its launch: its record, with the copies and the GEMVs that state c keeps for it. -/
def keeps (c : State) (id i : Nat) (t : Strand) (r : List Byte) (m : Machine.Member) : Machine.Member :=
  { m with
    dep := t.dep, record := r, levels := t.levels, schedNext := t.schedNext
    copies := c.copies.filter (fun c => c.launch == id && c.core == 128 && c.strand == i)
    gemvs := c.gemvs.filter (fun c => c.launch == id && c.core == 128 && c.strand == i) }

/-- The suspension of a member whose SUSPEND has given its word and that, its landings written, has no park, no level and no faulted token: its registers and then its record are written. -/
theorem suspendMember_lone {l : Launch} {i : Nat} {a : Machine.Member} {v z : State} (hz : v.settleLandings (Member.key a) = z)
    (hp : (z.strand (Member.key a)).parks = []) (hd : (z.strand (Member.key a)).dep.isNone = false)
    (hlv : (z.strand (Member.key a)).levels = Vector.replicate 6 Level.reset)
    (htk : ∀ c ∈ (z.strand (Member.key a)).tokens.toList, c.st ≠ .faulted) :
    let k := Member.key a
    let w := registersSaved k (z.masksAt l i false (z.strand k).pc) z
    let r := w.contRecord l i k false
    let c := (w.saveAt (z.strand k).hc (z.saveVa k) (0, r)).keepCopies k i
    suspendMember l v (i, a) = (c.freeStrand k).modMember l.id i (keeps c l.id i (z.strand k) r) := by
  have hft (u : State) : (List.range 8).foldl (fun s j =>
      if ((z.strand (Member.key a)).tokens.toList.getD j Token.reset).st = .faulted then
        let (bs, s) := freeBytes 8 s
        s.saveAt (z.strand (Member.key a)).hc (z.saveVa (Member.key a)) (2560 + 64 * j, bs)
      else s) u = u := by
    refine foldl_eq_self (fun j hj => if_neg ?_)
    have hj : j < (z.strand (Member.key a)).tokens.toList.length := by simpa using hj
    rw [List.getD_eq_getElem?_getD, List.getElem?_eq_getElem hj]
    exact htk _ (List.getElem_mem hj)
  intro k w r c
  unfold suspendMember
  dsimp only
  rw [hz]
  simp only [hp, hd, (Proofs.levels_rest hlv).1, List.foldl_nil, hft, Bool.false_eq_true, if_false]
  rfl

end Sys2Proof.Machine.State
end

section
/-! SUSPEND and EXIT: O24. -/

namespace Sys2Proof.Machine.State

variable {s t u : State}

theorem mem_liveMembers {l : Launch} {i : Nat} {a : Machine.Member} :
    (i, a) ∈ liveMembers l ↔ l.members[i]? = some a ∧ a.exited = false := by
  simp only [liveMembers, List.mem_map, List.mem_filter, Prod.mk.injEq, Prod.exists, Bool.not_eq_true']
  constructor
  · rintro ⟨b, j, ⟨h, hx⟩, rfl, rfl⟩
    exact ⟨List.mk_mem_zipIdx_iff_getElem?.mp h, hx⟩
  · exact fun ⟨h, hx⟩ => ⟨a, i, ⟨List.mk_mem_zipIdx_iff_getElem?.mpr h, hx⟩, rfl, rfl⟩

theorem launch?_id {id : Nat} {l : Launch} (h : s.launch? id = some l) : l.id = id := by simpa using List.find?_some h

theorem launch?_of_launches {id : Nat} (h : t.launches = s.launches) : t.launch? id = s.launch? id := by rw [launch?, launch?, h]

/-- A launch with member i changed. -/
def withMember (i : Nat) (f : Machine.Member → Machine.Member) (l : Launch) : Launch :=
  { l with members := l.members.zipIdx.map (fun e => if e.2 = i then f e.1 else e.1) }

theorem launch?_modMember {id i : Nat} {f : Machine.Member → Machine.Member} {l : Launch} (h : s.launch? id = some l) :
    (s.modMember id i f).launch? id = some (withMember i f l) :=
  (launch?_modLaunch s id (withMember i f) (fun _ => rfl)).trans (congrArg _ h)

theorem getElem?_members_mod (ms : List Machine.Member) (i n : Nat) (f : Machine.Member → Machine.Member) :
    (ms.zipIdx.map (fun e => if e.2 = i then f e.1 else e.1))[n]? = (ms[n]?).map (fun m => if n = i then f m else m) := by
  rw [List.getElem?_map, List.getElem?_zipIdx]
  cases ms[n]? <;> simp

/-- The launch of a suspended gang of one member, which keeps the record. -/
theorem suspended_member {c : State} {k id i : Nat} {l : Launch} {a : Machine.Member} (hm : NoMma c k) (hc : c.launch? id = some l)
    (ha : l.members[i]? = some a) (hx : a.exited = false) (t : Strand) (r : List Byte) :
    ∃ j b, (((c.freeStrand k).modMember id i (keeps c id i t r)).modLaunch id laidOff).launch? id = some j ∧
      j.members[i]? = some b ∧ b.record = r ∧ b.dep = t.dep ∧ b.exited = a.exited := by
  have hf : (c.freeStrand k).launch? id = some l := (launch?_of_launches (freeStrand_eq hm).2.1).trans hc
  rw [launch?_modLaunch _ id laidOff (fun _ => rfl), launch?_modMember hf]
  refine ⟨_, keeps c id i t r a, rfl, ?_, rfl, rfl, rfl⟩
  rw [laidOff, List.getElem?_map, withMember, getElem?_members_mod, ha]
  simp [keeps, hx]

/-- The suspension of a gang of one live member. -/
theorem suspendGang_lone {l : Launch} {i : Nat} {a : Machine.Member} {v : State} (hl : liveMembers l = [(i, a)])
    (hd : (v.strand (Member.key a)).dep.isNone = false) : suspendGang l v = (suspendMember l v (i, a)).modLaunch l.id laidOff := by
  simp [suspendGang_eq, hl, hd]

end Sys2Proof.Machine.State

namespace Sys2Proof.Proofs

open Machine Claims

/-- A strand that waits at the rendezvous with its SUSPEND's word. -/
def comes (w : Word32) (u : Strand) : Strand := { u with life := .rendezvous, dep := some w }

/-- SUSPEND marks its strand as having come and tries the rendezvous; the strand waits unless it has been freed (R351). -/
theorem suspendOp_eq {x : XReg} {s : State} (hs : settled s) :
    let v := (s.modMe (comes (BitVec.ofNat 32 (s.rdX x).toNat))).tryRendezvous s.me.launch
    State.suspendOp x s = if (v.strand s.meKey).life == .rendezvous then v.wait else v := by
  simp only [State.suspendOp, State.earlierGone_of_settled hs]
  rfl

/-- A strand that has come, its landings written. -/
def landed (w : Word32) (u : Strand) : Strand := { comes w u with vland := [], landings := [] }

/-- A gang whose one live member is the acting strand, with nothing in flight and its levels at rest. -/
structure SuspendsAlone (s : State) (l : Launch) (i : Nat) (a : Member) : Prop where
  launch : s.launch? s.me.launch = some l
  live : State.liveMembers l = [(i, a)]
  key : State.Member.key a = s.meKey
  noMma : State.NoMma s s.meKey
  levels : s.me.levels = Vector.replicate 6 Level.reset
  landings : s.me.landings = []
  vland : s.me.vland = []
  parks : s.me.parks = []
  tokens : ∀ c ∈ s.me.tokens.toList, c.st ≠ .faulted

/-- What it writes to its save area before its record. -/
def registerWrites (s : State) (l : Launch) (i : Nat) : List (Nat × List Byte) :=
  saved (s.width (s.meKey / 4)) s.me (s.masksAt l i false s.me.pc) (leNat ((s.sysRead s.me.hc (s.saveVa s.meKey + 104) 8).getD []))

/-- The state in which its save area has taken some writes. -/
def areaWritten (s : State) (w : Word32) (ws : List (Nat × List Byte)) : State :=
  ws.foldl (fun (v : State) (e : Nat × List Byte) => (v.sysWrite s.me.hc (s.saveVa s.meKey + e.1) e.2).getD v) (s.modMe (landed w))

section

variable {s : State} {l : Launch} {i : Nat} {a : Member} {w : Word32}

theorem landed_strand (s : State) (w : Word32) : (s.modMe (landed w)).strand s.meKey = landed w s.me := by rw [State.strand_modMe, if_pos rfl]

theorem landed_saveVa (s : State) (w : Word32) : (s.modMe (landed w)).saveVa s.meKey = s.saveVa s.meKey := by
  simp only [State.saveVa, State.launchOf, landed_strand]
  rfl

theorem areaWritten_stays (s : State) (w : Word32) (ws : List (Nat × List Byte)) : State.SysChange (s.modMe (landed w)) (areaWritten s w ws) ∧
    State.JournalStays (s.modMe (landed w)) (areaWritten s w ws) ∧ State.SettingsStay (s.modMe (landed w)) (areaWritten s w ws) :=
  ⟨State.SysChange.foldl (fun s e => s.saveAt_sysChange _ _ e) ws _, State.JournalStays.foldl (fun s e => s.saveAt_journalStays _ _ e) ws _,
    State.SettingsStay.foldl (fun s e => s.saveAt_settingsStay _ _ e) ws _⟩

theorem areaWritten_concat (s : State) (w : Word32) (ws : List (Nat × List Byte)) (e : Nat × List Byte) :
    (areaWritten s w ws).saveAt s.me.hc (s.saveVa s.meKey) e = areaWritten s w (ws ++ [e]) := by
  rw [areaWritten, areaWritten, List.foldl_append]
  rfl

theorem registersSaved_landed (s : State) (l : Launch) (i : Nat) (w : Word32) :
    State.registersSaved s.meKey (s.masksAt l i false s.me.pc) (s.modMe (landed w)) = areaWritten s w (registerWrites s l i) := by
  rw [State.registersSaved, saveWrites_eq, landed_strand, landed_saveVa]
  rfl

/-- After these writes the continuation record is still that of the state before them. -/
theorem contRecord_areaWritten (h : SuspendsAlone s l i a) (w : Word32) (ws : List (Nat × List Byte)) :
    (areaWritten s w ws).contRecord l i s.meKey false = record s l i w := by
  obtain ⟨hc, hj, hs⟩ := areaWritten_stays s w ws
  refine contRecord_eq l i w ((State.saveVa_stays hc hj hs s.meKey).trans (landed_saveVa s w)) (congrArg (·.images) hc.rest) h.levels ?_
  rw [hc.strand, landed_strand]
  exact ⟨rfl, rfl, rfl, rfl⟩

/-- Its suspension: the registers and then the record are written, the strand is freed, and the launch keeps the record (R63). -/
theorem suspendGang_alone_eq (h : SuspendsAlone s l i a) :
    ∃ v, v = areaWritten s w (registerWrites s l i ++ [(0, record s l i w)]) ∧ State.suspendGang l (s.modMe (comes w)) =
      (((v.keepCopies s.meKey i).freeStrand s.meKey).modMember l.id i
        (State.keeps (v.keepCopies s.meKey i) l.id i (landed w s.me) (record s l i w))).modLaunch l.id State.laidOff := by
  have halone := h
  obtain ⟨-, ha, hk, -, hlv, hla, hvl, hp, htk⟩ := halone
  have hv : (s.modMe (comes w)).strand s.meKey = comes w s.me := by rw [State.strand_modMe, if_pos rfl]
  have hz := landed_strand s w
  have hset : (s.modMe (comes w)).settleLandings (State.Member.key a) = s.modMe (landed w) := by
    rw [hk, State.settleLandings_none (by rw [hv]; exact hla) (by rw [hv]; exact hvl)]
    exact State.modStrand_modStrand s s.meKey (comes w) _
  have h₁ := State.suspendGang_lone ha (v := s.modMe (comes w)) (by rw [hk, hv]; rfl)
  have h₂ := State.suspendMember_lone (l := l) (i := i) hset (by rw [hk, hz]; exact hp) (by rw [hk, hz]; rfl) (by rw [hk, hz]; exact hlv)
    (by rw [hk, hz]; exact htk)
  rw [hk] at h₂
  dsimp only at h₂
  rw [hz, landed_saveVa, show State.registersSaved s.meKey ((s.modMe (landed w)).masksAt l i false (landed w s.me).pc) (s.modMe (landed w)) =
    areaWritten s w (registerWrites s l i) from registersSaved_landed s l i w, contRecord_areaWritten h w,
    show (landed w s.me).hc = s.me.hc from rfl, areaWritten_concat] at h₂
  exact ⟨_, rfl, h₁.trans (congrArg (·.modLaunch l.id State.laidOff) h₂)⟩

/-- What it leaves: its strand free, its registers and its record written, and the record in its launch (R63, R64, R456). -/
theorem suspendGang_alone (h : SuspendsAlone s l i a) (w : Word32) :
    let t := State.suspendGang l (s.modMe (comes w))
    t.meKey = s.meKey ∧ t.strand s.meKey = State.freedStrand s.meKey s.me ∧
      t.mem = (areaWritten s w (registerWrites s l i ++ [(0, record s l i w)])).mem ∧
      ∃ k b, t.launch? s.me.launch = some k ∧ k.members[i]? = some b ∧ b.record = record s l i w ∧ b.dep = some w ∧ b.exited = a.exited := by
  intro t
  obtain ⟨v, hvd, ht⟩ := suspendGang_alone_eq (w := w) h
  obtain ⟨c, hcd⟩ : ∃ c, c = v.keepCopies s.meKey i := ⟨_, rfl⟩
  obtain ⟨hl, ha, -, hm, -⟩ := h
  have hid : l.id = s.me.launch := State.launch?_id hl
  obtain ⟨hai, hax⟩ := State.mem_liveMembers.mp (ha ▸ List.mem_singleton_self _)
  obtain ⟨hc, hj, -⟩ := areaWritten_stays s w (registerWrites s l i ++ [(0, record s l i w)])
  rw [← hvd] at hc hj
  have hcs : c.strand s.meKey = landed w s.me := by
    rw [hcd, ← landed_strand]
    exact hc.strand s.meKey
  have hcx : c.ctx = s.ctx := by rw [hcd]; exact hc.ctx
  have hcm : State.NoMma c s.meKey := by
    rw [State.NoMma, show c.mmas = s.mmas by rw [hcd]; exact congrArg (·.mmas) hc.rest]
    exact hm
  have hcl : (c.launch? s.me.launch).map State.calm = some (State.calm l) := by
    rw [hcd]
    exact hj.launch?.trans (congrArg (Option.map State.calm) (show (s.modMe (landed w)).launch? s.me.launch = some l from hl))
  obtain ⟨l', hl', hcalm⟩ := Option.map_eq_some_iff.mp hcl
  have hmem : l'.members = l.members := (congrArg (·.members) hcalm :)
  obtain ⟨hfs, -, hfm, hfx⟩ := State.freeStrand_eq hcm
  obtain ⟨k, b, hk, hb⟩ := State.suspended_member (i := i) (a := a) hcm (hid ▸ hl') (hmem ▸ hai) hax (landed w s.me) (record s l i w)
  rw [show t = _ from ht, ← hcd, ← hvd]
  refine ⟨?_, ?_, ?_, k, b, hid ▸ hk, hb⟩
  · exact (congrArg (fun x : Ctx => strandKey x.core x.strand) (hfx.trans hcx) :)
  · change (c.freeStrand s.meKey).strand s.meKey = _
    have hst : (c.freeStrand s.meKey).strand s.meKey = (c.modStrand s.meKey (State.freedStrand s.meKey)).strand s.meKey := by
      simp only [State.strand, hfs]
    rw [hst, State.strand_modStrand_self, hcs]
    rfl
  · change (c.freeStrand s.meKey).mem = _
    rw [hfm, hcd]
    rfl

end

theorem suspendWaitsForTheRendezvousOrCompletesIt : Claims.suspendWaitsForTheRendezvousOrCompletesIt := by
  intro g x s l w m hp hs hl hst hstat
  have hm : m.launch? s.me.launch = some l := hl
  have hexec : exec (.suspend g x) s = .next (State.suspendOp x s) :=
    (show exec (.suspend g x) s = s.slotOp (.suspend g x) g (State.suspendOp x) by delta exec; rfl).trans (slotOp_performs _ hp rfl)
  rw [suspendOp_eq hs] at hexec
  have hcome : m.strand s.meKey = comes w s.me := by rw [State.strand_modMe, if_pos rfl]; rfl
  refine ⟨fun e he hlife => ?_, fun hn hb ha => ?_⟩
  · rw [show (s.modMe (comes (BitVec.ofNat 32 (s.rdX x).toNat))).tryRendezvous s.me.launch = m from State.tryRendezvous_waits hm he hlife,
      hcome] at hexec
    exact hexec
  · obtain ⟨-, -, -, -, hh, -⟩ := hs
    have hid : l.id = s.me.launch := State.launch?_id hl
    rw [show (s.modMe (comes (BitVec.ofNat 32 (s.rdX x).toNat))).tryRendezvous s.me.launch = State.suspendGang l m from
      State.tryRendezvous_suspends hm hst hstat hn ha hh hb] at hexec
    have hwait (v : State) (b : Bool) : (if b then v.wait else v).launch? s.me.launch = v.launch? s.me.launch := by cases b <;> rfl
    obtain ⟨k, hk, hks, hkn⟩ := State.suspendGang_suspends (s := m) (l := l) (hid ▸ hm)
    refine ⟨_, k, hexec, (hwait _ _).trans (hid ▸ hk), hks, hkn, fun i a hli hkey hlv hla hvl hpk htk => ?_⟩
    have hmm : State.NoMma s s.meKey := by
      rw [← hkey]
      exact State.noMma_of_arrived (s := m) (ha (i, a) (hli ▸ List.mem_singleton_self _)).1
    obtain ⟨hmk, hme, hmem, k', b, hk', hb₁, hb₂, hb₃, hb₄⟩ := suspendGang_alone ⟨hl, hli, hkey, hmm, hlv, hla, hvl, hpk, htk⟩ w
    obtain rfl : k = k' := Option.some.inj (hk.symm.trans (hid ▸ hk'))
    rw [show (State.suspendGang l m).strand s.meKey = _ from hme]
    exact ⟨s.modMe (landed w), b, rfl, hb₁, hb₂, hb₃, hb₄, (congrArg (State.suspendGang l m).strand hmk).trans hme, hmem⟩

end Sys2Proof.Proofs
end

section
/-! EXIT (R352), and with SUSPEND the whole of O24. -/

namespace Sys2Proof.Machine.State

variable {s t u : State}

/-! ### The members that a launch has left -/

/-- A member that has exited. -/
def gone (m : Machine.Member) : Machine.Member := { m with exited := true }

theorem zipIdx_zipIdx {α : Type} (l : List α) : l.zipIdx.zipIdx = l.zipIdx.map (fun e => (e, e.2)) := by
  apply List.ext_getElem?
  intro i
  simp only [List.getElem?_zipIdx, List.getElem?_map]
  cases l[i]? <;> simp

/-- The live members beside the one that exits. -/
theorem liveMembers_gone (l : Launch) (j : Nat) : liveMembers (withMember j gone l) = (liveMembers l).filter (fun e => e.1 != j) := by
  simp only [liveMembers, withMember, List.zipIdx_map, zipIdx_zipIdx, List.filter_map, List.map_map, List.filter_filter]
  have hp : ∀ e : Machine.Member × Nat, (!(if e.2 = j then gone e.1 else e.1).exited) = (e.2 != j && !e.1.exited) := by
    intro e
    by_cases h : e.2 = j <;> simp [h, gone]
  simp only [Function.comp_def, Prod.map, id, hp]
  refine List.map_congr_left (fun e he => ?_)
  obtain ⟨-, he⟩ := List.mem_filter.mp he
  simp only [Bool.and_eq_true, bne_iff_ne] at he
  simp [he.1]

theorem settleBars_members (l : Launch) : (settleBars l).members = l.members := rfl
theorem liveMembers_settleBars (l : Launch) : liveMembers (settleBars l) = liveMembers l := rfl

/-- A bar that waited only for members that have gone begins its next generation (R415). -/
theorem bars_settleBars (l : Launch) (j : Fin 16) : (settleBars l).bars[j] =
    if l.bars[j].1 ≠ 0 ∧ (liveMembers l).length ≤ l.bars[j].1 then (0, (l.bars[j].2 + 1) % 65536) else l.bars[j] := by
  simp [settleBars]

/-- A launch that member j has left. -/
def left (j : Nat) (l : Launch) : Launch := settleBars (withMember j gone l)

theorem left_id (j : Nat) (l : Launch) : (left j l).id = l.id := rfl

/-! ### The end of a member -/

/-- A strand whose levels have ended. -/
def unlooped (u : Strand) : Strand := { u with levels := u.levels.map (fun v => { v with run := false }) }

/-- What the exit of a member does before it looks at its launch (R352). -/
def departed (k : Nat) (s : State) : State :=
  ((((s.modStrand k unlooped).checkInAll k).freeStrand k).modMember (s.strand k).launch (s.strand k).member gone).modLaunch
    (s.strand k).launch settleBars

theorem exitMember_eq (k : Nat) (s : State) : s.exitMember k =
    match (departed k s).launch? (s.strand k).launch with
    | none => departed k s
    | some l =>
        if l.status.isSome then departed k s
        else if (liveMembers l).isEmpty then (departed k s).setStatus l.id (if l.replays = 0 then .done else .replayedDone)
        else (departed k s).tryRendezvous l.id := rfl

/-- A member that holds no line has none to check in. -/
theorem departed_eq {k : Nat} (hh : (s.strand k).held = []) : departed k s =
    (((s.modStrand k unlooped).freeStrand k).modMember (s.strand k).launch (s.strand k).member gone).modLaunch (s.strand k).launch settleBars := by
  rw [departed, checkInAll_none (by rw [strand_modStrand_self]; exact hh)]

theorem departed_strand {k : Nat} (hm : NoMma s k) (hh : (s.strand k).held = []) (j : Nat) :
    (departed k s).strand j = if j = k then freedStrand k (unlooped (s.strand k)) else s.strand j := by
  have hf := (freeStrand_eq (s := s.modStrand k unlooped) hm).1
  rw [departed_eq hh]
  change ((s.modStrand k unlooped).freeStrand k).strand j = _
  have : ((s.modStrand k unlooped).freeStrand k).strand j = ((s.modStrand k unlooped).modStrand k (freedStrand k)).strand j := by
    simp only [strand, hf]
  rw [this, modStrand_modStrand, strand_modStrand]

theorem departed_launch? {k : Nat} {l : Launch} (hm : NoMma s k) (hh : (s.strand k).held = []) (hl : s.launch? (s.strand k).launch = some l) :
    (departed k s).launch? (s.strand k).launch = some (left (s.strand k).member l) := by
  have hf : ((s.modStrand k unlooped).freeStrand k).launch? (s.strand k).launch = some l :=
    (launch?_of_launches (freeStrand_eq (s := s.modStrand k unlooped) hm).2.1).trans hl
  rw [departed_eq hh, launch?_modLaunch _ _ settleBars (fun _ => rfl), launch?_modMember hf]
  rfl

theorem departed_rest {k : Nat} (hm : NoMma s k) (hh : (s.strand k).held = []) : (departed k s).mem = s.mem ∧ (departed k s).ctx = s.ctx := by
  obtain ⟨-, -, h₁, h₂⟩ := freeStrand_eq (s := s.modStrand k unlooped) hm
  rw [departed_eq hh]
  exact ⟨h₁, h₂⟩

theorem giveBack_launches (o : HReq) (lines : List Nat) (s t : State) : (giveBack o lines s t).launches = t.launches := by
  unfold giveBack
  split <;> rfl

/-- A rendezvous keeps the journal's numbers, whatever it comes to. -/
theorem tryRendezvous_ids (s : State) (id : Nat) : (s.tryRendezvous id).launches.map (·.id) = s.launches.map (·.id) := by
  have hids {v w : State} (h : w.roster = v.roster) : w.launches.map (·.id) = v.launches.map (·.id) := by
    have e := congrArg (List.map Prod.fst) h
    rwa [State.roster, State.roster, List.map_map, List.map_map] at e
  have hin (es : List (Nat × Machine.Member)) :
      (es.foldl (fun s e => s.checkInAll (Member.key e.2)) s).launches.map (·.id) = s.launches.map (·.id) :=
    ((Ended.refl s).foldl (fun _ _ h => h.checkInAll)).ids
  have hgang (l : Launch) (v : State) : (suspendGang l v).launches.map (·.id) = v.launches.map (·.id) := by
    refine hids ?_
    rw [suspendGang_eq, roster_modLaunch _ _ laidOff (fun l => ⟨rfl, by simp [laidOff]⟩), roster_foldl (roster_suspendMember l)]
    split
    · exact roster_notePreempt _ _ _
    · rfl
  unfold tryRendezvous
  split
  · rfl
  · next l _ =>
      dsimp only
      split
      · rfl
      · split
        · exact hin _
        · unfold inTurn
          split
          · rw [giveBack_launches, hgang, (asMine_journalStays _ _ _).ids, hin]
          · rw [(joinLines_journalStays _ _ _).ids, hin]

end Sys2Proof.Machine.State

namespace Sys2Proof.Proofs

open Machine Claims

/-- A strand that exits. -/
def leaves (u : Strand) : Strand := { u with life := .exiting, redirects := [] }

/-- An EXIT with nothing under way ends its member at once (R352). -/
theorem exitOp_eq {s : State} (hs : settled s) (hm : s.mmas = []) (hh : s.me.held = []) (he : s.entryOwed s.meKey = false)
    (ht : s.me.tokens.all (fun t => t.st != .armed && t.st != .faulted) = true) :
    State.exitOp s = (s.modMe leaves).exitMember s.meKey := by
  obtain ⟨hops, hco, hge, hpu, hho, hwi⟩ := hs
  have hu : (s.modMe leaves).strand s.meKey = leaves s.me := by rw [State.strand_modMe, if_pos rfl]
  have howed : (s.modMe leaves).entryOwed s.meKey = s.entryOwed s.meKey := by
    simp only [State.entryOwed, State.schedReleased, State.schedEntry, State.launchOf, State.coreImg, State.imageOf, hu]
    rfl
  have hidle : (s.modMe leaves).idleBut s.meKey false (fun o => o.num == (s.modMe leaves).ctx.num) = true := by
    rw [State.idleBut, hu, howed, he, show (leaves s.me).ops = [] from hops, show (leaves s.me).withheld = [] from hwi,
      show (s.modMe leaves).copies = [] from hco, show (s.modMe leaves).gemvs = [] from hge, show (s.modMe leaves).pushes = [] from hpu,
      show (s.modMe leaves).home = [] from hho, show (s.modMe leaves).mmas = [] from hm]
    rfl
  have htok : (s.modMe leaves).me.tokens.all (fun t => t.st != .armed && t.st != .faulted) = true := by
    rw [State.me_modMe]
    exact ht
  have hin : (s.modMe leaves).checkInAll s.meKey = s.modMe leaves := State.checkInAll_none (by rw [hu]; exact hh)
  have hdef : State.exitOp s =
      if !((s.modMe leaves).idleBut s.meKey false (fun o => o.num == (s.modMe leaves).ctx.num) &&
        (s.modMe leaves).me.tokens.all (fun t => t.st != .armed && t.st != .faulted)) then (s.modMe leaves).wait
      else
        let v := (s.modMe leaves).checkInAll s.meKey
        if v.idleBut s.meKey false (fun o => o.num == v.ctx.num) && v.me.tokens.all (fun t => t.st != .armed && t.st != .faulted) then
          v.exitMember s.meKey
        else v.wait := rfl
  rw [hdef]
  dsimp only
  rw [hin, hidle, htok]
  rfl

/-- A state that the acting strand's member has left: its strand is free, its launch is without it, and nothing else has changed that EXIT may show. -/
structure HasLeft (s d : State) (l : Launch) : Prop where
  key : d.meKey = s.meKey
  mine : d.strand s.meKey = State.freedStrand s.meKey (State.unlooped s.me)
  others : ∀ j, j ≠ s.meKey → d.strand j = s.strand j
  mem : d.mem = s.mem
  launch : d.launch? l.id = some (State.left s.me.member l)

section

variable {s d : State} {l : Launch}

theorem HasLeft.me (h : HasLeft s d l) : d.me = State.freedStrand s.meKey (State.unlooped s.me) := (congrArg d.strand h.key).trans h.mine

/-- EXIT leaves its member's launch, and looks at what is left of it (R352). -/
theorem exitOp_leaves (hs : settled s) (hm : s.mmas = []) (hh : s.me.held = []) (he : s.entryOwed s.meKey = false)
    (ht : s.me.tokens.all (fun t => t.st != .armed && t.st != .faulted) = true) (hl : s.launch? s.me.launch = some l) (hst : l.status = none) :
    ∃ d, HasLeft s d l ∧ State.exitOp s =
      if (State.liveMembers (State.left s.me.member l)).isEmpty then d.setStatus l.id (if l.replays = 0 then .done else .replayedDone)
      else d.tryRendezvous l.id := by
  obtain ⟨v, hv⟩ : ∃ v, v = s.modMe leaves := ⟨_, rfl⟩
  have hu : v.strand s.meKey = leaves s.me := by rw [hv, State.strand_modMe, if_pos rfl]
  have hmm : State.NoMma v s.meKey := by
    rw [State.NoMma, hv, show (s.modMe leaves).mmas = [] from hm]
    rfl
  have hvl : v.launch? (v.strand s.meKey).launch = some l := by rw [hu, hv]; exact hl
  have hvh : (v.strand s.meKey).held = [] := by rw [hu]; exact hh
  have hd := State.departed_launch? hmm hvh hvl
  rw [hu, show (leaves s.me).member = s.me.member from rfl, show (leaves s.me).launch = s.me.launch from rfl] at hd
  obtain ⟨hmem, hctx⟩ := State.departed_rest hmm hvh
  refine ⟨State.departed s.meKey v, ⟨?_, ?_, fun j hj => ?_, hmem.trans (by rw [hv]; rfl), (State.launch?_id hl).symm ▸ hd⟩, ?_⟩
  · exact (congrArg (fun x : Ctx => strandKey x.core x.strand) (hctx.trans (by rw [hv])) :)
  · rw [State.departed_strand hmm hvh, if_pos rfl, hu]
    rfl
  · rw [State.departed_strand hmm hvh, if_neg hj, hv, State.strand_modMe, if_neg hj]
  · rw [exitOp_eq hs hm hh he ht, ← hv, State.exitMember_eq, hu, show (leaves s.me).launch = s.me.launch from rfl, hd]
    dsimp only
    rw [show (State.left s.me.member l).status = none from hst, State.left_id, show (State.left s.me.member l).replays = l.replays from rfl]
    exact if_neg (by decide)

theorem left_members (l : Launch) (j n : Nat) :
    (State.left j l).members[n]? = (l.members[n]?).map (fun m => if n = j then State.gone m else m) :=
  State.getElem?_members_mod l.members j n State.gone

/-- A launch that its last live member has left has exited members only. -/
theorem left_exited {j n : Nat} {m : Member} (h : State.liveMembers (State.left j l) = []) (hm : (State.left j l).members[n]? = some m) :
    m.exited = true := by
  by_contra hx
  have hin : (n, m) ∈ State.liveMembers (State.left j l) := State.mem_liveMembers.mpr ⟨hm, by simpa using hx⟩
  exact absurd (h ▸ hin) List.not_mem_nil

/-- The launch after its last member's exit. -/
theorem setStatus_left (h : HasLeft s d l) (v : LStatus) :
    (d.setStatus l.id v).launch? l.id = some { State.left s.me.member l with status := some v } :=
  (State.launch?_modLaunch d l.id (fun k => { k with status := some v }) (fun _ => rfl)).trans (congrArg _ h.launch)

end

theorem exitEndsItsMember : Claims.exitEndsItsMember := by
  intro g s l hp hs hm hh he ht hl hst rest
  have hexec : exec (.exit g) s = .next (State.exitOp s) :=
    (show exec (.exit g) s = s.slotOp (.exit g) g State.exitOp by delta exec; rfl).trans (slotOp_performs _ hp rfl)
  obtain ⟨d, hd, hop⟩ := exitOp_leaves hs hm hh he ht hl hst
  have hlive : State.liveMembers (State.left s.me.member l) = rest := State.liveMembers_gone l s.me.member
  rw [hop] at hexec
  by_cases hr : rest = []
  · rw [if_pos (by rw [hlive, hr]; rfl)] at hexec
    exact ⟨_, _, hexec, setStatus_left hd _, fun _ => ⟨hd.me, rfl, fun n m hn => left_exited (hlive.trans hr) hn⟩,
      fun e he' => absurd (hr ▸ he') List.not_mem_nil⟩
  · rw [if_neg (by rw [hlive]; simpa using hr)] at hexec
    by_cases hw : ∃ e ∈ rest, (s.strand (State.Member.key e.2)).life ≠ .rendezvous ∧ State.Member.key e.2 ≠ s.meKey
    · obtain ⟨e, he', hlife, hne⟩ := hw
      rw [State.tryRendezvous_waits (e := e) hd.launch (hlive ▸ he') (by rw [hd.others _ hne]; exact hlife)] at hexec
      refine ⟨_, _, hexec, hd.launch, fun h => absurd h hr, fun e' _ _ _ =>
        ⟨hd.me, hst, rfl, hd.mem, hd.others, left_members l s.me.member, fun j => ?_⟩⟩
      exact (State.bars_settleBars (State.withMember s.me.member State.gone l) j).trans (by rw [State.liveMembers_gone]; rfl)
    · obtain ⟨k, hk⟩ := State.launch?_of_ids (State.tryRendezvous_ids d l.id) hd.launch
      exact ⟨_, k, hexec, hk, fun h => absurd h hr, fun e he' hlife hne => absurd ⟨e, he', hlife, hne⟩ hw⟩

/-- Settles O24: a rendezvous with every member arrived is the suspension of its gang, and an exit is the strand freed and the launch looked at again. -/
theorem suspendAndExitEndTheirMembersRun : Obligations.SuspendAndExitEndTheirMembersRun :=
  ⟨suspendWaitsForTheRendezvousOrCompletesIt, exitEndsItsMember⟩

end Sys2Proof.Proofs
end

section
/-! Completion records, waiting fault records, the watchdog and uncorrectable errors: the second half of O48. -/

namespace Sys2Proof.Machine.State

variable {s t u : State}

/-! ### Acts that leave a part of the state -/

theorem foldl_keeps {α β : Type} (g : State → β) {f : State → α → State} (h : ∀ s e, g (f s e) = g s) (l : List α) :
    ∀ s, g (l.foldl f s) = g s := by
  induction l with
  | nil => exact fun _ => rfl
  | cons e l ih => exact fun s => (ih _).trans (h s e)

theorem unlock_plat (s : State) (m : Mma) : (s.unlock m).plat = s.plat := by
  unfold unlock
  split
  · rfl
  · refine foldl_keeps State.plat (fun s b => ?_) _ s
    unfold unlockBank
    dsimp only
    split <;> rfl

theorem askRebind_life (s : State) (cl : Nat) : (s.askRebind cl).plat.life = s.plat.life := by
  unfold askRebind
  split <;> rfl

theorem freeStrand_life (s : State) (k : Nat) : (s.freeStrand k).plat.life = s.plat.life := by
  obtain ⟨cs, e⟩ := releaseWindow_eq ((s.discardWork k).account k) k
  have hf : s.freeStrand k = ((((s.discardWork k).account k).releaseWindow k).modStrand k (freedStrand k)).askRebind (k / 16) := rfl
  rw [hf, askRebind_life, e]
  exact congrArg Plat.life (foldl_keeps State.plat unlock_plat (s.mmas.filter (fun m => strandKey m.core m.strand == k)) s)

theorem evictStrand_life (s : State) (k : Nat) : (s.evictStrand k).plat.life = s.plat.life := by
  unfold evictStrand
  dsimp only
  rw [freeStrand_life]
  exact congrArg Plat.life (foldl_keeps State.plat (fun s h => by split <;> rfl) _ s)

theorem retireFrames_plat (s : State) (h : Nat) : (s.retireFrames h).plat = s.plat := by
  unfold retireFrames
  dsimp only
  refine (foldl_keeps State.plat (fun s f => ?_) s.poisonedFrames _).trans (foldl_keeps State.plat (fun s e => ?_) _ s)
  · rfl
  · split <;> rfl

/-- A context's kill counts itself, and leaves the count of uncorrectable errors (R431, R452). -/
theorem kill_unctot (s : State) (h : Nat) (r : FaultRec) : (s.kill h r).plat.life.unctot = s.plat.life.unctot := by
  unfold kill
  dsimp only
  rw [show ∀ v : State, (v.raise h { r with launch := none }).plat = v.plat from fun v => congrArg (·.plat) (v.raise_sysChange h _).rest]
  change (State.retireFrames _ h).plat.life.unctot = _
  rw [retireFrames_plat]
  change (List.foldl _ (List.foldl _ s _) _).plat.life.unctot = _
  refine congrArg Lifetime.unctot ((foldl_keeps (fun v : State => v.plat.life) (fun s l => ?_) _ _).trans
    (foldl_keeps (fun v : State => v.plat.life) evictStrand_life _ s))
  rfl

/-- Every launch of a context that is not COMPLETE is LOST. -/
def AllLost (s : State) (h : Nat) : Prop := ∀ e ∈ s.launches, e.hc = h → e.st ≠ .complete → e.status = some .lost

theorem AllLost.journalStays {h : Nat} (a : AllLost s h) (hj : JournalStays s t) : AllLost t h := by
  intro e he hh hc
  have hm : calm e ∈ s.launches.map calm := hj ▸ List.mem_map_of_mem he
  obtain ⟨e', he', hee⟩ := List.mem_map.mp hm
  have h₁ : e'.hc = e.hc := (congrArg (·.hc) hee :)
  have h₂ : e'.st = e.st := (congrArg (·.st) hee :)
  have h₃ : e'.status = e.status := (congrArg (·.status) hee :)
  exact h₃ ▸ a e' he' (h₁.trans hh) (by rwa [h₂])

theorem retireFrames_launches (s : State) (h : Nat) : (s.retireFrames h).launches = s.launches := by
  unfold retireFrames
  dsimp only
  refine (foldl_keeps State.launches (fun s f => ?_) s.poisonedFrames _).trans (foldl_keeps State.launches (fun s e => ?_) _ s)
  · rfl
  · split <;> rfl

/-- A context's kill makes its launches LOST (R452). -/
theorem kill_lost (s : State) (h : Nat) (r : FaultRec) : AllLost (s.kill h r) h := by
  unfold kill
  dsimp only
  refine AllLost.journalStays ?_ (raise_journalStays _ _ _)
  intro e he
  change e ∈ (State.retireFrames _ h).launches at he
  rw [retireFrames_launches] at he
  obtain ⟨l, -, rfl⟩ := List.mem_map.mp he
  intro hh hc
  split
  · rfl
  · next hn =>
      rw [if_neg hn] at hh hc
      simp [hh, hc] at hn

/-! ### Records put into rings -/

/-- With no line busy and no request waiting, a record is put at once (R13, R326). -/
theorem ringTurn_idle (hh : s.home = []) (hb : s.busyLines = []) (o : HReq) (h : Nat) (r : Fin 6) (n : Nat)
    (put : State → Option State) (wait : State → State) :
    s.ringTurn o h r n put wait = (match put s with | some t => t | none => wait s) := by
  have hm : s.linesMine o (s.ringLines h r n) = true :=
    List.all_eq_true.mpr (fun l _ => by rw [lineMine_idle hh, hb]; rfl)
  unfold ringTurn
  dsimp only
  rw [hm, asMine_idle hh, giveUp_idle hh, if_pos rfl]
  cases put s with
  | none => rfl
  | some t => exact giveBack_idle hh t

end Sys2Proof.Machine.State

namespace Sys2Proof.Proofs

open Machine Claims

theorem satSucc_eq {n : Nat} (v : BitVec n) : State.satSucc v = upOne v := by
  have : v = BitVec.allOnes n ↔ v.toNat + 1 = 2 ^ n := by
    rw [← BitVec.toNat_inj, BitVec.toNat_allOnes]
    have := Nat.two_pow_pos n
    omega
  simp only [State.satSucc, upOne, this]

/-- The launch of a completion record, and what its completion leaves of the others (R41, R43, R44). -/
theorem completes {s m : State} {h : Fin 64} {i : Fin 4} {l : Launch} {v : LStatus} (hn : s.nextOfStream h.val i.val = some l)
    (hv : l.status = some v) (hu : s.unperformed l = false) (hw : (s.hctx h.val).waiting = []) (hf : homesFree s)
    (hp : s.ringPut h.val ⟨l.cring % 4, by omega⟩ (State.completionBytes l v) = some m) :
    ∃ t, exec (.launchComplete h i) s = .next t ∧
      t.launches = (m.launches.map (fun e => if e.id = l.id then { e with st := .complete, edges := [], areas := [] } else e)).map
        (State.resolveEdges l.id) ∧
      t.hctx h.val = State.countStatus v (m.hctx h.val) ∧ t.mem = m.mem ∧ t.strands = m.strands := by
  obtain ⟨hh, hb⟩ := hf
  refine ⟨_, show exec (.launchComplete h i) s = .next (s.completeNext h.val i.val) by delta exec; rfl, ?_⟩
  have he : s.completeNext h.val i.val =
      { ((m.modLaunch l.id (fun l => { l with st := .complete, edges := [], areas := [] })).modHctx h.val (State.countStatus v)) with
        launches := (m.modLaunch l.id (fun l => { l with st := .complete, edges := [], areas := [] })).launches.map (State.resolveEdges l.id) } := by
    simp only [State.completeNext, hn, hv, hu, hw, State.ringTurn_idle hh hb, hp]
    rfl
  rw [he]
  exact ⟨rfl, (State.hctx_modHctx _ _ _ _).trans (if_pos rfl), rfl, rfl⟩

/-- The counter of a status is one more, the others stay (R429). -/
theorem acct_countStatus (v : LStatus) (c : Hctx) (j : Fin 9) : (State.countStatus v c).acct[j] =
    if j.val = (match v with | .done => 1 | .replayedDone => 2 | .failed _ => 3 | .lost => 4) then c.acct[j] + 1 else c.acct[j] := by
  have set (n : Nat) (hn : n < 9) : (c.acct.set n (c.acct[n] + 1))[j] = if j.val = n then c.acct[j] + 1 else c.acct[j] := by
    rw [Fin.getElem_fin, Vector.getElem_set]
    by_cases h : n = j.val
    · subst h
      simp
    · rw [if_neg h, if_neg (Ne.symm h)]
      rfl
  cases v with
  | done => exact set 1 (by decide)
  | replayedDone => exact set 2 (by decide)
  | failed c => exact set 3 (by decide)
  | lost => exact set 4 (by decide)

/-- The watchdog ends a running launch whose cores run (R446). -/
theorem watchdog_ends {s : State} {l : Launch} (hl : s.launch? l.id = some l) (hst : l.st = .running) (hs : l.status = none)
    (hh : ∀ e ∈ State.liveMembers l, (s.core e.2.core).halt = 0) :
    ∃ t k, exec (.watchdog l.id) s = .next t ∧ t.launch? l.id = some k ∧ k.status = some (.failed 0x11) ∧ t.launchStrands l.id = [] := by
  have ha : (State.liveMembers l).any (fun e => (s.core e.2.core).halt != 0) = false :=
    List.any_eq_false.mpr (fun e he => by simp [hh e he])
  have hx : exec (.watchdog l.id) s = .next (s.watchdogFires l.id) := by delta exec; rfl
  have he : s.watchdogFires l.id = s.freeVal.2.endLaunch l.id (State.launchRecord l 0x11 (max l.wdog (s.freeVal.1.toNat % 2 ^ 32)) 0) := by
    simp only [State.watchdogFires, hl, hst, hs, ha]
    rfl
  obtain ⟨-, hn, k, hk, hks⟩ := State.endLaunch_ends (s := s.freeVal.2) (State.launchRecord l 0x11 (max l.wdog (s.freeVal.1.toNat % 2 ^ 32)) 0) hl
  exact ⟨_, k, hx.trans (congrArg _ he), hk, hks, hn⟩

theorem watchdog_waits {s : State} {l : Launch} (hl : s.launch? l.id = some l)
    (h : l.st ≠ .running ∨ ∃ e ∈ State.liveMembers l, (s.core e.2.core).halt ≠ 0) : exec (.watchdog l.id) s = .next s := by
  have hc : (l.st != .running || l.status.isSome || (State.liveMembers l).any (fun e => (s.core e.2.core).halt != 0)) = true := by
    rcases h with h | ⟨e, he, hh⟩
    · simp [h]
    · rw [List.any_eq_true.mpr ⟨e, he, by simpa using hh⟩, Bool.or_true]
  have hx : exec (.watchdog l.id) s = .next (s.watchdogFires l.id) := by delta exec; rfl
  rw [hx, State.watchdogFires, hl]
  exact congrArg _ (if_pos hc)

/-- An uncorrectable error kills a live context (R451). -/
theorem uncorrectable_kills {s : State} {h : Fin 64} (hl : (s.hctx h.val).st = .live) :
    ∃ t, exec (.uncorrectableError h) s = .next t ∧ (t.hctx h.val).st = .killed ∧ t.plat.life.unctot = upOne s.plat.life.unctot ∧
      ∀ e ∈ t.launches, e.hc = h.val → e.st ≠ .complete → e.status = some .lost := by
  have hx : exec (.uncorrectableError h) s = .next (s.uncorrectable h.val) := by delta exec; rfl
  have he : s.uncorrectable h.val =
      ((s.strikeRecord h.val).2.modLife (fun l => { l with unctot := State.satSucc l.unctot })).kill h.val (s.strikeRecord h.val).1 := by
    rw [State.uncorrectable, if_neg (by simp [hl])]
  have hp : (s.strikeRecord h.val).2.plat = s.plat := by
    unfold State.strikeRecord
    dsimp only
    split <;> rfl
  refine ⟨_, hx.trans (congrArg _ he), (State.kill_st _ _ _ _).trans (if_pos rfl), ?_, State.kill_lost _ _ _⟩
  rw [State.kill_unctot]
  change State.satSucc (s.strikeRecord h.val).2.plat.life.unctot = _
  rw [hp, satSucc_eq]

theorem recordsAreWritten : Claims.recordsAreWritten := by
  intro s h i l
  have hc : exec (.launchComplete h i) s = .next (s.completeNext h.val i.val) := by delta exec; rfl
  have hw : exec (.faultRecordWrite h) s = .next (s.writeWaiting h.val) := by delta exec; rfl
  refine ⟨fun hn => ?_, fun v m hn hv hu hwt hf hp => ?_, fun hn => ?_, fun r rs m hf hr hm hnone => ?_, fun r rs hf hr hm => ?_,
    watchdog_ends, watchdog_waits, uncorrectable_kills, fun hn => ?_⟩
  · rw [hc, State.completeNext, hn]
  · obtain ⟨t, ht, hls, hcx, hmem, hst⟩ := completes hn hv hu hwt hf hp
    refine ⟨t, ht, hls.trans (List.map_map ..), fun j => ?_, hmem, hst⟩
    rw [hcx]
    exact acct_countStatus v _ j
  · rw [hw, State.writeWaiting, hn]
  · rw [hw, State.writeWaiting, hr]
    simp only [State.ringTurn_idle hf.1 hf.2, hm, Option.map_some, State.noteWritten, hnone]
    rfl
  · rw [hw, State.writeWaiting, hr]
    simp only [State.ringTurn_idle hf.1 hf.2, hm, Option.map_none, id]
  · have hx : exec (.uncorrectableError h) s = .next (s.uncorrectable h.val) := by delta exec; rfl
    rw [hx, State.uncorrectable, if_pos (by simpa using hn)]

end Sys2Proof.Proofs
end

section
/-! What the scheduler takes from streams and notify queues: O48. -/

namespace Sys2Proof.Machine.State

variable {s t u : State}

/-! ### Streams under a record raised -/

theorem joinLines_settingsStay (s : State) (o : HReq) (lines : List Nat) : SettingsStay s (joinLines o lines s) := by
  obtain ⟨h, e⟩ := joinLines_frame (s := s) (o := o) (lines := lines)
  rw [e]
  exact .of_eq rfl

theorem giveBack_settingsStay (o : HReq) (lines : List Nat) (a : SettingsStay s t) : SettingsStay s (giveBack o lines s t) := by
  unfold giveBack
  split <;> exact a

theorem asMine_settingsStay (s : State) (o : HReq) (lines : List Nat) : SettingsStay s (s.asMine o lines) := by
  unfold asMine
  split <;> exact .refl s

theorem ringPut_settingsStay {h : Nat} {r : Fin 6} {rec : List Byte} (e : s.ringPut h r rec = some t) : SettingsStay s t := by
  simp only [ringPut] at e
  split at e
  · cases e
  · split at e
    · cases e
    · split at e
      · cases e
      · next u hu =>
          cases e
          exact (sysWrite_settingsStay hu).trans (modHctx_settingsStay _ _ _ rfl)

theorem writeFault_settingsStay {h : Nat} {r : FaultRec} (e : s.writeFault h r = some t) : SettingsStay s t := by
  simp only [writeFault] at e
  split at e
  · split at e
    · cases e
    · split at e
      · cases e
      · next u hu =>
          cases e
          exact (ringPut_settingsStay hu).trans (modHctx_settingsStay _ _ _ rfl)
  · exact ringPut_settingsStay e

theorem raise_settingsStay (s : State) (h : Nat) (r : FaultRec) : SettingsStay s (s.raise h r) := by
  have later (v : State) : SettingsStay v (v.modHctx h (fun c => { c with waiting := c.waiting ++ [r] })) := modHctx_settingsStay _ _ _ rfl
  unfold raise ringTurn
  dsimp only
  split
  · split
    · split
      · next t ht => exact giveBack_settingsStay _ _ ((s.asMine_settingsStay _ _).trans (writeFault_settingsStay ht))
      · exact (giveBack_settingsStay _ [] (.refl s)).trans (later _)
    · exact (s.joinLines_settingsStay _ _).trans (later _)
  · exact later s

theorem streamD_modStream (s : State) (h : Nat) (i : Fin 4) (f : StreamD → StreamD) : (s.modStream h i f).streamD h i = f (s.streamD h i) := by
  simp [streamD, modStream, hctx_modHctx]

theorem modStream_modStream (s : State) (h : Nat) (i : Fin 4) (f g : StreamD → StreamD) :
    (s.modStream h i f).modStream h i g = s.modStream h i (fun d => g (f d)) := by
  simp [modStream, modHctx, setHctx, hctx, Map.set_set]

/-- A stream fault turns its stream off (R330). -/
theorem mode_streamFault (s : State) (h : Nat) (i : Fin 4) (reason tail : Nat) : ((s.streamFault h i reason tail).streamD h i).mode = 0 := by
  have e := (raise_settingsStay (s.modStream h i StreamD.off) h (ctxRecord h 0x31 i.val i.val (reason * 2 ^ 32 + tail))).stream h i
  have e' : ((s.streamFault h i reason tail).streamD h i).mode = ((s.modStream h i StreamD.off).streamD h i).mode := (congrArg (·.mode) e :)
  rw [e', streamD_modStream]
  rfl

/-! ### Reads at homes that are free -/

/-- With no request waiting and no line busy the I/O die reads at once. -/
theorem whenRead_idle (hh : s.home = []) (hb : s.busyLines = []) (es : List (Nat × Nat × Nat)) (f : State → State) :
    whenRead es f s = (f s).takeReplies 128 0 0 := by
  have : es.any (fun e => s.sysHeld e.1 e.2.1 e.2.2) = false := List.any_eq_false.mpr (fun e _ => by simp [sysHeld_quiet hh hb])
  simp [whenRead, this]

/-! ### Streams that have nothing to take -/

theorem settleStop_running {h : Nat} {i : Fin 4} (hd : (s.streamD h i).stopping = false) : s.settleStop h i = s := by
  simp [settleStop, hd]

/-- A stream that stops keeps its HEAD and the launches. -/
theorem settleStop_keeps (s : State) (h : Nat) (i : Fin 4) :
    (s.settleStop h i).launches = s.launches ∧ ((s.settleStop h i).streamD h i).head = (s.streamD h i).head := by
  unfold settleStop
  dsimp only
  split
  · exact ⟨rfl, by rw [streamD_modStream]; rfl⟩
  · exact ⟨rfl, rfl⟩

theorem takeRing_done {h : Nat} {i : Fin 4} (hd : (s.streamD h i).head = (s.streamD h i).lastTail) (n : Nat) : takeRing h i n s = s := by
  cases n with
  | zero => rfl
  | succ n =>
      rw [takeRing]
      exact if_pos (.inr (.inl hd))

theorem takeNotify_done {h : Nat} {i : Fin 4} (hd : (s.streamD h i).head = (s.streamD h i).lastTail) (n : Nat) : takeNotify h i n s = s := by
  cases n with
  | zero => rfl
  | succ n =>
      rw [takeNotify]
      exact if_pos (.inr (.inl hd))

/-! ### One record taken -/

/-- HEAD moved on by one. -/
def pastOne (d : StreamD) : StreamD := { d with head := d.head + 1 }

/-- The one record of a HOST-mode ring below its tail is taken (R330, R332). -/
theorem takeRing_one {h : Nat} {i : Fin 4} {m : State} {r : List Byte} (hh : s.home = []) (hb : s.busyLines = []) (n : Nat)
    (hm : (s.streamD h i).mode = 1) (hne : (s.streamD h i).head ≠ (s.streamD h i).lastTail) (ho : s.owesAdmin h i.val = false)
    (hr : s.sysRead h (((s.streamD h i).ringva.toNat + 128 * ((s.streamD h i).head.toNat % 2 ^ (s.streamD h i).logd)) % 2 ^ 72) 128 = some r)
    (ht : s.takeRecord h i.val (leNat r) false = some m) (hl : (m.streamD h i).lastTail = (m.streamD h i).head + 1) :
    takeRing h i (n + 1) s = ((m.modStream h i pastOne).takeReplies 128 0 0).takeReplies 128 0 0 := by
  have hdone : takeRing h i n (m.modStream h i pastOne) = m.modStream h i pastOne :=
    takeRing_done (by rw [streamD_modStream, pastOne]; exact hl.symm) n
  rw [takeRing]
  dsimp only
  rw [if_neg (by simp [hm, hne, ho]), whenRead_idle hh hb, hr]
  dsimp only
  rw [whenRead_idle hh hb, ht]
  exact congrArg (fun v : State => (v.takeReplies 128 0 0).takeReplies 128 0 0) hdone

/-- A notify record of another INDEX stops the queue (R336). -/
theorem takeNotify_stalls {h : Nat} {i : Fin 4} {r : List Byte} (hh : s.home = []) (hb : s.busyLines = []) (n : Nat)
    (hm : (s.streamD h i).mode = 3) (hne : (s.streamD h i).head ≠ (s.streamD h i).lastTail) (hst : (s.streamD h i).stalled = false)
    (ho : s.owesAdmin h i.val = false)
    (hr : s.sysRead h ((s.streamD h i).ringva.toNat + 128 + 64 * ((s.streamD h i).head.toNat % 2 ^ (s.streamD h i).logd)) 64 = some r)
    (hi : bitsAt (leNat r) 64 32 ≠ (s.streamD h i).head.toNat) :
    takeNotify h i (n + 1) s = (s.modStream h i (fun d => { d with stalled := true })).takeReplies 128 0 0 := by
  rw [takeNotify]
  dsimp only
  rw [if_neg (by simp [hm, hne, ho, hst]), whenRead_idle hh hb, hr]
  dsimp only
  rw [if_pos hi]

/-- The one record of a notify queue below its TAIL becomes a launch, and HEAD is written (R336). -/
theorem takeNotify_one {h : Nat} {i : Fin 4} {m w : State} {r tm : List Byte} (hh : s.home = []) (hb : s.busyLines = []) (n : Nat)
    (hm : (s.streamD h i).mode = 3) (hne : (s.streamD h i).head ≠ (s.streamD h i).lastTail) (hst : (s.streamD h i).stalled = false)
    (ho : s.owesAdmin h i.val = false)
    (hr : s.sysRead h ((s.streamD h i).ringva.toNat + 128 + 64 * ((s.streamD h i).head.toNat % 2 ^ (s.streamD h i).logd)) 64 = some r)
    (hi : bitsAt (leNat r) 64 32 = (s.streamD h i).head.toNat) (htm : s.sysRead h (s.streamD h i).tmplva.toNat 128 = some tm)
    (ht : s.takeRecord h i.val (buildRecord (leNat tm) (bitsAt (leNat r) 0 64)) true = some m)
    (hl : (m.streamD h i).lastTail = (m.streamD h i).head + 1)
    (hw : (m.modStream h i pastOne).sysWrite h ((s.streamD h i).ringva.toNat + 64) (leBytes 8 ((s.streamD h i).head + 1).toNat) = some w) :
    takeNotify h i (n + 1) s = ((w.takeReplies 128 0 0).takeReplies 128 0 0).takeReplies 128 0 0 := by
  have hs := (sysWrite_settingsStay hw).stream h i
  have h₁ : (w.streamD h i).head = ((m.modStream h i pastOne).streamD h i).head := (congrArg (·.head) hs :)
  have h₂ : (w.streamD h i).lastTail = ((m.modStream h i pastOne).streamD h i).lastTail := (congrArg (·.lastTail) hs :)
  have hdone : takeNotify h i n w = w := takeNotify_done (by rw [h₁, h₂, streamD_modStream, pastOne]; exact hl.symm) n
  rw [takeNotify]
  dsimp only
  rw [if_neg (by simp [hm, hne, ho, hst]), whenRead_idle hh hb, hr]
  dsimp only
  rw [if_neg (by simpa using hi), whenRead_idle hh hb, htm]
  dsimp only
  rw [whenRead_idle hh hb, ht]
  change ((State.takeReplies (match (m.modStream h i pastOne).sysWrite h _ _ with | some s => _ | none => _) 128 0 0).takeReplies 128 0 0).takeReplies 128 0 0 = _
  rw [hw]
  exact congrArg (fun v : State => ((v.takeReplies 128 0 0).takeReplies 128 0 0).takeReplies 128 0 0) hdone

/-! ### The tail read -/

/-- A stream whose tail has been read. -/
def tailRead (tail : Word32) (d : StreamD) : StreamD := { d with lastTail := tail, signal := false, stalled := false }

theorem takeTail_beyond {h : Nat} {i : Fin 4} {bs : List Byte} (go : State → State)
    (hd : 2 ^ (s.streamD h i).logd < (BitVec.ofNat 32 (leNat bs) - (s.streamD h i).head).toNat) :
    takeTail h i go (some bs) s = s.streamFault h i 0 (BitVec.ofNat 32 (leNat bs)).toNat := if_pos hd

theorem takeTail_goes {h : Nat} {i : Fin 4} {bs : List Byte} (go : State → State)
    (hd : (BitVec.ofNat 32 (leNat bs) - (s.streamD h i).head).toNat ≤ 2 ^ (s.streamD h i).logd) :
    takeTail h i go (some bs) s = go (s.modStream h i (tailRead (BitVec.ofNat 32 (leNat bs)))) := if_neg (Nat.not_lt.mpr hd)

theorem tailSignal_reads {h : Nat} {i : Fin 4} {bs : List Byte} (hh : s.home = []) (hb : s.busyLines = []) (hs : s.serves h = true)
    (hm : (s.streamD h i).mode = 1) (hst : (s.streamD h i).stopping = false) (hsg : (s.streamD h i).signal = true)
    (hr : s.sysRead h (s.streamD h i).tailva.toNat 4 = some bs) : s.tailSignal h i =
      (takeTail h i (fun v => (takeRing h i 65536 v).settleStop h i) (some bs) s).takeReplies 128 0 0 := by
  rw [tailSignal]
  dsimp only
  rw [if_neg (by simp [hs, hm]), if_neg (by simp [hst, hsg]), whenRead_idle hh hb, hr]

theorem notifySignalled_reads {h : Nat} {i : Fin 4} {bs : List Byte} (hh : s.home = []) (hb : s.busyLines = []) (hs : s.serves h = true)
    (hm : (s.streamD h i).mode = 3) (hst : (s.streamD h i).stopping = false) (hsg : (s.streamD h i).signal = true)
    (hr : s.sysRead h (s.streamD h i).ringva.toNat 8 = some bs) : s.notifySignalled h i =
      (takeTail h i (fun v => (takeNotify h i 4096 v).settleStop h i) (some bs) s).takeReplies 128 0 0 := by
  rw [notifySignalled]
  dsimp only
  rw [if_neg (by simp [hs, hm]), if_neg (by simp [hsg]), if_neg (by simp [hst]), whenRead_idle hh hb, hr]

theorem tailSignal_unserved {h : Nat} {i : Fin 4} (hs : s.serves h = false) : s.tailSignal h i = s ∧ s.notifySignalled h i = s :=
  ⟨if_pos (by simp [hs]), if_pos (by simp [hs])⟩

/-- A stream with no signal and no record left below its tail has nothing to take. -/
theorem tailSignal_rests {h : Nat} {i : Fin 4} (hst : (s.streamD h i).stopping = false) (hsg : (s.streamD h i).signal = false)
    (hd : (s.streamD h i).head = (s.streamD h i).lastTail) : s.tailSignal h i = s ∧ s.notifySignalled h i = s := by
  have h₁ : (takeRing h i 65536 s).settleStop h i = s := by rw [takeRing_done hd, settleStop_running hst]
  have h₂ : (takeNotify h i 4096 s).settleStop h i = s := by rw [takeNotify_done hd, settleStop_running hst]
  constructor
  · rw [tailSignal]
    dsimp only
    rw [h₁]
    split
    · rfl
    · rw [if_pos (by simp [hsg])]
  · rw [notifySignalled]
    dsimp only
    rw [h₂]
    split
    · rfl
    · rw [if_pos (by simp [hsg])]

end Sys2Proof.Machine.State

namespace Sys2Proof.Proofs

open Machine Claims

/-- What a settled stream with one record taken has in its journal and its HEAD. -/
theorem settled_one {v m : State} {h : Nat} {i : Fin 4} (hl : v.launches = m.launches) {d : Word32} (hd : (v.streamD h i).head = d) :
    ((v.settleStop h i).takeReplies 128 0 0).launches = m.launches ∧
      (((v.settleStop h i).takeReplies 128 0 0).hctx h).streams[i].head = d := by
  obtain ⟨h₁, h₂⟩ := v.settleStop_keeps h i
  exact ⟨h₁.trans hl, h₂.trans hd⟩

theorem recordsAreTaken : Claims.recordsAreTaken := by
  intro s h i bs k d tail at_ read hh hb hrp
  have hx : exec (.tailWordSignal h i) s = .next (s.tailSignal h.val i) := by delta exec; rfl
  have hy : exec (.notifySignal h i) s = .next (s.notifySignalled h.val i) := by delta exec; rfl
  have hz : at_ (read d) = s.modStream h.val i (State.tailRead tail) := rfl
  have hv : (s.modStream h.val i (State.tailRead tail)).streamD h.val i = read d := State.streamD_modStream _ _ _ _
  have ho : s.owesAdmin h.val i = false → (s.modStream h.val i (State.tailRead tail)).owesAdmin h.val i = false := by
    intro ho
    rw [State.owesAdmin, State.modStream, State.hctx_modHctx, if_pos rfl]
    exact ho
  obtain ⟨z, hzd⟩ : ∃ z, z = s.modStream h.val i (State.tailRead tail) := ⟨_, rfl⟩
  rw [← hzd] at hv ho hz
  have hzm : (z.streamD h.val i).mode = d.mode := congrArg (·.mode) hv
  have hzh : z.home = [] := by rw [hzd]; exact hh
  have hzb : z.busyLines = [] := by rw [hzd]; exact hb
  have hzr : z.replies = [] := by rw [hzd]; exact hrp
  have hnone : tail = d.head → (tail - d.head).toNat ≤ 2 ^ d.logd := fun e => by rw [e, BitVec.sub_self]; exact Nat.zero_le _
  have hone : tail = d.head + 1 → (tail - d.head).toNat ≤ 2 ^ d.logd := fun e => by
    rw [show tail - d.head = 1 by rw [e]; bv_omega]
    exact Nat.one_le_two_pow
  have hnext : tail = d.head + 1 → (read d).head ≠ (read d).lastTail := fun e => by
    change d.head ≠ tail
    rw [e]
    bv_omega
  refine ⟨fun hs => ?_, fun hst hsg hd => ?_, fun hs hst hsg hm hr => ⟨fun hbeyond => ?_, fun he => ?_, fun r m he hown hrr ht hmh hmt => ?_⟩,
    fun hs hst hsg hm hr => ⟨fun hbeyond => ?_, fun he => ?_, fun r hne hle hown hrr hidx => ?_,
      fun r tm m w he hown hrr htm hidx ht hmh hmt hw => ?_⟩⟩
  · obtain ⟨h₁, h₂⟩ := State.tailSignal_unserved (i := i) hs
    rw [hx, hy, h₁, h₂]
    exact ⟨rfl, rfl⟩
  · obtain ⟨h₁, h₂⟩ := State.tailSignal_rests (s := s) (h := h.val) (i := i) hst hsg hd
    rw [hx, hy, h₁, h₂]
    exact ⟨rfl, rfl⟩
  · rw [State.tailSignal_reads hh hb hs hm hst hsg hr, State.takeTail_beyond _ hbeyond] at hx
    exact ⟨_, hx, State.mode_streamFault s h.val i 0 _⟩
  · rw [State.tailSignal_reads hh hb hs hm hst hsg hr, State.takeTail_goes _ (hnone he), ← hzd,
      State.takeRing_done (by rw [hv]; exact he.symm), State.settleStop_running (by rw [hv]; exact hst), State.takeReplies_none hzr] at hx
    rw [hx, hz]
  · rw [hz] at hrr ht
    have hm1 : (m.streamD h.val i).lastTail = (m.streamD h.val i).head + 1 := by
      change (m.hctx h.val).streams[i].lastTail = (m.hctx h.val).streams[i].head + 1
      rw [hmh, hmt, he]
    have htake : State.takeRing h.val i 65536 z = ((m.modStream h.val i State.pastOne).takeReplies 128 0 0).takeReplies 128 0 0 :=
      State.takeRing_one hzh hzb 65535 (hzm.trans hm) (by rw [hv]; exact hnext he) (ho hown) (by rw [hv]; exact hrr) ht hm1
    rw [State.tailSignal_reads hh hb hs hm hst hsg hr, State.takeTail_goes _ (hone he), ← hzd, htake] at hx
    obtain ⟨h₁, h₂⟩ := settled_one (v := ((m.modStream h.val i State.pastOne).takeReplies 128 0 0).takeReplies 128 0 0) (m := m) (h := h.val)
      (i := i) rfl (d := d.head + 1) ((congrArg (·.head) (State.streamD_modStream m h.val i State.pastOne) :).trans (congrArg (· + 1) hmh))
    exact ⟨_, hx, h₁, h₂⟩
  · rw [State.notifySignalled_reads hh hb hs hm hst hsg hr, State.takeTail_beyond _ hbeyond] at hy
    exact ⟨_, hy, State.mode_streamFault s h.val i 0 _⟩
  · rw [State.notifySignalled_reads hh hb hs hm hst hsg hr, State.takeTail_goes _ (hnone he), ← hzd,
      State.takeNotify_done (by rw [hv]; exact he.symm), State.settleStop_running (by rw [hv]; exact hst), State.takeReplies_none hzr] at hy
    rw [hy, hz]
  · rw [hz] at hrr
    have htake : State.takeNotify h.val i 4096 z = (z.modStream h.val i (fun d => { d with stalled := true })).takeReplies 128 0 0 :=
      State.takeNotify_stalls hzh hzb 4095 (hzm.trans hm) (by rw [hv]; exact fun e => hne e.symm) (by rw [hv]) (ho hown)
        (by rw [hv]; exact hrr) (by rw [hv]; exact hidx)
    rw [State.notifySignalled_reads hh hb hs hm hst hsg hr, State.takeTail_goes _ hle, ← hzd, htake,
      State.takeReplies_none (s := z.modStream h.val i (fun d => { d with stalled := true })) hzr,
      State.settleStop_running (by rw [State.streamD_modStream, hv]; exact hst),
      State.takeReplies_none (s := z.modStream h.val i (fun d => { d with stalled := true })) hzr] at hy
    rw [hy, hzd, State.modStream_modStream]
    rfl
  · rw [hz] at hrr htm ht
    have hm1 : (m.streamD h.val i).lastTail = (m.streamD h.val i).head + 1 := by
      change (m.hctx h.val).streams[i].lastTail = (m.hctx h.val).streams[i].head + 1
      rw [hmh, hmt, he]
    have hval : bitsAt (leNat r) 0 64 = leNat r % 2 ^ 64 := by rw [bitsAt, Nat.pow_zero, Nat.div_one]
    have htake : State.takeNotify h.val i 4096 z = ((w.takeReplies 128 0 0).takeReplies 128 0 0).takeReplies 128 0 0 :=
      State.takeNotify_one hzh hzb 4095 (hzm.trans hm) (by rw [hv]; exact hnext he) (by rw [hv]) (ho hown) (by rw [hv]; exact hrr)
        (by rw [hv]; exact hidx) (by rw [hv]; exact htm) (by rw [hval]; exact ht) hm1 (by rw [hv]; exact hw)
    have hwh : (w.streamD h.val i).head = ((m.modStream h.val i State.pastOne).streamD h.val i).head :=
      (congrArg (·.head) ((State.sysWrite_settingsStay hw).stream h.val i) :)
    rw [State.notifySignalled_reads hh hb hs hm hst hsg hr, State.takeTail_goes _ (hone he), ← hzd, htake] at hy
    obtain ⟨h₁, h₂⟩ := settled_one (v := ((w.takeReplies 128 0 0).takeReplies 128 0 0).takeReplies 128 0 0) (m := w) (h := h.val)
      (i := i) rfl (d := d.head + 1) (hwh.trans ((congrArg (·.head) (State.streamD_modStream m h.val i State.pastOne) :).trans (congrArg (· + 1) hmh)))
    exact ⟨_, hy, h₁, h₂⟩

/-- Settles O48: with homes free each signal is one read of the tail and at most one record, and a record's ring takes it at once. -/
theorem schedulerServesStreamsAndRecords : Obligations.SchedulerServesStreamsAndRecords := ⟨recordsAreTaken, recordsAreWritten⟩

end Sys2Proof.Proofs
end

section
/-! Placement: what it leaves of the journal and the gang numbers, and its pass over a journal of one launch (R337, R339). -/

namespace Sys2Proof.Machine.State

variable {s t u : State}

/-! ### The journal and the gang numbers under the acts of placement -/

/-- From b to s the journal stays, but for the notes of writes to batch rows, and no gang number is given. -/
structure LedgerStays (b s : State) : Prop where
  journal : JournalStays b s
  gang : s.nextGang = b.nextGang

variable {b : State}

namespace LedgerStays

theorem refl (s : State) : LedgerStays s s := ⟨.refl s, rfl⟩

theorem same (h : LedgerStays b s) (hl : t.launches = s.launches) (hg : t.nextGang = s.nextGang) : LedgerStays b t :=
  ⟨h.journal.trans (.of_eq hl), hg.trans h.gang⟩

theorem sys (h : LedgerStays b s) (c : SysChange s t) (j : JournalStays s t) : LedgerStays b t :=
  ⟨h.journal.trans j, (congrArg (·.nextGang) c.rest).trans h.gang⟩

theorem ite {c : Prop} [Decidable c] (ht : LedgerStays b t) (hu : LedgerStays b u) : LedgerStays b (if c then t else u) := by
  split
  · exact ht
  · exact hu

theorem foldl {α : Type} {f : State → α → State} {l : List α} (h : LedgerStays b s) (hf : ∀ s a, LedgerStays b s → LedgerStays b (f s a)) :
    LedgerStays b (l.foldl f s) := by
  induction l generalizing s with
  | nil => exact h
  | cons a l ih => exact ih (hf s a h)

theorem modStrand {k f} (h : LedgerStays b s) : LedgerStays b (s.modStrand k f) := h.same rfl rfl
theorem modCore {k f} (h : LedgerStays b s) : LedgerStays b (s.modCore k f) := h.same rfl rfl
theorem modBank {cl n f} (h : LedgerStays b s) : LedgerStays b (s.modBank cl n f) := h.same rfl rfl
theorem bankClear {a n} (h : LedgerStays b s) : LedgerStays b (s.bankClear a n) := h.same rfl rfl
theorem dropLine {cl line} (h : LedgerStays b s) : LedgerStays b (s.dropLine cl line) := h.same rfl rfl

theorem homePut {pa bs src} (h : LedgerStays b s) : LedgerStays b (s.homePut pa bs src) :=
  h.sys (s.homePut_sysChange pa bs src) (s.homePut_journalStays pa bs src)

theorem invalidateOthers {cl line} (h : LedgerStays b s) : LedgerStays b (s.invalidateOthers cl line) :=
  h.sys (s.invalidateOthers_sysChange cl line) (s.invalidateOthers_journalStays cl line)

theorem homeMerge {line mask data bad} (h : LedgerStays b s) : LedgerStays b (s.homeMerge line mask data bad) :=
  LedgerStays.ite h.homePut (h.foldl (fun _ _ h => LedgerStays.ite h.homePut h))

/-- A check-in whose bytes stay on the part is merged at its home (R256). -/
theorem sendHome {r : HReq} {mask : BitVec 64} {data : List Byte} {bad : Bool} (h : LedgerStays b s) (hk : r.kind = .chkin mask data bad)
    (hl : leavesPart (r.addr / 64) bad = false) : LedgerStays b (s.sendHome r) := by
  refine LedgerStays.ite (h.same rfl rfl) ?_
  simp only [runHome, hk, mergeHome]
  rw [if_neg (by simp [hl])]
  exact LedgerStays.homeMerge (LedgerStays.ite h.invalidateOthers h)

theorem checkIn {k : Nat} {l : Held} (h : LedgerStays b s) : LedgerStays b (s.checkIn k l) := by
  have hline : (s.chkinReq k l).addr / 64 = l.line := Nat.mul_div_cancel l.line (by decide)
  unfold State.checkIn
  extract_lets mask r s1 s2
  have h1 : LedgerStays b s1 := h.modStrand
  have h2 : LedgerStays b s2 := by
    unfold s2 updateCopy
    split
    · exact h1.same rfl rfl
    · exact h1
  split
  · rename_i s3 s4 _ _
    have h4 : LedgerStays b s4 := LedgerStays.same (LedgerStays.ite h2.invalidateOthers h2) rfl rfl
    exact LedgerStays.ite (h4.same rfl rfl) h4.homeMerge
  · split
    · exact h2.same rfl rfl
    · next hn => exact h2.sendHome rfl (by rw [hline]; simpa using hn)

theorem evictLine {cl line} (h : LedgerStays b s) : LedgerStays b (s.evictLine cl line) := by
  unfold State.evictLine
  split
  · refine LedgerStays.dropLine (LedgerStays.ite h (LedgerStays.ite h.homeMerge (h.same rfl rfl)))
  · exact h

theorem vacateWay {cl n} (h : LedgerStays b s) : LedgerStays b (s.vacateWay cl n) :=
  (h.foldl (l := List.range 16) (fun _ _ h => h.foldl (fun _ _ h => h.checkIn))).foldl (fun _ _ h => h.evictLine)

theorem convertBank {cl n mode owner} (h : LedgerStays b s) : LedgerStays b (s.convertBank cl n mode owner) := by
  unfold State.convertBank
  extract_lets old s1 s2
  have h1 : LedgerStays b s1 := LedgerStays.ite h.vacateWay h
  have h2 : LedgerStays b s2 := LedgerStays.ite h h1.bankClear.modBank
  exact h2.modBank

theorem claimBank {h' core p} (h : LedgerStays b s) : LedgerStays b (s.claimBank h' core p) := by
  unfold State.claimBank
  extract_lets cl n k s1
  have h1 : LedgerStays b s1 := LedgerStays.ite h.convertBank (LedgerStays.ite h h.bankClear)
  exact h1.modBank

theorem allocWindow {core size k n : Nat} : ∀ {s t : State}, LedgerStays b s → s.allocWindow n core size = some (k, t) → LedgerStays b t := by
  induction n with
  | zero =>
      intro s t h e
      obtain ⟨_, _, e⟩ := Option.map_eq_some_iff.mp e
      cases e
      exact h
  | succ n ih =>
      intro s t h e
      unfold State.allocWindow at e
      split at e
      · cases e
        exact h
      · split at e
        · cases e
        · exact ih h.modCore e

theorem placeWindow {core image gcore k n : Nat} {dict : List (BitVec 384)} (h : LedgerStays b s)
    (e : s.placeWindow core image gcore dict = some (k, n, t)) : LedgerStays b t := by
  unfold State.placeWindow at e
  extract_lets stamp at e
  split at e
  · cases e
    exact h.modCore
  · split at e
    · cases e
    · next ha =>
        cases e
        exact (h.allocWindow ha).modCore

theorem placeMember {l : Launch} {gang : Word32} {e : Nat × Nat × Nat × Nat} (h : LedgerStays b s) : LedgerStays b (placeMember l gang s e) := by
  obtain ⟨m, core, i, tb⟩ := e
  unfold State.placeMember
  dsimp -zeta only
  split
  · exact h
  · split
    · exact h
    · next e =>
        extract_lets s1
        have h1 : LedgerStays b s1 := (h.placeWindow e).foldl (fun _ _ h => h.claimBank)
        exact h1.modStrand

end LedgerStays

/-! ### One launch placed -/

/-- A launch placed is PLACING under the next gang number (R41, R339). -/
theorem placeLaunch_places {l : Launch} (hl : s.launches = [l]) (pl : Placing) :
    ∃ e, (s.placeLaunch l pl).launches = [e] ∧ e.id = l.id ∧ e.st = .placing ∧ e.gang = BitVec.ofNat 32 s.nextGang ∧
      (s.placeLaunch l pl).nextGang = s.nextGang + 1 := by
  obtain ⟨v, hv⟩ : ∃ v, v = ({ s with nextGang := s.nextGang + 1 } : State) := ⟨_, rfl⟩
  have hvl : v.launches = [l] := by rw [hv]; exact hl
  obtain ⟨w, hw⟩ : ∃ w, w = pl.foldl (placeMember l (BitVec.ofNat 32 s.nextGang)) v := ⟨_, rfl⟩
  have hled : LedgerStays v w := by
    rw [hw]
    exact (LedgerStays.refl v).foldl (fun _ _ h => h.placeMember)
  obtain ⟨hj, hg⟩ := hled
  have hm : w.launches.map calm = [calm l] := (show w.launches.map calm = v.launches.map calm from hj).trans (by rw [hvl]; rfl)
  obtain ⟨l', hl', hc⟩ := List.map_eq_singleton_iff.mp hm
  have hid : l'.id = l.id := (congrArg (·.id) hc :)
  unfold placeLaunch
  dsimp only
  rw [← hv, ← hw, modLaunch, hl', List.map_singleton, if_pos hid]
  exact ⟨_, rfl, hid, rfl, rfl, hg.trans (by rw [hv])⟩

/-! ### The pass -/

/-- A pass passes over a class that is shed or has no ready launch (R337, R340). -/
theorem passFrom_idle {cs : List Nat} (h : ∀ c ∈ cs, s.shed c = true ∨ s.readyOf c = []) : passFrom cs s = s := by
  induction cs with
  | nil => rfl
  | cons c cs ih =>
      have ih := ih (fun c' hc => h c' (List.mem_cons_of_mem _ hc))
      rw [passFrom]
      rcases h c List.mem_cons_self with hs | hr
      · rw [if_pos hs, ih]
      · rw [hr]
        dsimp only
        rw [ih, ite_self]

/-- A pass places the one ready launch of the journal, when it has a place (R337). -/
theorem passFrom_places {c : Nat} {l : Launch} {pl : Placing} (ho : ∀ c', c' ≠ c → s.readyOf c' = []) (hr : s.readyOf c = [l])
    (hs : s.shed c = false) (hp : s.findPlace false l = some pl) (hd : ∀ c', (s.placeLaunch l pl).readyOf c' = [])
    (hn : ((s.placeLaunch l pl).launch? l.id).map (·.st) ≠ some .ready) {cs : List Nat} (hc : c ∈ cs) :
    passFrom cs s = s.placeLaunch l pl := by
  induction cs with
  | nil => cases hc
  | cons a cs ih =>
      rw [passFrom]
      by_cases ha : a = c
      · subst ha
        have hl : passLaunch true s l = s.placeLaunch l pl := by rw [passLaunch, hp]
        rw [if_neg (by simp [hs]), hr]
        dsimp only
        rw [hl, if_neg (by simp [hn])]
        exact passFrom_idle (fun c' _ => .inr (hd c'))
      · have ih := ih (List.mem_of_ne_of_mem (Ne.symm ha) hc)
        rw [ho a ha]
        dsimp only
        rw [ih, ite_self]

/-- The ready launches of a journal of one launch. -/
theorem readyOf_one {l : Launch} (hl : s.launches = [l]) (c : Nat) :
    s.readyOf c = if l.cls == c && l.st == .ready && l.status.isNone && !(s.hctx l.hc).pause then [l] else [] := by
  rw [readyOf, hl, List.filter_singleton]
  exact (Bool.cond_eq_ite ..)

/-- A pass over a journal of one ready launch that has a place. -/
theorem placeAll_places {c : Fin 3} {l : Launch} {pl : Placing} (hl : s.launches = [l]) (hc : l.cls = c.val) (hst : l.st = .ready)
    (hs : l.status = none) (hp : (s.hctx l.hc).pause = false) (hsh : s.shed c.val = false) (hf : s.findPlace false l = some pl) :
    s.placeAll = s.placeLaunch l pl := by
  obtain ⟨e, he, hid, hes, -, -⟩ := placeLaunch_places hl pl
  have hmem : c.val ∈ [0, 1, 2] := by
    have := c.isLt
    simp
    omega
  refine passFrom_places (fun c' hc' => ?_) ?_ hsh hf (fun c' => ?_) ?_ hmem
  · rw [readyOf_one hl, if_neg (by simp [hc, Ne.symm hc'])]
  · rw [readyOf_one hl, if_pos (by simp [hc, hst, hs, hp])]
  · rw [readyOf_one he, if_neg (by simp [hes])]
  · rw [launch?, he]
    simp [hid, hes]

/-- A pass over a journal of one launch whose class is shed. -/
theorem placeAll_shed {l : Launch} (hl : s.launches = [l]) (hsh : s.shed l.cls = true) : s.placeAll = s := by
  refine passFrom_idle (fun c _ => ?_)
  by_cases hc : l.cls = c
  · exact .inl (hc ▸ hsh)
  · exact .inr (by rw [readyOf_one hl, if_neg (by simp [hc])])

end Sys2Proof.Machine.State
end

section
/-! The start of a member: its strand, its tiles and its plan's buffers (R49, R50, R248). -/

namespace Sys2Proof.Machine.State

/-! ### Acts that clear memory and begin strands -/

/-- From s to t memory is at most cleared, and no strand changes but some. -/
structure Begun (ks : List Nat) (s t : State) : Prop where
  strands : ∀ j, j ∉ ks → t.strand j = s.strand j
  launches : t.launches = s.launches
  images : t.images = s.images
  width : ∀ c, t.width c = s.width c
  mem : ∀ a, t.mem.read a = s.mem.read a ∨ t.mem.read a = 0
  full : ∀ n, t.full.mem n = true → s.full.mem n = true
  poison : ∀ n, t.poison.mem n = true → s.poison.mem n = true

variable {s t u b : State} {ks js : List Nat}

namespace Begun

theorem refl (ks : List Nat) (s : State) : Begun ks s s :=
  ⟨fun _ _ => rfl, rfl, rfl, fun _ => rfl, fun _ => .inl rfl, fun _ h => h, fun _ h => h⟩

theorem trans (h : Begun ks s t) (g : Begun ks t u) : Begun ks s u where
  strands j hj := (g.strands j hj).trans (h.strands j hj)
  launches := g.launches.trans h.launches
  images := g.images.trans h.images
  width c := (g.width c).trans (h.width c)
  mem a := by
    rcases g.mem a with e | e
    · exact e ▸ h.mem a
    · exact .inr e
  full n hn := h.full n (g.full n hn)
  poison n hn := h.poison n (g.poison n hn)

theorem mono (h : Begun ks s t) (hk : ∀ k ∈ ks, k ∈ js) : Begun js s t := { h with strands := fun j hj => h.strands j (fun hm => hj (hk j hm)) }

theorem foldl_mem {α : Type} {f : State → α → State} {l : List α} (h : ∀ s, ∀ e ∈ l, Begun ks s (f s e)) : ∀ s, Begun ks s (l.foldl f s) := by
  induction l with
  | nil => exact refl ks
  | cons e l ih => exact fun s => (h s e List.mem_cons_self).trans (ih (fun s e he => h s e (List.mem_cons_of_mem _ he)) _)

theorem foldl {α : Type} {f : State → α → State} (h : ∀ s e, Begun ks s (f s e)) (l : List α) (s : State) : Begun ks s (l.foldl f s) :=
  foldl_mem (fun s e _ => h s e) s

/-- Bytes that read zero read zero ever after. -/
theorem zero (h : Begun ks s t) {a : Nat} (hz : s.mem.read a = 0) : t.mem.read a = 0 := (h.mem a).elim (fun e => e.trans hz) id

end Begun

/-- What one act of a fold brings about, and the others leave, holds after the fold. -/
theorem foldl_brings {α : Type} {f : State → α → State} {P : State → Prop} {e : α} {l : List α} (he : e ∈ l) (hf : ∀ s e, Begun ks s (f s e))
    (hP : ∀ s t, Begun ks s t → P s → P t) (hb : ∀ v, Begun ks s v → P (f v e)) : P (l.foldl f s) := by
  obtain ⟨pre, post, rfl⟩ := List.append_of_mem he
  rw [List.foldl_append, List.foldl_cons]
  exact hP _ _ (Begun.foldl hf post _) (hb _ (Begun.foldl hf pre s))

theorem bankClear_begun (s : State) (a n : Nat) : Begun [] s (s.bankClear a n) where
  strands _ _ := rfl
  launches := rfl
  images := rfl
  width _ := rfl
  mem x := by
    change (s.mem.zero a n).read x = _ ∨ (s.mem.zero a n).read x = _
    rw [Mem.read_zero]
    split
    · exact .inr rfl
    · exact .inl rfl
  full x h := by
    change (s.full.delRange _ _).mem x = true at h
    rw [NSet.mem_delRange, Bool.and_eq_true] at h
    exact h.1
  poison x h := by
    change (s.poison.delRange _ _).mem x = true at h
    rw [NSet.mem_delRange, Bool.and_eq_true] at h
    exact h.1

theorem zeroMem_begun (s : State) (a n : Nat) : Begun [] s { s with mem := s.mem.zero a n } :=
  { (bankClear_begun s a n) with strands := fun _ _ => rfl, full := fun _ h => h, poison := fun _ h => h }

/-- A byte as a cleared bank has it: zero, its granule empty and without poison. -/
def Blank (a : Nat) (s : State) : Prop := s.mem.read a = 0 ∧ s.full.mem (a / 16) = false ∧ s.poison.mem (a / 16) = false

theorem Blank.begun {a : Nat} (h : Begun ks s t) (hb : Blank a s) : Blank a t := by
  obtain ⟨hm, hf, hp⟩ := hb
  exact ⟨h.zero hm, Bool.eq_false_iff.mpr (fun e => by simp [h.full _ e] at hf), Bool.eq_false_iff.mpr (fun e => by simp [h.poison _ e] at hp)⟩

theorem blank_bankClear (s : State) {a n o : Nat} (ho : o < n) : Blank (a + o) (s.bankClear a n) := by
  have hd (x : NSet) : (x.delRange (granSpan a n).1 (granSpan a n).2).mem ((a + o) / 16) = false := by
    rw [NSet.mem_delRange, granSpan, if_neg (by omega), decide_eq_true (by simp only [gran]; omega), Bool.not_true, Bool.and_false]
  refine ⟨?_, hd s.full, hd s.poison⟩
  change (s.mem.zero a n).read (a + o) = 0
  rw [Mem.read_zero, if_pos (by omega)]
  rfl

/-! ### A plan's buffers and a strand's tiles -/

theorem bankAddr_add (cl off o : Nat) : bankAddr cl (off + o) = bankAddr cl off + o := (Nat.add_assoc ..).symm

theorem clearPlan_begun (s : State) (core : Nat) (plan : List Spad) : Begun [] s (s.clearPlan core plan) :=
  Begun.foldl (fun s _ => s.bankClear_begun _ _) plan s

/-- Every byte of a plan's buffers is blank once the plan has been cleared (R248). -/
theorem clearPlan_blank {core : Nat} {plan : List Spad} {p : Spad} {o : Nat} (hp : p ∈ plan) (ho : o < p.size) :
    Blank (bankAddr (core / 4) ((32 * (core % 4) + p.bank) * 65536 + p.off + o)) (s.clearPlan core plan) :=
  foldl_brings hp (fun s _ => s.bankClear_begun _ _) (fun _ _ h => Blank.begun h) (fun v _ => by
    rw [bankAddr_add]
    exact v.blank_bankClear ho)

/-- The bytes of an element are zero. -/
def ZeroElem (core tile r c : Nat) (s : State) : Prop := ∀ j < 4, s.mem.read (accAddr core tile r c + j) = 0

theorem ZeroElem.begun {core tile r c : Nat} (h : Begun ks s t) (hz : ZeroElem core tile r c s) : ZeroElem core tile r c t :=
  fun j hj => h.zero (hz j hj)

theorem zeroTile_begun (s : State) (core tile : Nat) : Begun [] s (s.zeroTile core tile) :=
  Begun.foldl (fun s _ => Begun.foldl (fun s _ => s.zeroMem_begun _ _) _ s) _ s

/-- Every element of a tile is zero once the tile has been zeroed. -/
theorem zeroTile_zero {core tile r c : Nat} (hr : r < 64) (hc : c < 64 * s.width core) : ZeroElem core tile r c (s.zeroTile core tile) := by
  have inner (v : State) (m : Nat) : Begun [] v ((List.range (v.width core)).foldl (fun s p =>
      { s with mem := s.mem.zero (accAddr core tile m (64 * p)) 256 }) v) := Begun.foldl (fun s _ => s.zeroMem_begun _ _) _ v
  refine foldl_brings (List.mem_range.mpr hr) inner (fun _ _ h => ZeroElem.begun h) (fun v hv => ?_)
  have hp : c / 64 ∈ List.range (v.width core) := List.mem_range.mpr (by rw [hv.width]; omega)
  refine foldl_brings hp (fun s _ => s.zeroMem_begun _ _) (fun _ _ h => ZeroElem.begun h) (fun w _ j hj => ?_)
  change (w.mem.zero _ _).read _ = 0
  rw [Mem.read_zero, if_pos]
  · rfl
  · simp only [accAddr, Nat.mul_div_cancel_left _ (show 0 < 64 by decide), Nat.mul_mod_right]
    omega

theorem clearWindow_begun (s : State) (k : Nat) : Begun [] s (s.clearWindow k) := Begun.foldl (fun s _ => s.zeroTile_begun _ _) _ s

/-- Every element of a strand's window is zero once the window has been cleared (R50). -/
theorem clearWindow_zero {k i r c : Nat} (hi : i < (s.strand k).tn) (hr : r < 64) (hc : c < 64 * s.width (k / 4)) :
    ZeroElem (k / 4) ((s.strand k).tb + i) r c (s.clearWindow k) := by
  refine foldl_brings (List.mem_range.mpr hi) (fun s _ => s.zeroTile_begun _ _) (fun _ _ h => ZeroElem.begun h) (fun v hv => ?_)
  rw [hv.strands k List.not_mem_nil]
  exact zeroTile_zero hr (by rw [hv.width]; exact hc)

theorem setStrand_begun (s : State) (k : Nat) (x : Strand) : Begun [k] s (s.setStrand k x) :=
  { Begun.refl [k] s with strands := fun j hj => by rw [s.strand_setStrand, if_neg (by simpa using hj)] }

theorem acquire_begun (s : State) (cl : Nat) : Begun [] s (s.acquire cl) :=
  { Begun.refl [] s with
    strands := fun _ _ => rfl
    width := fun c => by
      simp only [State.width, acquire, cluster_modCluster]
      split
      · next h => rw [h]
      · rfl }

/-! ### The next entry of a copy schedule -/

/-- A strand whose token for its next copy-schedule entry may have been armed, and which may have been marked for pre-emption. -/
def Armed (u v : Strand) : Prop := ∃ ts oc tk mk, v = { u with tokens := ts, schedOcArm := oc, schedTok := tk, marked := mk }

theorem armEntry_begun (s : State) (k : Nat) : Begun [k] s (s.armEntry k) ∧ Armed (s.strand k) ((s.armEntry k).strand k) := by
  have hm (v : State) (f : Strand → Strand) : Begun [k] v (v.modStrand k f) := v.setStrand_begun k _
  have hset (v : State) (i : TokReg) : Begun [k] v (v.setTok k (some i) .armed 0) := by
    unfold setTok
    exact hm v _
  unfold armEntry
  split
  · exact ⟨.refl _ s, _, _, _, _, rfl⟩
  · next e _ =>
      split
      · exact ⟨.refl _ s, _, _, _, _, rfl⟩
      · extract_lets banks wait v
        have hv : Begun [k] s v ∧ Armed (s.strand k) (v.strand k) := by
          unfold v
          split
          · exact ⟨.refl _ s, _, _, _, _, rfl⟩
          · exact ⟨hm s _, _, _, _, _, s.strand_modStrand_self k _⟩
        obtain ⟨hv, ts, oc, tk, mk, hs⟩ := hv
        split
        · exact ⟨hv, ts, oc, tk, mk, hs⟩
        · cases e.tok with
          | none =>
              exact ⟨hv.trans (hm _ _), ts, oc, true, mk, by rw [strand_modStrand_self, setTok, hs]⟩
          | some i =>
              exact ⟨hv.trans ((hset v i).trans (hm _ _)), ts.set i.val ⟨.armed, BitVec.ofNat 32 0⟩, oc, true, mk, by
                rw [strand_modStrand_self, setTok, strand_modStrand_self, hs]⟩

/-- A launch without a copy schedule has no entry to arm. -/
theorem armEntry_unscheduled {k : Nat} {l : Launch} (hl : s.launchOf k = some l) (hc : l.csched = false) : s.armEntry k = s := by
  have : s.schedEntry k = none := by
    rw [schedEntry, hl]
    cases s.coreImg k <;> simp [hc]
  rw [armEntry, this]

end Sys2Proof.Machine.State
end

section
/-! GANG_START: every member of the gang is started, and the gang runs (R41, R49, R50, R415). -/

namespace Sys2Proof.Machine.State

variable {s t u b : State} {ks js : List Nat}

/-! ### One member started -/

/-- A member's strand as its start leaves it, its tokens apart (R50). -/
def startedStrand (s : State) (l : Launch) (i k : Nat) : Strand :=
  { freshStrand k (s.strand k) (l.starts.getD i 0) with front := { (freshStrand k (s.strand k) (l.starts.getD i 0)).front with a := regionBases l } }

/-- The plan of member i of a launch. -/
def planOf (s : State) (l : Launch) (i : Nat) : List Spad := (((s.image? l.image).bind (fun g => g.cores[i]?)).map (·.spad)).getD []

theorem startMember_eq (s : State) (l : Launch) (i : Nat) (m : Machine.Member) : s.startMember l i m =
    (((((s.clearPlan m.core (s.planOf l i)).setStrand (Member.key m) (s.startedStrand l i (Member.key m))).clearWindow (Member.key m)).acquire
      (clusterOf m.core)).armEntry (Member.key m)) := rfl

theorem startMember_begun (s : State) (l : Launch) (i : Nat) (m : Machine.Member) : Begun [Member.key m] s (s.startMember l i m) := by
  rw [startMember_eq]
  have nil {v w : State} (h : Begun [] v w) : Begun [Member.key m] v w := h.mono (fun _ hk => absurd hk List.not_mem_nil)
  exact ((((nil (s.clearPlan_begun _ _)).trans (setStrand_begun _ _ _)).trans (nil (clearWindow_begun _ _))).trans
    (nil (acquire_begun _ _))).trans (armEntry_begun _ _).1

end Sys2Proof.Machine.State

namespace Sys2Proof.Proofs

open Machine Claims State

variable {s t u : State} {ks : List Nat} {l : Launch} {i : Nat} {m : Machine.Member}

theorem key_core (h : m.strand < 4) : State.Member.key m / 4 = m.core := by
  change (m.core * 4 + m.strand) / 4 = m.core
  omega

/-- What a start gives a member: its strand, and the memory that it clears. -/
structure Opened (s t : State) (l : Launch) (i : Nat) (m : Machine.Member) : Prop where
  strand : Armed (s.startedStrand l i (State.Member.key m)) (t.strand (State.Member.key m))
  tokens : l.csched = false → (t.strand (State.Member.key m)).tokens = Vector.replicate 8 ⟨.clear, 0⟩
  tiles : ∀ n r c, n < (s.strand (State.Member.key m)).tn → r < 64 → c < 64 * s.width m.core →
    ZeroElem m.core ((s.strand (State.Member.key m)).tb + n) r c t
  plan : ∀ p ∈ s.planOf l i, ∀ o < p.size, Blank (bankAddr (m.core / 4) ((32 * (m.core % 4) + p.bank) * 65536 + p.off + o)) t

theorem first_true : ∀ j : Fin 16, ((Vector.replicate 16 false).set 0 true)[j] = decide (j = 0) := by decide

/-- It is the start of R50 and R248. -/
theorem Opened.started (h : Opened s t l i m) (h4 : m.strand < 4) : Started s t l i m := by
  obtain ⟨⟨ts, oc, tk, mk, hs⟩, hc, ht, hp⟩ := h
  exact {
    runs := by rw [hs]; exact ⟨rfl, rfl, rfl, rfl, rfl, rfl⟩
    x := by rw [hs]; rfl
    b := by rw [hs]; rfl
    p := fun j => by
      rw [hs]
      change ((Vector.replicate 16 false).set 0 true)[j] = _
      exact first_true j
    a := fun j => by
      rw [hs]
      change (regionBases l)[j] = _
      exact Vector.getElem_ofFn j.isLt
    special := by
      rw [hs]
      exact ⟨rfl, rfl, rfl, rfl, rfl, rfl, congrArg (BitVec.ofNat 7) (key_core h4)⟩
    eng := by rw [hs]; rfl
    levels := by rw [hs]; rfl
    tokens := hc
    tiles := fun n r c hn hr hw => by
      have hz := ht n r c hn hr hw
      change (List.range 4).map _ = _
      rw [List.map_congr_left (g := fun _ => (0 : Byte)) (fun j hj => hz j (List.mem_range.mp hj))]
      rfl
    plan := fun g k p o hg hk hpk ho => by
      refine hp p ?_ o ho
      rw [planOf, hg, Option.bind_some, hk]
      exact hpk }

theorem startMember_opened (h4 : m.strand < 4) (hl : s.launch? l.id = some l) (hk : (s.strand (State.Member.key m)).launch = l.id) :
    Opened s (s.startMember l i m) l i m := by
  obtain ⟨k, hkd⟩ : ∃ k, k = State.Member.key m := ⟨_, rfl⟩
  obtain ⟨s₁, h₁⟩ : ∃ v, v = s.clearPlan m.core (s.planOf l i) := ⟨_, rfl⟩
  obtain ⟨s₂, h₂⟩ : ∃ v, v = s₁.setStrand k (s.startedStrand l i k) := ⟨_, rfl⟩
  obtain ⟨s₃, h₃⟩ : ∃ v, v = (s₂.clearWindow k).acquire (clusterOf m.core) := ⟨_, rfl⟩
  have he : s.startMember l i m = s₃.armEntry k := by rw [h₃, h₂, h₁, hkd]; rfl
  have b₁ : Begun [] s s₁ := h₁ ▸ s.clearPlan_begun _ _
  have b₂ : Begun [k] s₁ s₂ := h₂ ▸ s₁.setStrand_begun k _
  have b₃' : Begun [] (s₂.clearWindow k) s₃ := h₃ ▸ acquire_begun _ _
  have b₃ : Begun [] s₂ s₃ := (s₂.clearWindow_begun k).trans b₃'
  obtain ⟨b₄, ha⟩ := s₃.armEntry_begun k
  have hu₂ : s₂.strand k = s.startedStrand l i k := by rw [h₂, strand_setStrand, if_pos rfl]
  have hu₃ : s₃.strand k = s.startedStrand l i k := (b₃.strands k List.not_mem_nil).trans hu₂
  have hcore : k / 4 = m.core := hkd ▸ key_core h4
  rw [he]
  rw [hu₃] at ha
  refine ⟨hkd ▸ ha, fun hc => ?_, fun n r c hn hr hw => ?_, fun p hp o ho => ?_⟩
  · have hlo : s₃.launchOf k = some l := by
      have hls : s₃.launches = s.launches := b₃.launches.trans (b₂.launches.trans b₁.launches)
      rw [launchOf, hu₃, launch?_of_launches hls]
      exact (congrArg s.launch? (hkd ▸ hk)).trans hl
    rw [armEntry_unscheduled hlo hc, ← hkd, hu₃]
    rfl
  · have hz : ZeroElem (k / 4) ((s₂.strand k).tb + n) r c (s₂.clearWindow k) :=
      clearWindow_zero (by rw [hu₂]; exact hkd ▸ hn) hr (by rw [hcore, b₂.width, b₁.width]; exact hw)
    rw [hu₂, hcore] at hz
    rw [← hkd]
    exact (hz.begun b₃').begun b₄
  · have hb := clearPlan_blank (s := s) (core := m.core) hp ho
    rw [← h₁] at hb
    exact ((hb.begun b₂).begun b₃).begun b₄

/-- What a member's start gives it stays through acts that clear memory and change other strands. -/
theorem Opened.after {v : State} (h : Opened s t l i m) (hb : Begun ks t v) (hk : State.Member.key m ∉ ks) : Opened s v l i m where
  strand := by rw [hb.strands _ hk]; exact h.strand
  tokens := by rw [hb.strands _ hk]; exact h.tokens
  tiles n r c hn hr hw := (h.tiles n r c hn hr hw).begun hb
  plan p hp o ho := (h.plan p hp o ho).begun hb

/-- And it is what the start gives from any state that such acts have led from. -/
theorem Opened.before (h : Opened t u l i m) (hb : Begun ks s t) (hk : State.Member.key m ∉ ks) : Opened s u l i m := by
  have hs := hb.strands _ hk
  have hp : t.planOf l i = s.planOf l i := by simp only [planOf, State.image?, hb.images]
  have ht : t.startedStrand l i (State.Member.key m) = s.startedStrand l i (State.Member.key m) := by simp only [startedStrand, hs]
  exact ⟨ht ▸ h.strand, h.tokens, fun n r c hn hr hw => hs ▸ h.tiles n r c (hs ▸ hn) hr (by rw [hb.width]; exact hw), hp ▸ h.plan⟩

/-- And a mark for pre-emption leaves it. -/
theorem Opened.marked {v : State} (h : Opened s t l i m) (hs : ∀ j, ∃ mk, v.strand j = { t.strand j with marked := mk })
    (hm : v.mem = t.mem) (hf : v.full = t.full) (hp : v.poison = t.poison) : Opened s v l i m := by
  obtain ⟨mk, hs⟩ := hs (State.Member.key m)
  obtain ⟨ts, oc, tk, mk', hu⟩ := h.strand
  refine ⟨⟨ts, oc, tk, mk, by rw [hs, hu]⟩, fun hc => by rw [hs]; exact h.tokens hc, fun n r c hn hr hw => ?_, fun p hpl o ho => ?_⟩
  · rw [ZeroElem, hm]
    exact h.tiles n r c hn hr hw
  · rw [Blank, hm, hf, hp]
    exact h.plan p hpl o ho

/-! ### The members of a gang -/

theorem liveMembers_nodup (l : Launch) : (State.liveMembers l).Nodup := by
  have hz : l.members.zipIdx.Nodup := List.Nodup.of_map Prod.snd (List.nodup_zipIdx_map_snd l.members)
  exact (hz.filter _).map (fun a b h => by simpa [Prod.ext_iff, and_comm] using h)

/-- The keys of some members' strands. -/
def keysOf (es : List (Nat × Machine.Member)) : List Nat := es.map (fun e => State.Member.key e.2)

theorem members_begun (es : List (Nat × Machine.Member)) (s : State) : Begun (keysOf es) s (es.foldl (fun s e => s.startMember l e.1 e.2) s) :=
  Begun.foldl_mem (fun s _ he => (s.startMember_begun l _ _).mono (fun k hk => by
    rw [List.mem_singleton.mp hk]
    exact List.mem_map_of_mem he)) s

/-- A member whose strand is its own has a key that the others of its gang do not. -/
theorem key_not_mem {es : List (Nat × Machine.Member)} {e : Nat × Machine.Member} (h : ∀ a ∈ es, State.Member.key a.2 = State.Member.key e.2 → a = e)
    (he : e ∉ es) : State.Member.key e.2 ∉ keysOf es := by
  intro hk
  obtain ⟨a, ha, hk⟩ := List.mem_map.mp hk
  exact he (h a ha hk ▸ ha)

/-- Members whose strands differ are started one after another: each has its start. -/
theorem members_opened {es : List (Nat × Machine.Member)} (hn : es.Nodup) (hl : s.launch? l.id = some l)
    (hd : ∀ a ∈ es, ∀ b ∈ es, State.Member.key a.2 = State.Member.key b.2 → a = b)
    (hk : ∀ e ∈ es, e.2.strand < 4 ∧ (s.strand (State.Member.key e.2)).launch = l.id) {e : Nat × Machine.Member} (he : e ∈ es) :
    Opened s (es.foldl (fun s e => s.startMember l e.1 e.2) s) l e.1 e.2 := by
  obtain ⟨h4, hke⟩ := hk e he
  obtain ⟨pre, post, rfl⟩ := List.append_of_mem he
  obtain ⟨hpre, hpost⟩ : e ∉ pre ∧ e ∉ post := by
    rw [List.nodup_append, List.nodup_cons] at hn
    exact ⟨fun h => hn.2.2 e h e List.mem_cons_self rfl, hn.2.1.1⟩
  have kpre := key_not_mem (fun a ha => hd a (List.mem_append_left _ ha) e he) hpre
  have kpost := key_not_mem (fun a ha => hd a (List.mem_append_right _ (List.mem_cons_of_mem _ ha)) e he) hpost
  have b₁ := members_begun (l := l) pre s
  have h := startMember_opened (i := e.1) h4 ((launch?_of_launches b₁.launches).trans hl) (by rw [b₁.strands _ kpre]; exact hke)
  rw [List.foldl_append, List.foldl_cons]
  exact (h.after (members_begun post _) kpost).before b₁ kpre

end Sys2Proof.Proofs

namespace Sys2Proof.Machine.State

variable {s t : State}

/-! ### A gang begins to run -/

/-- From s to t at most marks for pre-emption change in the strands, and memory stays. -/
structure Marked (s t : State) : Prop where
  strands : ∀ j, ∃ mk, t.strand j = { s.strand j with marked := mk }
  mem : t.mem = s.mem
  full : t.full = s.full
  poison : t.poison = s.poison

theorem Marked.of_eq (hs : t.strands = s.strands) (hm : t.mem = s.mem) (hf : t.full = s.full) (hp : t.poison = s.poison) : Marked s t :=
  ⟨fun j => ⟨(s.strand j).marked, by rw [strand, strand, hs]⟩, hm, hf, hp⟩

theorem Marked.trans {u : State} (h : Marked s t) (g : Marked t u) : Marked s u where
  strands j := by
    obtain ⟨a, ha⟩ := h.strands j
    obtain ⟨b, hb⟩ := g.strands j
    exact ⟨b, by rw [hb, ha]⟩
  mem := g.mem.trans h.mem
  full := g.full.trans h.full
  poison := g.poison.trans h.poison

/-- A strand with a mark, which a later cause makes thermal. -/
def marking (th : Bool) (t : Strand) : Strand := { t with marked := some (th || t.marked == some true) }

/-- A launch with its mark noted at a count of cycles. -/
def noted (th : Bool) (now : Nat) (l : Launch) : Launch := { l with thermal := l.thermal || th, markAt := some (l.markAt.getD now) }

theorem marking_marked (th : Bool) (s : State) (k : Nat) : Marked s (s.modStrand k (marking th)) where
  strands j := by
    rw [strand_modStrand]
    split
    · next h => exact ⟨_, by rw [h]; rfl⟩
    · exact ⟨_, rfl⟩
  mem := rfl
  full := rfl
  poison := rfl

theorem markings_marked (th : Bool) (ks : List Nat) : ∀ s : State,
    Marked s (ks.foldl (fun s k => s.modStrand k (marking th)) s) ∧ (ks.foldl (fun s k => s.modStrand k (marking th)) s).launches = s.launches := by
  induction ks with
  | nil => exact fun s => ⟨.of_eq rfl rfl rfl rfl, rfl⟩
  | cons k ks ih =>
      intro s
      obtain ⟨hm, hl⟩ := ih (s.modStrand k (marking th))
      exact ⟨(marking_marked th s k).trans hm, hl⟩

/-- A gang that runs is marked, and runs on with its members and its bars. -/
theorem markGang_marked (th : Bool) {id : Nat} {l : Launch} (hl : s.launch? id = some l) (hst : l.st = .running) :
    Marked s (s.markGang th id) ∧ ∃ k, (s.markGang th id).launch? id = some k ∧ k.st = .running ∧ k.members = l.members ∧ k.bars = l.bars := by
  have he : s.markGang th id = if l.status.isSome then s else
      (((liveMembers l).map (fun e => Member.key e.2)).foldl (fun s k => s.modStrand k (marking th)) s).modLaunch id
        (noted th (s.core (leadCore l)).cycle.toNat) := by
    simp only [markGang, hl]
    rw [if_neg (c := (l.st == .placing) = true) (by simp [hst]), if_neg (c := (l.st != .running) = true) (by simp [hst])]
    rfl
  rw [he]
  split
  · exact ⟨.of_eq rfl rfl rfl rfl, l, hl, hst, rfl, rfl⟩
  · obtain ⟨hm, hls⟩ := markings_marked th ((liveMembers l).map (fun e => Member.key e.2)) s
    exact ⟨hm.trans (.of_eq rfl rfl rfl rfl), noted th (s.core (leadCore l)).cycle.toNat l,
      (launch?_modLaunch _ id (noted th _) (fun _ => rfl)).trans (congrArg _ ((launch?_of_launches hls).trans hl)), hst, rfl, rfl⟩

/-- A launch that begins to run, changed by f. -/
def begins (f : Launch → Launch) (l : Launch) : Launch := { f l with st := .running, owed := none }

/-- A gang begins to run, and is marked at once when it owes a mark. -/
theorem runGang_eq (s : State) (id : Nat) (f : Launch → Launch) :
    s.runGang id f = s.modLaunch id (begins f) ∨ ∃ th, s.runGang id f = (s.modLaunch id (begins f)).markGang th id := by
  unfold runGang
  dsimp only
  split
  · next th _ => exact .inr ⟨th, rfl⟩
  · exact .inl rfl

theorem runGang_runs {id : Nat} {l : Launch} {f : Launch → Launch} (hl : s.launch? id = some l) (hf : ∀ l, (f l).id = l.id) :
    Marked s (s.runGang id f) ∧ ∃ k, (s.runGang id f).launch? id = some k ∧ k.st = .running ∧ k.members = (f l).members ∧ k.bars = (f l).bars := by
  have h : (s.modLaunch id (begins f)).launch? id = some (begins f l) := (launch?_modLaunch s id (begins f) hf).trans (congrArg _ hl)
  have h₁ : Marked s (s.modLaunch id (begins f)) := .of_eq rfl rfl rfl rfl
  rcases s.runGang_eq id f with e | ⟨th, e⟩
  · exact e ▸ ⟨h₁, _, h, rfl, rfl, rfl⟩
  · obtain ⟨hm, k, hk⟩ := markGang_marked th h rfl
    exact e ▸ ⟨h₁.trans hm, k, hk⟩

/-! ### Parks that lie under nobody -/

theorem clearParks_none {l : Launch} (h : ∀ e ∈ liveMembers l, s.parksUnder (Member.key e.2) = []) : s.clearParks l = s :=
  foldl_eq_self (fun e he => by rw [h e he]; rfl)

end Sys2Proof.Machine.State

namespace Sys2Proof.Proofs

open Machine Claims State

/-- A launch at the start of its run: its bars and its push queues are as new. -/
def fresh (l : Launch) : Launch := { l with bars := Vector.replicate 16 (0, 0), pushes := [] }

/-- A placed launch that has never run and whose gang is ready starts (R41, R49, R50). -/
theorem gangStart_starts {s : State} {l : Launch} (hl : s.launch? l.id = some l) (hst : l.st = .placing) (hs : l.status = none)
    (he : l.everSusp = false) (hr : s.gangReady l = true) (hp : ∀ e ∈ State.liveMembers l, s.parksUnder (State.Member.key e.2) = [])
    (hd : ∀ a ∈ State.liveMembers l, ∀ b ∈ State.liveMembers l, State.Member.key a.2 = State.Member.key b.2 → a = b)
    (hk : ∀ e ∈ State.liveMembers l, e.2.strand < 4 ∧ (s.strand (State.Member.key e.2)).launch = l.id) :
    ∃ t k, exec (.gangStart l.id) s = .next t ∧ t.launch? l.id = some k ∧ k.st = .running ∧ k.members = l.members ∧
      ∀ e ∈ State.liveMembers l, Started s t l e.1 e.2 := by
  obtain ⟨v, hv⟩ : ∃ v, v = (State.liveMembers l).foldl (fun s e => s.startMember l e.1 e.2) s := ⟨_, rfl⟩
  have hx : exec (.gangStart l.id) s = .next (s.startGang l.id) := by delta exec; rfl
  have hg : s.startGang l.id = v.runGang l.id fresh := by
    rw [hv]
    simp only [State.startGang, hl, hst, hs, he, clearParks_none hp, hr]
    rfl
  have hvl : v.launch? l.id = some l := by
    rw [hv, launch?_of_launches (members_begun _ s).launches]
    exact hl
  obtain ⟨hm, k, hk₁, hk₂, hk₃, -⟩ := runGang_runs (f := fresh) hvl (fun _ => rfl)
  refine ⟨_, k, hx.trans (congrArg _ hg), hk₁, hk₂, hk₃, fun e hme => ?_⟩
  have ho := members_opened (liveMembers_nodup l) hl hd hk hme
  rw [← hv] at ho
  exact (ho.marked hm.strands hm.mem hm.full hm.poison).started (hk e hme).1

end Sys2Proof.Proofs
end

section
/-! GANG_RESUME, the dependences of a suspension, and with placement and start the whole of O49 (R41, R65, R208, R337 to R339, R351). -/

namespace Sys2Proof.Machine.State

variable {s t u : State} {k : Nat}

/-! ### What a resumption sets in a strand, and the acts that leave it -/

/-- Two strands that run alike: the same program counter, engine registers and levels. -/
def Alike (u v : Strand) : Prop := v.life = u.life ∧ v.pc = u.pc ∧ v.count = u.count ∧ v.eng = u.eng ∧ v.levels = u.levels

/-- From s to t no strand changes but strand k, which runs alike, and no launch. -/
structure RunsOn (k : Nat) (s t : State) : Prop where
  others : ∀ j, j ≠ k → t.strand j = s.strand j
  mine : Alike (s.strand k) (t.strand k)
  launches : t.launches = s.launches

namespace RunsOn

theorem refl (k : Nat) (s : State) : RunsOn k s s := ⟨fun _ _ => rfl, ⟨rfl, rfl, rfl, rfl, rfl⟩, rfl⟩

theorem trans (h : RunsOn k s t) (g : RunsOn k t u) : RunsOn k s u where
  others j hj := (g.others j hj).trans (h.others j hj)
  mine := by
    obtain ⟨a₁, a₂, a₃, a₄, a₅⟩ := h.mine
    obtain ⟨b₁, b₂, b₃, b₄, b₅⟩ := g.mine
    exact ⟨b₁.trans a₁, b₂.trans a₂, b₃.trans a₃, b₄.trans a₄, b₅.trans a₅⟩
  launches := g.launches.trans h.launches

theorem foldl_mem {α : Type} {f : State → α → State} {l : List α} (h : ∀ s, ∀ e ∈ l, RunsOn k s (f s e)) : ∀ s, RunsOn k s (l.foldl f s) := by
  induction l with
  | nil => exact refl k
  | cons e l ih => exact fun s => (h s e List.mem_cons_self).trans (ih (fun s e he => h s e (List.mem_cons_of_mem _ he)) _)

theorem of_eq (hs : t.strands = s.strands) (hl : t.launches = s.launches) : RunsOn k s t := by
  have h (j : Nat) : t.strand j = s.strand j := by rw [strand, strand, hs]
  exact ⟨fun j _ => h j, by rw [h]; exact ⟨rfl, rfl, rfl, rfl, rfl⟩, hl⟩

theorem of_clear (h : Begun [] s t) : RunsOn k s t := by
  have h' (j : Nat) : t.strand j = s.strand j := h.strands j List.not_mem_nil
  exact ⟨fun j _ => h' j, by rw [h']; exact ⟨rfl, rfl, rfl, rfl, rfl⟩, h.launches⟩

end RunsOn

theorem modStrand_runsOn (s : State) {k : Nat} {f : Strand → Strand} (hf : ∀ u, Alike u (f u)) : RunsOn k s (s.modStrand k f) where
  others j hj := by rw [strand_modStrand, if_neg hj]
  mine := by rw [strand_modStrand_self]; exact hf _
  launches := rfl

theorem setTok_runsOn (s : State) (k : Nat) (tk : Option TokReg) (st : TokSt) (n : Nat) : RunsOn k s (s.setTok k tk st n) := by
  cases tk with
  | none => exact .refl k s
  | some i =>
      unfold setTok
      exact s.modStrand_runsOn (fun _ => ⟨rfl, rfl, rfl, rfl, rfl⟩)

theorem restoreTokens_runsOn (s : State) (k toks : Nat) : RunsOn k s (s.restoreTokens k toks) := by
  refine RunsOn.foldl_mem (fun s j _ => ?_) s
  dsimp only
  split
  · exact .refl k s
  · exact RunsOn.trans (t := s.freeVal.2) (.of_eq rfl rfl) (setTok_runsOn _ _ _ _ _)
  · exact setTok_runsOn _ _ _ _ _

theorem dropCopy_runsOn (s : State) (k id : Nat) : RunsOn k s (s.dropCopy id) := .of_eq rfl rfl
theorem tlbForget_runsOn (s : State) (k cl h va : Nat) : RunsOn k s (s.tlbForget cl h va) := .of_eq rfl rfl

theorem finishCopy_runsOn (s : State) (c : Copy) : RunsOn (strandKey c.core c.strand) s (s.finishCopy c) := by
  unfold finishCopy
  refine ((s.setTok_runsOn _ _ _ _).trans (modStrand_runsOn _ (fun u => ?_))).trans (dropCopy_runsOn _ _ _)
  exact ⟨rfl, rfl, rfl, rfl, rfl⟩

theorem endSkipped_runsOn (s : State) (k : Nat) : RunsOn k s (s.endSkipped k) := by
  have copies : RunsOn k s ((s.copies.filter (fun c => strandKey c.core c.strand == k && c.skipped)).foldl finishCopy s) := by
    refine RunsOn.foldl_mem (fun s c hc => ?_) s
    obtain ⟨-, hc⟩ := List.mem_filter.mp hc
    simp only [Bool.and_eq_true, beq_iff_eq] at hc
    exact hc.1 ▸ s.finishCopy_runsOn c
  exact (copies.trans (RunsOn.foldl_mem (fun s c _ => s.setTok_runsOn k c.tok .done 0) _)).trans (.of_eq rfl rfl)

theorem tlbForgetAll_runsOn (s : State) (k cl h : Nat) (es : List Extent) : RunsOn k s (s.tlbForgetAll cl h es) :=
  RunsOn.foldl_mem (fun s _ _ => RunsOn.foldl_mem (fun s _ _ => s.tlbForget_runsOn k cl h _) s) s

theorem walkAfresh_runsOn (s : State) (k : Nat) : RunsOn k s (s.walkAfresh k) :=
  (RunsOn.foldl_mem (fun s _ _ => s.tlbForgetAll_runsOn k _ _ _) s).trans (RunsOn.foldl_mem (fun s _ _ => s.tlbForgetAll_runsOn k _ _ _) _)

theorem armEntry_runsOn (s : State) (k : Nat) : RunsOn k s (s.armEntry k) := by
  obtain ⟨hb, ts, oc, tk, mk, hs⟩ := s.armEntry_begun k
  exact ⟨fun j hj => hb.strands j (by simpa using hj), by rw [hs]; exact ⟨rfl, rfl, rfl, rfl, rfl⟩, hb.launches⟩

/-! ### One member resumed -/

/-- A member's strand as its resumption sets it: the registers that its save area gives, its levels and its place in its copy schedule (R65). -/
def resumedStrand (s : State) (l : Launch) (i : Nat) (m : Machine.Member) : Strand :=
  let k := Member.key m
  let r := leNat m.record
  let pc := BitVec.ofNat 32 (r / 2 ^ 128)
  let fe := s.restoreRegs l (s.saveVa k) (s.width m.core) m.core (s.masksAt l i (r.testBit 417) pc)
  { freshStrand k (s.strand k) pc with front := fe.1, eng := fe.2, levels := m.levels, schedNext := m.schedNext }

theorem resumeMember_eq (s : State) (l : Launch) (i : Nat) (m : Machine.Member) : s.resumeMember l i m =
    (((((((((s.clearPlan m.core (s.planOf l i)).setStrand (Member.key m) (s.resumedStrand l i m)).clearWindow (Member.key m)).giveCopies l.id i
      m.core m.strand).restoreTokens (Member.key m) (leNat m.record / 2 ^ 192 % 2 ^ 64)).endSkipped (Member.key m)).walkAfresh
        (Member.key m)).acquire (clusterOf m.core)).armEntry (Member.key m)) := rfl

/-- A strand resumed from the bundle that its record names, its levels as the record's, QCNT at 0 (R65, R208). -/
def Resumed (m : Machine.Member) (u : Strand) : Prop :=
  u.life = .running ∧ u.pc = BitVec.ofNat 32 (leNat m.record / 2 ^ 128) ∧ u.count = 0 ∧ u.eng.qcnt = 0 ∧ u.levels = m.levels

theorem Resumed.alike {m : Machine.Member} {u v : Strand} (h : Resumed m u) (a : Alike u v) : Resumed m v := by
  obtain ⟨h₁, h₂, h₃, h₄, h₅⟩ := h
  obtain ⟨a₁, a₂, a₃, a₄, a₅⟩ := a
  exact ⟨a₁.trans h₁, a₂.trans h₂, a₃.trans h₃, a₄ ▸ h₄, a₅.trans h₅⟩

theorem resumeMember_resumes (s : State) (l : Launch) (i : Nat) (m : Machine.Member) :
    (∀ j, j ≠ Member.key m → (s.resumeMember l i m).strand j = s.strand j) ∧ Resumed m ((s.resumeMember l i m).strand (Member.key m)) ∧
      (s.resumeMember l i m).launches = s.launches := by
  rw [resumeMember_eq]
  obtain ⟨v, hv⟩ : ∃ v, v = (s.clearPlan m.core (s.planOf l i)).setStrand (Member.key m) (s.resumedStrand l i m) := ⟨_, rfl⟩
  rw [← hv]
  have b₀ := s.clearPlan_begun m.core (s.planOf l i)
  have hmine : v.strand (Member.key m) = s.resumedStrand l i m := by rw [hv, strand_setStrand, if_pos rfl]
  have hothers (j : Nat) (hj : j ≠ Member.key m) : v.strand j = s.strand j := by
    rw [hv, strand_setStrand, if_neg hj, b₀.strands j List.not_mem_nil]
  have hl : v.launches = s.launches := by rw [hv]; exact b₀.launches
  have hr : Resumed m (v.strand (Member.key m)) := by rw [hmine]; exact ⟨rfl, rfl, rfl, rfl, rfl⟩
  have h := (((((((RunsOn.of_clear (v.clearWindow_begun (Member.key m))).trans
    (.of_eq (t := (v.clearWindow (Member.key m)).giveCopies l.id i m.core m.strand) rfl rfl)).trans (restoreTokens_runsOn _ (Member.key m)
      (leNat m.record / 2 ^ 192 % 2 ^ 64))).trans (endSkipped_runsOn _ _)).trans (walkAfresh_runsOn _ _)).trans
        (RunsOn.of_clear (acquire_begun _ (clusterOf m.core)))).trans (armEntry_runsOn _ (Member.key m)))
  exact ⟨fun j hj => (h.others j hj).trans (hothers j hj), hr.alike h.mine, h.launches.trans hl⟩

end Sys2Proof.Machine.State

namespace Sys2Proof.Proofs

open Machine Claims State

variable {s : State} {l : Launch}

theorem resumes_beside (es : List (Nat × Machine.Member)) : ∀ s : State,
    (∀ j, j ∉ keysOf es → (es.foldl (fun s e => s.resumeMember l e.1 e.2) s).strand j = s.strand j) ∧
      (es.foldl (fun s e => s.resumeMember l e.1 e.2) s).launches = s.launches := by
  induction es with
  | nil => exact fun s => ⟨fun _ _ => rfl, rfl⟩
  | cons e es ih =>
      intro s
      obtain ⟨ho, -, hl⟩ := s.resumeMember_resumes l e.1 e.2
      obtain ⟨io, il⟩ := ih (s.resumeMember l e.1 e.2)
      refine ⟨fun j hj => ?_, il.trans hl⟩
      rw [keysOf, List.map_cons, List.mem_cons, not_or] at hj
      exact (io j hj.2).trans (ho j hj.1)

/-- Members whose strands differ are resumed one after another. -/
theorem members_resumed {es : List (Nat × Machine.Member)} (hn : es.Nodup)
    (hd : ∀ a ∈ es, ∀ b ∈ es, State.Member.key a.2 = State.Member.key b.2 → a = b) {e : Nat × Machine.Member} (he : e ∈ es) (s : State) :
    Resumed e.2 ((es.foldl (fun s e => s.resumeMember l e.1 e.2) s).strand (State.Member.key e.2)) := by
  obtain ⟨pre, post, rfl⟩ := List.append_of_mem he
  have hpost : e ∉ post := by
    rw [List.nodup_append, List.nodup_cons] at hn
    exact hn.2.1.1
  have kpost := key_not_mem (fun a ha => hd a (List.mem_append_right _ (List.mem_cons_of_mem _ ha)) e he) hpost
  rw [List.foldl_append, List.foldl_cons, (resumes_beside post _).1 _ kpost]
  exact (resumeMember_resumes _ l e.1 e.2).2.1

/-- A launch as it runs on after a suspension: the counts of its bars and its push queues are as new. -/
def onward (l : Launch) : Launch := { l with bars := l.bars.map (fun b => (0, b.2)), pushes := [] }

/-- GANG_RESUME of a placed launch that has been suspended, with homes free (R65). -/
theorem gangResume_eq (hl : s.launch? l.id = some l) (hst : l.st = .placing) (hs : l.status = none) (he : l.everSusp = true) (hf : homesFree s) :
    exec (.gangResume l.id) s = .next (State.resumeLaunch l s) := by
  obtain ⟨hh, hb⟩ := hf
  have hlines : s.gangLines l = [] := List.flatMap_eq_nil_iff.mpr (fun e _ => areaLines_idle hh hb)
  have hx : exec (.gangResume l.id) s = .next (s.resumeGang l.id) := by delta exec; rfl
  rw [hx]
  simp only [State.resumeGang, hl, hst, hs, he, hlines, inTurn_idle _ hh (lines := []) (by simp)]
  rfl

theorem gangResume_resumes (hl : s.launch? l.id = some l) (hst : l.st = .placing) (hs : l.status = none) (he : l.everSusp = true)
    (hp : ∀ e ∈ State.liveMembers l, s.parksUnder (State.Member.key e.2) = []) (hr : s.gangReady l = true) (hf : homesFree s)
    (hk : ∀ e ∈ State.liveMembers l, s.recordKept (State.Member.key e.2) e.2 = true ∧ s.restorePoison l e = none)
    (hd : ∀ a ∈ State.liveMembers l, ∀ b ∈ State.liveMembers l, State.Member.key a.2 = State.Member.key b.2 → a = b) :
    ∃ t k, exec (.gangResume l.id) s = .next t ∧ t.launch? l.id = some k ∧ k.st = .running ∧ (∀ j : Fin 16, k.bars[j] = (0, l.bars[j].2)) ∧
      ∀ e ∈ State.liveMembers l, Resumed e.2 (t.strand (State.Member.key e.2)) := by
  obtain ⟨v, hv⟩ : ∃ v, v = (State.liveMembers l).foldl (fun s e => s.resumeMember l e.1 e.2) s := ⟨_, rfl⟩
  have hkept : (State.liveMembers l).find? (fun e => !s.recordKept (State.Member.key e.2) e.2) = none :=
    List.find?_eq_none.mpr (fun e hm => by simp [(hk e hm).1])
  have hpois : (State.liveMembers l).findSome? (fun e => (s.restorePoison l e).map (fun va => (State.Member.key e.2, va))) = none :=
    List.findSome?_eq_none_iff.mpr (fun e hm => by rw [(hk e hm).2]; rfl)
  have hg : State.resumeLaunch l s = v.runGang l.id onward := by
    rw [hv]
    simp only [State.resumeLaunch, hkept, hpois, clearParks_none hp, hr]
    rfl
  have hvl : v.launch? l.id = some l := by
    rw [hv, launch?_of_launches (resumes_beside _ s).2]
    exact hl
  obtain ⟨hm, k, hk₁, hk₂, -, hk₄⟩ := runGang_runs (f := onward) hvl (fun _ => rfl)
  refine ⟨_, k, (gangResume_eq hl hst hs he hf).trans (congrArg _ hg), hk₁, hk₂, fun j => ?_, fun e hme => ?_⟩
  · rw [hk₄]
    simp [onward]
  · obtain ⟨mk, hmk⟩ := hm.strands (State.Member.key e.2)
    have hres := members_resumed (l := l) (liveMembers_nodup l) hd hme s
    rw [← hv] at hres
    exact hres.alike (by rw [hmk]; exact ⟨rfl, rfl, rfl, rfl, rfl⟩)

/-- A member whose record was altered in memory ends its launch (R64). -/
theorem gangResume_altered (hl : s.launch? l.id = some l) (hst : l.st = .placing) (hs : l.status = none) (he : l.everSusp = true)
    (hf : homesFree s) {e : Nat × Machine.Member} (hm : State.liveMembers l = [e]) (hk : s.recordKept (State.Member.key e.2) e.2 = false) :
    ∃ t k, exec (.gangResume l.id) s = .next t ∧ t.launch? l.id = some k ∧ k.status = some (.failed 0x13) := by
  have hkept : (State.liveMembers l).find? (fun e => !s.recordKept (State.Member.key e.2) e.2) = some e := by simp [hm, hk]
  have hg : State.resumeLaunch l s = s.endLaunch l.id { s.recordOf (State.Member.key e.2) 0x13 with aux := e.1, bundle := 0 } := by
    simp only [State.resumeLaunch, hkept]
  obtain ⟨-, -, k, hk₁, hk₂⟩ := endLaunch_ends { s.recordOf (State.Member.key e.2) 0x13 with aux := e.1, bundle := 0 } hl
  exact ⟨_, k, (gangResume_eq hl hst hs he hf).trans (congrArg _ hg), hk₁, hk₂⟩

/-- The one launch of the journal, ready, is placed by a pass or when its class's oldest has waited 2 ms, unless its class is shed (R337 to R340). -/
theorem readyLaunch_placed {c : Fin 3} {pl : Placing} (hl : s.launches = [l]) (hc : l.cls = c.val) (hst : l.st = .ready) (hs : l.status = none)
    (hp : (s.hctx l.hc).pause = false) :
    (s.shed c.val = true → s.placeAll = s ∧ s.waited2Ms c.val = s) ∧
    (s.shed c.val = false → s.findPlace false l = some pl → s.placeAll = s.placeLaunch l pl) ∧
    (s.shed c.val = false → State.findPlace { s with launches := [{ l with waited := true }] } false { l with waited := true } = some pl →
      s.waited2Ms c.val = State.placeLaunch { s with launches := [{ l with waited := true }] } { l with waited := true } pl) := by
  refine ⟨fun hsh => ⟨placeAll_shed hl (hc ▸ hsh), if_pos hsh⟩, fun hsh hf => placeAll_places hl hc hst hs hp hsh hf, fun hsh hf => ?_⟩
  have hready : s.readyOf c.val = [l] := by rw [readyOf_one hl, if_pos (by simp [hc, hst, hs, hp])]
  have hw : s.modLaunch l.id (fun l => { l with waited := true }) = { s with launches := [{ l with waited := true }] } := by
    simp [State.modLaunch, hl]
  rw [State.waited2Ms, if_neg (by simp [hsh]), hready]
  dsimp only
  rw [hw]
  exact placeAll_places (s := { s with launches := [{ l with waited := true }] }) (l := { l with waited := true }) rfl hc hst hs hp hsh hf

/-- Settles O49: a pass finds the one ready launch; members whose strands differ start and resume one after another without touching each other. -/
theorem launchesArePlacedStartedAndResumed : Obligations.LaunchesArePlacedStartedAndResumed := by
  intro s c l
  have hpass : exec .placementPass s = .next s.placeAll := by delta exec; rfl
  have hwait : exec (.oldestLaunchWait2Ms c) s = .next (s.waited2Ms c.val) := by delta exec; rfl
  have hmet : exec (.suspendDependenceMet l.id) s = .next (s.depsMet l.id) := by delta exec; rfl
  refine ⟨fun hn => ?_, fun pl hl hc hst hs hp => ?_, gangStart_starts,
    fun hl hst hs he hp hr hf => ⟨fun hk hd => gangResume_resumes hl hst hs he hp hr hf hk hd, fun e hm hk =>
      gangResume_altered hl hst hs he hf hm hk⟩, fun hl hst hs => ⟨fun hm => ?_, fun hm => ?_⟩⟩
  · have hr (c : Nat) : s.readyOf c = [] := by rw [State.readyOf, hn]; rfl
    rw [hpass, hwait, State.waited2Ms, hr, State.placeAll, passFrom_idle (fun c _ => .inr (hr c)), ite_self]
    exact ⟨rfl, rfl⟩
  · obtain ⟨h₁, h₂, h₃⟩ := readyLaunch_placed (pl := pl) hl hc hst hs hp
    rw [hpass, hwait]
    refine ⟨fun hsh => ?_, fun hsh hf => ?_, fun hsh hf => ?_⟩
    · rw [(h₁ hsh).1, (h₁ hsh).2]
      exact ⟨rfl, rfl⟩
    · exact ⟨_, congrArg _ (h₂ hsh hf), placeLaunch_places hl pl⟩
    · exact ⟨_, congrArg _ (h₃ hsh hf),
        placeLaunch_places (s := { s with launches := [{ l with waited := true }] }) (l := { l with waited := true }) rfl pl⟩
  · rw [hmet]
    simp only [State.depsMet, hl, hst, hs, hm]
    rfl
  · rw [hmet]
    simp only [State.depsMet, hl, hst, hs, hm]
    rfl

end Sys2Proof.Proofs
end

section
/-! Decoding gives back what was encoded, form by form, and the words that the spec writes out: O52 and O54. -/

namespace Sys2Proof.Laws.RoundTrip

/-- Each form by its own lemma, in the order of the constructors of `Instr`. -/
theorem statement (i : Instr) : Statement i :=
  i.casesOn
    add addImm sub subImm mul mulImm mulh mulhImm mulhn mulhnImm div divImm divn divnImm rem remImm remn remnImm and andImm or orImm xor
    xorImm andn andnImm shl shlImm shr shrImm shra shraImm rol rolImm min minImm max maxImm minn minnImm maxn maxnImm clz ctz popc abs
    sext zext bfx bfxN bfi sel li fadd fsub fmul ffma fmin fmax cvtf cvtfN cvti cvtiN pand por pxor pandn pget pset ptb ptbx br brl trap
    aadd aaddImm aset aget alea cmp cmpImm fcmp gets puts ld ldN st ldv ldvFeTake ldvFeKeep stv stvFe ldvg stvs setfe clrfe spill fill
    pref atom cas red chkout chkin copy copys copyg copyfe gemv bankmode flush inval mma mmat accz accret accadd accld accst accrd accwr
    vadd vsub vmul vfma vmin vmax vabs vneg vclamp vrcp vrsq vexp2 vlog2 vand vor vxor vshl vshr vshra vcmp vsel vmov vbcast vperm vslide
    vslideDn vred vscan vany vall vfirst vpopc viota vextr vins vcvt vqmx vdqmx vrand qand qor qxor qnot sortb merge cmrg cget cclr ctopp
    cdraw fenceAcq fenceRel fenceFull drain push pop qstat notify launch suspend exit evpost dictld tlbinvPage tlbinvHc tlbinvAll kvlook
    kvapp kvfork kvtrunc kvfree pfxfind pfxins strunc scommit sframe btsnap obsel stage tokclr bar lnscfg lnsrun lnsbrk seqlen cntrd
    cntclr resume fqpop wakeTest binderRun partFailure rebind selectorCycle landingDataArrival engineOpStart engineOpComplete
    tlbWalkComplete homeRequestRun bankModeChange copyComplete gemvComplete copyschedEntryStart mmaOperandsConsumed mmaComplete
    pushDelivery suspendDependenceMet gangResume tailWordSignal notifySignal gangStart launchComplete faultRecordWrite watchdog
    uncorrectableError bisnp hostMemWrite hostRegisterWrite streamModeWrite controlPause resumew haltSoft haltHard haltRelease
    halfPowerGate sramEccError poolHeadFailover hostSnoop dcAddEvent dcReleaseRequest clockStep oldestLaunchWait2Ms hbmEccFailure
    spdmRequest coldReset placementPass thermalLevelEnter thermalLevelLeave powerLimitExceeded criticalShutdown lifetimeFlush hccreate
    hcdestroy hcrestart reside unload ptewrite tlbdrop medreg pfxremove streamopen streamclose keyadd clusterreset dcaccept dcrelease
    liferead stacksTrained nearMemoryEnginesTrained thermalCalibrationDone orderlyShutdown

end Sys2Proof.Laws.RoundTrip

namespace Sys2Proof.Proofs

/-- Settles O52: each form by its own lemma. -/
theorem decodingAnEncodedInstructionGivesItBack : Obligations.DecodingAnEncodedInstructionGivesItBack :=
  Laws.RoundTrip.statement

/-- Settles O54: the decoder evaluated on each word. -/
theorem wordsDecodeAsTheSpecWritesThem : Obligations.WordsDecodeAsTheSpecWritesThem :=
  ⟨rfl, rfl, rfl, rfl, rfl, rfl, rfl, by decide +kernel⟩

end Sys2Proof.Proofs
end

section
/-! What the decoder reads: each field as it is read, and the steps of a row's reading with what they say (spec 04 R98 to R104, R109). -/

namespace Sys2Proof

/-! ### What a field that is read says -/

theorem reg?_eq_some {n v : Nat} {r : Fin n} (h : reg? n v = some r) : v = r.val := by
  unfold reg? at h
  split at h
  · cases h; rfl
  · cases h

theorem need_eq_some {b : Bool} {u : Unit} (h : need b = some u) : b = true := by
  cases b
  · cases h
  · rfl

theorem guardOf?_eq_some {v : Nat} {g : Guard} (h : guardOf? v = some g) : v = g.code := by
  unfold guardOf? at h
  split at h
  · cases h
    by_cases h16 : 16 ≤ v <;> simp [Guard.code, h16] <;> omega
  · cases h

theorem condOf?_eq_some {v : Nat} {c : Cond} (h : condOf? v = some c) : v = c.code := by
  unfold condOf? at h
  split at h <;> cases h <;> rfl

theorem tyOf?_eq_some {v : Nat} {c : ETy} (h : tyOf? v = some c) : v = c.code := by
  unfold tyOf? at h
  split at h <;> cases h <;> rfl

theorem rmOf?_eq_some {v : Nat} {c : Rm} (h : rmOf? v = some c) : v = c.code := by
  unfold rmOf? at h
  split at h <;> cases h <;> rfl

theorem redOf?_eq_some {v : Nat} {c : RedOp} (h : redOf? v = some c) : v = c.code := by
  unfold redOf? at h
  split at h <;> cases h <;> rfl

theorem fmtOf?_eq_some {v : Nat} {c : MFmt} (h : fmtOf? v = some c) : v = c.code := by
  unfold fmtOf? at h
  split at h <;> cases h <;> rfl

theorem sregOf?_eq_some {v : Nat} {c : SReg} (h : sregOf? v = some c) : v = c.code := by
  unfold sregOf? at h
  split at h <;> cases h <;> rfl

/-- An immediate that is read fills its field and its LIMM (R103). -/
theorem imm?_eq_some {f : Fields} {lim : Option Nat} {i : Imm} (ht : f.t < 64) (hw : f.w < 2) (h : imm? f lim = some i) :
    f.t = i.tField ∧ f.w = i.wField ∧ lim = i.lim := by
  cases lim with
  | none =>
      cases h
      simp only [Imm.tField, Imm.wField, Imm.lim, BitVec.toNat_ofNat, and_true]
      omega
  | some l =>
      simp only [imm?, Option.ite_none_right_eq_some, Option.some.injEq] at h
      obtain ⟨⟨h1, h2, h3⟩, rfl⟩ := h
      simp only [Imm.tField, Imm.wField, Imm.lim, BitVec.toNat_ofNat, Option.some.injEq]
      omega

/-- A landing distance that is read fills its field and its LIMM (R104). -/
theorem land?_eq_some {f : Fields} {lim : Option Nat} {l : Land} (ht : f.t < 64) (h : land? f lim = some l) :
    f.t = l.tField ∧ lim = l.lim := by
  cases lim with
  | none =>
      cases h
      simp only [Land.tField, Land.lim, BitVec.toNat_ofNat, and_true]
      omega
  | some n =>
      simp only [land?, Option.ite_none_right_eq_some, Option.some.injEq] at h
      obtain ⟨⟨h1, h2⟩, rfl⟩ := h
      simp only [Land.tField, Land.lim, BitVec.toNat_ofNat, Option.some.injEq]
      omega

/-- A token field that is read is W and the opcode's low bits (R109). -/
theorem tok?_eq_some {f : Fields} {base : Nat} {tk : Option TokReg} (hb : base ≤ f.op) (h : tok? f base = some tk) :
    f.op = base + tokCode tk ∧ f.w = tk.isSome.toNat := by
  unfold tok? at h
  split at h
  · next hw =>
      obtain ⟨k, hk, rfl⟩ := Option.map_eq_some_iff.mp h
      have := reg?_eq_some hk
      simp only [tokCode, Option.isSome_some, Bool.toNat_true]
      omega
  · simp only [Option.ite_none_right_eq_some, Option.some.injEq] at h
    obtain ⟨⟨hw, hop⟩, rfl⟩ := h
    exact ⟨hop, hw⟩

/-- A bit read as a truth value is written back. -/
theorem toNat_beq_one {v : Nat} (h : v < 2) : (v == 1).toNat = v := by
  obtain rfl | rfl : v = 0 ∨ v = 1 := by omega
  all_goals rfl

/-! ### The steps of a reading -/

namespace Gives

variable {P : Instr → Prop} {f : Fields} {lim : Option Nat} {v : Nat}

/-- What a reading gives has the property when what follows each of its values has it. -/
theorem step {α : Type} {o : Option α} {k : α → Option Instr} (h : ∀ a, o = some a → Gives P (k a)) : Gives P (o >>= k) := by
  intro i hi
  obtain ⟨a, ha, hk⟩ := Option.bind_eq_some_iff.mp hi
  exact h a ha i hk

theorem guard {k : Guard → Option Instr} (h : ∀ g, v = g.code → Gives P (k g)) : Gives P (guardOf? v >>= k) :=
  step fun g hg => h g (guardOf?_eq_some hg)

theorem reg {n : Nat} {k : Fin n → Option Instr} (h : ∀ r, v = r.val → Gives P (k r)) : Gives P (reg? n v >>= k) :=
  step fun r hr => h r (reg?_eq_some hr)

/-- An instruction that is read has its encoding. -/
theorem enc {i : Instr} {e e' : SlotKind × Fields × Option Nat} (h : i.enc = some e) (he : e = e') :
    Gives (fun i => i.enc = some e') (Pure.pure i) :=
  .pure (he ▸ h)

theorem none : Gives P none := fun _ h => by cases h

theorem ite_of {c : Prop} [Decidable c] {a b : Option Instr} (ha : c → Gives P a) (hb : ¬c → Gives P b) :
    Gives P (if c then a else b) := by
  split
  · exact ha ‹_›
  · exact hb ‹_›

theorem pure_ite_of {c : Prop} [Decidable c] {a b : Instr} (ha : c → Gives P (Pure.pure a)) (hb : ¬c → Gives P (Pure.pure b)) :
    Gives P (Pure.pure (if c then a else b)) := by
  split
  · exact ha ‹_›
  · exact hb ‹_›

/-- A field that holds a code of an enumeration. -/
theorem code {α : Type} {o : Option α} {k : α → Option Instr} {c : α → Nat} (ho : ∀ {a}, o = some a → v = c a)
    (h : ∀ a, v = c a → Gives P (k a)) : Gives P (o >>= k) :=
  step fun a ha => h a (ho ha)

theorem need {b : Bool} {k : Unit → Option Instr} (h : b = true → Gives P (k ())) : Gives P (Sys2Proof.need b >>= k) :=
  step fun _ hb => h (need_eq_some hb)

theorem imm {k : Imm → Option Instr} (ht : f.t < 64) (hw : f.w < 2)
    (h : ∀ i, f.t = i.tField → f.w = i.wField → lim = i.lim → Gives P (k i)) : Gives P (imm? f lim >>= k) :=
  step fun i hi => let ⟨a, b, c⟩ := imm?_eq_some ht hw hi; h i a b c

theorem land {k : Land → Option Instr} (ht : f.t < 64) (h : ∀ l, f.t = l.tField → lim = l.lim → Gives P (k l)) :
    Gives P (land? f lim >>= k) :=
  step fun l hl => let ⟨a, b⟩ := land?_eq_some ht hl; h l a b

theorem tok {k : Option TokReg → Option Instr} {base : Nat} (hb : base ≤ f.op)
    (h : ∀ tk, f.op = base + tokCode tk → f.w = tk.isSome.toNat → Gives P (k tk)) : Gives P (tok? f base >>= k) :=
  step fun tk htk => let ⟨a, b⟩ := tok?_eq_some hb htk; h tk a b

end Gives

/-! ### Rows that lose nothing -/

/-- The fields of a 32-bit word alone (R98), with an opcode. -/
@[simp] def Fields.common (op : Nat) (f : Fields) : Fields := { op := op, g := f.g, d := f.d, s := f.s, t := f.t, w := f.w }

/-- A row of 32-bit words loses nothing: what it gives is encoded by the fields and the LIMM that it was read from. -/
def Inverts (k : SlotKind) (op : Nat) (p : Parser) : Prop :=
  ∀ f lim, f.op = op → f.t < 64 → f.w < 2 → Gives (fun i => i.enc = some (k, f.common op, lim)) (p f lim)

/-- The same of a row of slot M, whose words have the fields of R100. -/
def InvertsM (op : Nat) (p : Parser) : Prop :=
  ∀ f lim, f.port < 4 →
    Gives (fun i => i.enc = some (.m,
      { f.common op with xm := f.xm, xn := f.xn, xk := f.xk, fmt := f.fmt, port := f.port, rsv := f.rsv }, lim)) (p f lim)

/-- The same of a row of slot V, whose words have the fields of R99. -/
def InvertsV (op : Nat) (p : Parser) : Prop :=
  ∀ f lim, f.w < 2 → f.u < 64 →
    Gives (fun i => i.enc = some (.v, { f.common op with u := f.u, mask := f.mask, ty := f.ty, rm := f.rm }, lim)) (p f lim)

end Sys2Proof
end

section
/-! The rows of the 32-bit slots S, A, C, X and Q: what each gives is encoded as it was read (spec 04 R106, R108, R109, R113, R114). -/

namespace Sys2Proof

variable {k : SlotKind} {op : Nat}

theorem inverts_pXXX {mk : Guard → XReg → XReg → XReg → Instr} (h : ∀ g d s t, (mk g d s t).enc =
    some (k, { op := op, g := g.code, d := d.val, s := s.val, t := t.val }, none)) : Inverts k op (pXXX mk) := fun _ _ _ _ _ =>
  .guard fun g hg => .reg fun d hd => .reg fun s hs => .reg fun t ht => .need fun hn => .enc (h ..) (by simp_all)

theorem inverts_pXXI {mk : Guard → XReg → XReg → Imm → Instr} (h : ∀ g d s i, (mk g d s i).enc =
    some (k, { op := op, g := g.code, d := d.val, s := s.val, t := i.tField, w := i.wField }, i.lim)) :
    Inverts k op (pXXI mk) := fun _ _ _ ht hw =>
  .guard fun g hg => .reg fun d hd => .reg fun s hs => .imm ht hw fun i h₁ h₂ h₃ => .enc (h ..) (by simp_all)

theorem inverts_pXX {mk : Guard → XReg → XReg → Instr} (h : ∀ g d s, (mk g d s).enc =
    some (k, { op := op, g := g.code, d := d.val, s := s.val }, none)) : Inverts k op (pXX mk) := fun _ _ _ _ _ =>
  .guard fun g hg => .reg fun d hd => .reg fun s hs => .need fun hn => .enc (h ..) (by simp_all)

theorem inverts_pXI {mk : Guard → XReg → Imm → Instr} (h : ∀ g d i, (mk g d i).enc =
    some (k, { op := op, g := g.code, d := d.val, t := i.tField, w := i.wField }, i.lim)) : Inverts k op (pXI mk) := fun _ _ _ ht hw =>
  .guard fun g hg => .reg fun d hd => .imm ht hw fun i h₁ h₂ h₃ => .need fun hn => .enc (h ..) (by simp_all)

theorem inverts_pPPP {mk : Guard → PReg → PReg → PReg → Instr} (h : ∀ g d s t, (mk g d s t).enc =
    some (k, { op := op, g := g.code, d := d.val, s := s.val, t := t.val }, none)) : Inverts k op (pPPP mk) := fun _ _ _ _ _ =>
  .guard fun g hg => .reg fun d hd => .reg fun s hs => .reg fun t ht => .need fun hn => .enc (h ..) (by simp_all)

theorem inverts_pX {mk : Guard → XReg → Instr} (h : ∀ g d, (mk g d).enc =
    some (k, { op := op, g := g.code, d := d.val }, none)) : Inverts k op (pX mk) := fun _ _ _ _ _ =>
  .guard fun g hg => .reg fun d hd => .need fun hn => .enc (h ..) (by simp_all)

theorem inverts_pSX {mk : Guard → XReg → Instr} (h : ∀ g s, (mk g s).enc =
    some (k, { op := op, g := g.code, s := s.val }, none)) : Inverts k op (pSX mk) := fun _ _ _ _ _ =>
  .guard fun g hg => .reg fun s hs => .need fun hn => .enc (h ..) (by simp_all)

theorem inverts_pBI {mk : Guard → BReg → Imm → Instr} (h : ∀ g d i, (mk g d i).enc =
    some (k, { op := op, g := g.code, d := d.val, t := i.tField, w := i.wField }, i.lim)) : Inverts k op (pBI mk) := fun _ _ _ ht hw =>
  .guard fun g hg => .reg fun d hd => .imm ht hw fun i h₁ h₂ h₃ => .need fun hn => .enc (h ..) (by simp_all)

theorem inverts_pBX {mk : Guard → BReg → XReg → Instr} (h : ∀ g d s, (mk g d s).enc =
    some (k, { op := op, g := g.code, d := d.val, s := s.val }, none)) : Inverts k op (pBX mk) := fun _ _ _ _ _ =>
  .guard fun g hg => .reg fun d hd => .reg fun s hs => .need fun hn => .enc (h ..) (by simp_all)

theorem inverts_pSB {mk : Guard → BReg → Instr} (h : ∀ g s, (mk g s).enc =
    some (k, { op := op, g := g.code, s := s.val }, none)) : Inverts k op (pSB mk) := fun _ _ _ _ _ =>
  .guard fun g hg => .reg fun s hs => .need fun hn => .enc (h ..) (by simp_all)

theorem inverts_pXB {mk : Guard → XReg → BReg → Instr} (h : ∀ g d s, (mk g d s).enc =
    some (k, { op := op, g := g.code, d := d.val, s := s.val }, none)) : Inverts k op (pXB mk) := fun _ _ _ _ _ =>
  .guard fun g hg => .reg fun d hd => .reg fun s hs => .need fun hn => .enc (h ..) (by simp_all)

theorem inverts_pI {mk : Guard → Imm → Instr} (h : ∀ g i, (mk g i).enc =
    some (k, { op := op, g := g.code, t := i.tField, w := i.wField }, i.lim)) : Inverts k op (pI mk) := fun _ _ _ ht hw =>
  .guard fun g hg => .imm ht hw fun i h₁ h₂ h₃ => .need fun hn => .enc (h ..) (by simp_all)

theorem inverts_pAAX {mk : Guard → AReg → AReg → XReg → Instr} (h : ∀ g d s t, (mk g d s t).enc =
    some (k, { op := op, g := g.code, d := d.val, s := s.val, t := t.val }, none)) : Inverts k op (pAAX mk) := fun _ _ _ _ _ =>
  .guard fun g hg => .reg fun d hd => .reg fun s hs => .reg fun t ht => .need fun hn => .enc (h ..) (by simp_all)

theorem inverts_pAAI {mk : Guard → AReg → AReg → Imm → Instr} (h : ∀ g d s i, (mk g d s i).enc =
    some (k, { op := op, g := g.code, d := d.val, s := s.val, t := i.tField, w := i.wField }, i.lim)) :
    Inverts k op (pAAI mk) := fun _ _ _ ht hw =>
  .guard fun g hg => .reg fun d hd => .reg fun s hs => .imm ht hw fun i h₁ h₂ h₃ => .enc (h ..) (by simp_all)

theorem inverts_pAX {mk : Guard → AReg → XReg → Instr} (h : ∀ g d s, (mk g d s).enc =
    some (k, { op := op, g := g.code, d := d.val, s := s.val }, none)) : Inverts k op (pAX mk) := fun _ _ _ _ _ =>
  .guard fun g hg => .reg fun d hd => .reg fun s hs => .need fun hn => .enc (h ..) (by simp_all)

theorem inverts_pXA {mk : Guard → XReg → AReg → Instr} (h : ∀ g d s, (mk g d s).enc =
    some (k, { op := op, g := g.code, d := d.val, s := s.val }, none)) : Inverts k op (pXA mk) := fun _ _ _ _ _ =>
  .guard fun g hg => .reg fun d hd => .reg fun s hs => .need fun hn => .enc (h ..) (by simp_all)

theorem inverts_pPXX {mk : Guard → PReg → XReg → XReg → Instr} (h : ∀ g d s t, (mk g d s t).enc =
    some (k, { op := op, g := g.code, d := d.val, s := s.val, t := t.val }, none)) : Inverts k op (pPXX mk) := fun _ _ _ _ _ =>
  .guard fun g hg => .reg fun d hd => .reg fun s hs => .reg fun t ht => .need fun hn => .enc (h ..) (by simp_all)

theorem inverts_pPXI {mk : Guard → PReg → XReg → Imm → Instr} (h : ∀ g d s i, (mk g d s i).enc =
    some (k, { op := op, g := g.code, d := d.val, s := s.val, t := i.tField, w := i.wField }, i.lim)) :
    Inverts k op (pPXI mk) := fun _ _ _ ht hw =>
  .guard fun g hg => .reg fun d hd => .reg fun s hs => .imm ht hw fun i h₁ h₂ h₃ => .enc (h ..) (by simp_all)

theorem inverts_pXAL {mk : Guard → XReg → AReg → Land → Instr} (h : ∀ g d s l, (mk g d s l).enc =
    some (k, { op := op, g := g.code, d := d.val, s := s.val, t := l.tField }, l.lim)) : Inverts k op (pXAL mk) := fun _ _ _ ht _ =>
  .guard fun g hg => .reg fun d hd => .reg fun s hs => .land ht fun l h₁ h₂ => .need fun hn => .enc (h ..) (by simp_all)

theorem inverts_pXAI {mk : Guard → XReg → AReg → Imm → Instr} (h : ∀ g d s i, (mk g d s i).enc =
    some (k, { op := op, g := g.code, d := d.val, s := s.val, t := i.tField, w := i.wField }, i.lim)) :
    Inverts k op (pXAI mk) := fun _ _ _ ht hw =>
  .guard fun g hg => .reg fun d hd => .reg fun s hs => .imm ht hw fun i h₁ h₂ h₃ => .enc (h ..) (by simp_all)

theorem inverts_pVAL {mk : Guard → VReg → AReg → Land → Instr} (h : ∀ g d s l, (mk g d s l).enc =
    some (k, { op := op, g := g.code, d := d.val, s := s.val, t := l.tField }, l.lim)) : Inverts k op (pVAL mk) := fun _ _ _ ht _ =>
  .guard fun g hg => .reg fun d hd => .reg fun s hs => .land ht fun l h₁ h₂ => .need fun hn => .enc (h ..) (by simp_all)

theorem inverts_pVAI {mk : Guard → VReg → AReg → Imm → Instr} (h : ∀ g d s i, (mk g d s i).enc =
    some (k, { op := op, g := g.code, d := d.val, s := s.val, t := i.tField, w := i.wField }, i.lim)) :
    Inverts k op (pVAI mk) := fun _ _ _ ht hw =>
  .guard fun g hg => .reg fun d hd => .reg fun s hs => .imm ht hw fun i h₁ h₂ h₃ => .enc (h ..) (by simp_all)

theorem inverts_pVAV {mk : Guard → VReg → AReg → VReg → Instr} (h : ∀ g d s t, (mk g d s t).enc =
    some (k, { op := op, g := g.code, d := d.val, s := s.val, t := t.val }, none)) : Inverts k op (pVAV mk) := fun _ _ _ _ _ =>
  .guard fun g hg => .reg fun d hd => .reg fun s hs => .reg fun t ht => .need fun hn => .enc (h ..) (by simp_all)

theorem inverts_pV {mk : Guard → VReg → Instr} (h : ∀ g d, (mk g d).enc =
    some (k, { op := op, g := g.code, d := d.val }, none)) : Inverts k op (pV mk) := fun _ _ _ _ _ =>
  .guard fun g hg => .reg fun d hd => .need fun hn => .enc (h ..) (by simp_all)

theorem inverts_pVL {mk : Guard → VReg → Land → Instr} (h : ∀ g d l, (mk g d l).enc =
    some (k, { op := op, g := g.code, d := d.val, t := l.tField }, l.lim)) : Inverts k op (pVL mk) := fun _ _ _ ht _ =>
  .guard fun g hg => .reg fun d hd => .land ht fun l h₁ h₂ => .need fun hn => .enc (h ..) (by simp_all)

theorem inverts_pSAI {mk : Guard → AReg → Imm → Instr} (h : ∀ g s i, (mk g s i).enc =
    some (k, { op := op, g := g.code, s := s.val, t := i.tField, w := i.wField }, i.lim)) : Inverts k op (pSAI mk) := fun _ _ _ ht hw =>
  .guard fun g hg => .reg fun s hs => .imm ht hw fun i h₁ h₂ h₃ => .need fun hn => .enc (h ..) (by simp_all)

theorem inverts_pSA {mk : Guard → AReg → Instr} (h : ∀ g s, (mk g s).enc =
    some (k, { op := op, g := g.code, s := s.val }, none)) : Inverts k op (pSA mk) := fun _ _ _ _ _ =>
  .guard fun g hg => .reg fun s hs => .need fun hn => .enc (h ..) (by simp_all)

theorem inverts_pNone {mk : Guard → Instr} (h : ∀ g, (mk g).enc =
    some (k, { op := op, g := g.code }, none)) : Inverts k op (pNone mk) := fun _ _ _ _ _ =>
  .guard fun g hg => .need fun hn => .enc (h ..) (by simp_all)

theorem inverts_pSXX {mk : Guard → XReg → XReg → Instr} (h : ∀ g s t, (mk g s t).enc =
    some (k, { op := op, g := g.code, s := s.val, t := t.val }, none)) : Inverts k op (pSXX mk) := fun _ _ _ _ _ =>
  .guard fun g hg => .reg fun s hs => .reg fun t ht => .need fun hn => .enc (h ..) (by simp_all)

theorem inverts_pSAX {mk : Guard → AReg → XReg → Instr} (h : ∀ g s t, (mk g s t).enc =
    some (k, { op := op, g := g.code, s := s.val, t := t.val }, none)) : Inverts k op (pSAX mk) := fun _ _ _ _ _ =>
  .guard fun g hg => .reg fun s hs => .reg fun t ht => .need fun hn => .enc (h ..) (by simp_all)

theorem inverts_pXAX {mk : Guard → XReg → AReg → XReg → Instr} (h : ∀ g d s t, (mk g d s t).enc =
    some (k, { op := op, g := g.code, d := d.val, s := s.val, t := t.val }, none)) : Inverts k op (pXAX mk) := fun _ _ _ _ _ =>
  .guard fun g hg => .reg fun d hd => .reg fun s hs => .reg fun t ht => .need fun hn => .enc (h ..) (by simp_all)

theorem inverts_pB {mk : Guard → BReg → Instr} (h : ∀ g d, (mk g d).enc =
    some (k, { op := op, g := g.code, d := d.val }, none)) : Inverts k op (pB mk) := fun _ _ _ _ _ =>
  .guard fun g hg => .reg fun d hd => .need fun hn => .enc (h ..) (by simp_all)

theorem inverts_pSVV {mk : Guard → VReg → VReg → Instr} (h : ∀ g s t, (mk g s t).enc =
    some (k, { op := op, g := g.code, s := s.val, t := t.val }, none)) : Inverts k op (pSVV mk) := fun _ _ _ _ _ =>
  .guard fun g hg => .reg fun s hs => .reg fun t ht => .need fun hn => .enc (h ..) (by simp_all)

/-- A form whose W is 0 or 1 to name one of two mnemonics (R106). -/
theorem inverts_pXXXW {mk₀ mk₁ : Guard → XReg → XReg → XReg → Instr}
    (h₀ : ∀ g d s t, (mk₀ g d s t).enc = some (k, { op := op, g := g.code, d := d.val, s := s.val, t := t.val }, none))
    (h₁ : ∀ g d s t, (mk₁ g d s t).enc = some (k, { op := op, g := g.code, d := d.val, s := s.val, t := t.val, w := 1 }, none)) :
    Inverts k op (pXXXW mk₀ mk₁) := fun _ _ _ _ hw =>
  .guard fun g hg => .reg fun d hd => .reg fun s hs => .reg fun t ht => .need fun hn => .pure_ite_of
    (fun hw₀ => .enc (h₀ ..) (by simp_all)) (fun hw₁ => .enc (h₁ ..) (by simp_all; omega))

theorem inverts_pXXW {mk₀ mk₁ : Guard → XReg → XReg → Instr}
    (h₀ : ∀ g d s, (mk₀ g d s).enc = some (k, { op := op, g := g.code, d := d.val, s := s.val }, none))
    (h₁ : ∀ g d s, (mk₁ g d s).enc = some (k, { op := op, g := g.code, d := d.val, s := s.val, w := 1 }, none)) :
    Inverts k op (pXXW mk₀ mk₁) := fun f _ _ _ hw =>
  .guard fun g hg => .reg fun d hd => .reg fun s hs => .need fun hn => .pure_ite_of
    (fun hw₀ => .enc (h₀ ..) (by simp_all)) (fun hw₁ => .enc (h₁ ..) (by simp_all; omega))

theorem inverts_pXXN {mk : Guard → XReg → XReg → BitVec 6 → Instr} (h : ∀ g d s n, (mk g d s n).enc =
    some (k, { op := op, g := g.code, d := d.val, s := s.val, t := n.toNat }, none)) : Inverts k op (pXXN mk) := fun _ _ _ ht _ =>
  .guard fun g hg => .reg fun d hd => .reg fun s hs => .need fun hn => .enc (h ..) (by simp_all [Nat.mod_eq_of_lt])

theorem inverts_pGets : Inverts .s 0xA0 pGets := fun f _ _ _ hw =>
  .guard fun g hg => .reg fun d hd => .code sregOf?_eq_some fun r hr => .need fun hn => .enc rfl (by
    have ht : f.t = r.code / 2 ∧ f.w = r.code % 2 := by omega
    simp_all)

theorem inverts_pPuts : Inverts .s 0xA1 pPuts := fun f _ _ _ hw =>
  .guard fun g hg => .reg fun s hs => .code sregOf?_eq_some fun r hr => .need fun hn => .enc rfl (by
    have ht : f.t = r.code / 2 ∧ f.w = r.code % 2 := by omega
    simp_all)

theorem inverts_pFe {mk : Guard → Bool → VReg → AReg → Land → Instr} (h : ∀ g b d s l, (mk g b d s l).enc =
    some (k, { op := op, g := g.code, d := d.val, s := s.val, w := b.toNat, t := l.tField }, l.lim)) : Inverts k op (pFe mk) :=
  fun _ _ _ ht hw => .guard fun g hg => .reg fun d hd => .reg fun s hs => .land ht fun l h₁ h₂ => .enc (h ..) (by
    simp_all [toNat_beq_one hw])

theorem inverts_pAtom {mk : Guard → Bool → XReg → AReg → Land → Instr} (h : ∀ g b d s l, (mk g b d s l).enc =
    some (k, { op := op, g := g.code, d := d.val, s := s.val, w := b.toNat, t := l.tField }, l.lim)) : Inverts k op (pAtom mk) :=
  fun _ _ _ ht hw => .guard fun g hg => .reg fun d hd => .reg fun s hs => .land ht fun l h₁ h₂ => .enc (h ..) (by
    simp_all [toNat_beq_one hw])

theorem inverts_pRed {o : AtomOp} (ho : op = 0x48 + o.code) : Inverts .a op (pRed o) := fun _ lim _ _ hw =>
  .guard fun g hg => .reg fun d hd => .reg fun s hs => .need fun ht => by
    cases lim with
    | none => exact .enc rfl (by simp_all [toNat_beq_one hw])
    | some l => exact .need fun hl => .enc rfl (by simp_all [toNat_beq_one hw, Nat.mod_eq_of_lt])

/-- A lent LIMM of COPY is its length, its port and its add-on-write bit (R109). -/
theorem copyLen_lim {l : Nat} (h : l < 34359738368) :
    (CopyLen.long (BitVec.ofNat 32 l) (BitVec.ofNat 2 (l / 4294967296)) (decide (17179869184 ≤ l))).lim = some l := by
  simp only [CopyLen.lim, BitVec.toNat_ofNat, Option.some.injEq]
  by_cases ha : 17179869184 ≤ l
  · simp only [ha, decide_true, Bool.toNat_true]
    omega
  · simp only [ha, decide_false, Bool.toNat_false]
    omega

theorem inverts_pCopy (hb : 0x10 ≤ op) : Inverts .c op pCopy := fun f lim hop _ hw =>
  .guard fun g hg => .reg fun d hd => .reg fun s hs => .tok (by omega) fun tk h₁ h₂ => by
    cases lim with
    | none => exact .reg fun t ht => .enc rfl (by simp_all [CopyLen.tField, CopyLen.lim])
    | some l => exact .need fun hl => .enc rfl (by simp_all [CopyLen.tField, copyLen_lim])

theorem inverts_pTokX {base : Nat} {mk : Guard → Option TokReg → AReg → AReg → XReg → Instr} (h : ∀ g tk d s t, (mk g tk d s t).enc =
    some (k, { op := base + tokCode tk, g := g.code, d := d.val, s := s.val, t := t.val, w := tk.isSome.toNat }, none))
    (hb : base ≤ op) : Inverts k op (pTokX base mk) := fun _ _ hop _ _ =>
  .guard fun g hg => .reg fun d hd => .reg fun s hs => .reg fun t ht => .tok (by omega) fun tk h₁ h₂ => .need fun hn =>
    .enc (h ..) (by simp_all)

theorem inverts_pCopyg (hb : 0x20 ≤ op) : Inverts .c op pCopyg := fun _ _ hop _ _ =>
  .guard fun g hg => .reg fun d hd => .reg fun s hs => .reg fun t ht => .tok (by omega) fun tk h₁ h₂ => .need fun hn =>
    .enc rfl (by simp_all)

theorem inverts_pGemv (hb : 0x30 ≤ op) : Inverts .c op pGemv := fun _ _ hop _ _ =>
  .guard fun g hg => .reg fun d hd => .reg fun s hs => .reg fun t ht => .tok (by omega) fun tk h₁ h₂ => .need fun hn =>
    .enc rfl (by simp_all)

theorem inverts_pSortb : Inverts .x 1 pSortb := fun _ _ _ _ hw =>
  .guard fun g hg => .reg fun d hd => .reg fun s hs => .reg fun t ht => .need fun hn => .enc rfl (by
    simp_all [toNat_beq_one hw])

theorem inverts_pMerge : Inverts .x 2 pMerge := fun _ _ _ _ hw =>
  .guard fun g hg => .reg fun d hd => .reg fun s hs => .need fun hn => .enc rfl (by simp_all [toNat_beq_one hw])

theorem inverts_pCget : Inverts .x 4 pCget := fun _ _ _ _ hw =>
  .guard fun g hg => .reg fun d hd => .reg fun k hk => .need fun hn => .enc rfl (by simp_all [toNat_beq_one hw])

theorem inverts_pFence {c : Scope} (hc : op = 0x08 + c.code) : Inverts .q op (pFence c) := fun _ _ _ _ _ =>
  .guard fun g hg => .need fun hn => .ite_of (fun ht => .enc rfl (by simp_all)) fun _ =>
    .ite_of (fun ht => .enc rfl (by simp_all)) fun _ =>
      .ite_of (fun ht => .enc rfl (by simp_all)) fun _ => .none

end Sys2Proof
end

section
/-! The rows of slots M and V: what each gives is encoded as it was read (spec 04 R110 to R112). -/

namespace Sys2Proof

variable {op : Nat}

/-! ### Rows of slot M -/

theorem inverts_pMma {mk : Guard → TReg → AReg → AReg → XReg → XReg → XReg → MFmt → Instr} (h : ∀ g d s t xm xn xk fm,
    (mk g d s t xm xn xk fm).enc = some (.m,
      { op := op, g := g.code, d := d.val, s := s.val, t := t.val, xm := xm.val, xn := xn.val, xk := xk.val, fmt := fm.code }, none)) :
    InvertsM op (pMma mk) := fun _ _ _ =>
  .guard fun g hg => .reg fun d hd => .reg fun s hs => .reg fun t ht => .reg fun xm hm => .reg fun xn hn => .reg fun xk hk =>
    .code fmtOf?_eq_some fun fm hf => .need fun hz => .enc (h ..) (by simp_all [mZero])

theorem inverts_pAccz : InvertsM 3 pAccz := fun _ _ _ =>
  .guard fun g hg => .reg fun d hd => .need fun hz => .enc rfl (by simp_all [mZero])

theorem inverts_pAccret : InvertsM 4 pAccret := fun _ _ _ =>
  .guard fun g hg => .reg fun d hd => .reg fun s hs => .code tyOf?_eq_some fun ty hty => .need fun hz => .enc rfl (by
    simp_all [mZero])

theorem inverts_pAccadd : InvertsM 5 pAccadd := fun _ _ hp =>
  .guard fun g hg => .reg fun d hd => .reg fun s hs => .code tyOf?_eq_some fun ty hty => .need fun hz => .enc rfl (by
    simp_all [mZero, Nat.mod_eq_of_lt])

theorem inverts_pAccMem {mk : Guard → TReg → AReg → Instr} (h : ∀ g d s, (mk g d s).enc =
    some (.m, { op := op, g := g.code, d := d.val, s := s.val }, none)) : InvertsM op (pAccMem mk) := fun _ _ _ =>
  .guard fun g hg => .reg fun d hd => .reg fun s hs => .need fun hz => .enc (h ..) (by simp_all [mZero])

theorem inverts_pAccRow {mk : Guard → Fin 32 → Fin 32 → XReg → Instr} (h : ∀ g d s xm, (mk g d s xm).enc =
    some (.m, { op := op, g := g.code, d := d.val, s := s.val, xm := xm.val }, none)) : InvertsM op (pAccRow mk) := fun _ _ _ =>
  .guard fun g hg => .reg fun d hd => .reg fun s hs => .reg fun xm hm => .need fun hz => .enc (h ..) (by simp_all [mZero])

/-! ### Rows of slot V -/

theorem inverts_pVVVr {mk : Guard → VReg → VReg → VReg → QReg → ETy → Rm → Instr} (h : ∀ g d s t m ty rm, (mk g d s t m ty rm).enc =
    some (.v, { op := op, g := g.code, d := d.val, s := s.val, t := t.val, mask := m.val, ty := ty.code, rm := rm.code }, none)) :
    InvertsV op (pVVVr mk) := fun _ _ _ _ =>
  .guard fun g hg => .reg fun d hd => .reg fun s hs => .reg fun t ht => .reg fun m hm => .code tyOf?_eq_some fun ty hty =>
    .code rmOf?_eq_some fun rm hrm => .need fun hn => .enc (h ..) (by simp_all [vPlain])

theorem inverts_pVVVt {mk : Guard → VReg → VReg → VReg → QReg → ETy → Instr} (h : ∀ g d s t m ty, (mk g d s t m ty).enc =
    some (.v, { op := op, g := g.code, d := d.val, s := s.val, t := t.val, mask := m.val, ty := ty.code }, none)) :
    InvertsV op (pVVVt mk) := fun _ _ _ _ =>
  .guard fun g hg => .reg fun d hd => .reg fun s hs => .reg fun t ht => .reg fun m hm => .code tyOf?_eq_some fun ty hty =>
    .need fun hn => .enc (h ..) (by simp_all [vPlain])

theorem inverts_pVVt {mk : Guard → VReg → VReg → QReg → ETy → Instr} (h : ∀ g d s m ty, (mk g d s m ty).enc =
    some (.v, { op := op, g := g.code, d := d.val, s := s.val, mask := m.val, ty := ty.code }, none)) :
    InvertsV op (pVVt mk) := fun _ _ _ _ =>
  .guard fun g hg => .reg fun d hd => .reg fun s hs => .reg fun m hm => .code tyOf?_eq_some fun ty hty => .need fun hn =>
    .enc (h ..) (by simp_all [vPlain])

theorem inverts_pVFun {mk : Guard → VReg → VReg → QReg → Instr} (h : ∀ g d s m, (mk g d s m).enc =
    some (.v, { op := op, g := g.code, d := d.val, s := s.val, mask := m.val, ty := 6 }, none)) : InvertsV op (pVFun mk) := fun _ _ _ _ =>
  .guard fun g hg => .reg fun d hd => .reg fun s hs => .reg fun m hm => .need fun hn => .enc (h ..) (by simp_all [vPlain])

theorem inverts_pVVV {mk : Guard → VReg → VReg → VReg → QReg → Instr} (h : ∀ g d s t m, (mk g d s t m).enc =
    some (.v, { op := op, g := g.code, d := d.val, s := s.val, t := t.val, mask := m.val }, none)) :
    InvertsV op (pVVV mk) := fun _ _ _ _ =>
  .guard fun g hg => .reg fun d hd => .reg fun s hs => .reg fun t ht => .reg fun m hm => .need fun hn =>
    .enc (h ..) (by simp_all [vPlain, vNoTy])

theorem inverts_pVV {mk : Guard → VReg → VReg → QReg → Instr} (h : ∀ g d s m, (mk g d s m).enc =
    some (.v, { op := op, g := g.code, d := d.val, s := s.val, mask := m.val }, none)) : InvertsV op (pVV mk) := fun _ _ _ _ =>
  .guard fun g hg => .reg fun d hd => .reg fun s hs => .reg fun m hm => .need fun hn => .enc (h ..) (by simp_all [vPlain, vNoTy])

theorem inverts_pVred {mk : Guard → RedOp → VReg → VReg → QReg → ETy → Rm → Instr} (h : ∀ g o d s m ty rm, (mk g o d s m ty rm).enc =
    some (.v, { op := op, g := g.code, d := d.val, s := s.val, u := o.code, mask := m.val, ty := ty.code, rm := rm.code }, none)) :
    InvertsV op (pVred mk) := fun _ _ _ _ =>
  .guard fun g hg => .reg fun d hd => .reg fun s hs => .reg fun m hm => .code tyOf?_eq_some fun ty hty =>
    .code rmOf?_eq_some fun rm hrm => .code redOf?_eq_some fun o ho => .need fun hn => .enc (h ..) (by simp_all [vPlain])

theorem inverts_pVotes {mk : Guard → PReg → QReg → QReg → Instr} (h : ∀ g d s m, (mk g d s m).enc =
    some (.v, { op := op, g := g.code, d := d.val, s := s.val, mask := m.val }, none)) : InvertsV op (pVotes mk) := fun _ _ _ _ =>
  .guard fun g hg => .reg fun d hd => .reg fun s hs => .reg fun m hm => .need fun hn => .enc (h ..) (by simp_all [vPlain, vNoTy])

theorem inverts_pCounts {mk : Guard → XReg → QReg → QReg → Instr} (h : ∀ g d s m, (mk g d s m).enc =
    some (.v, { op := op, g := g.code, d := d.val, s := s.val, mask := m.val }, none)) : InvertsV op (pCounts mk) := fun _ _ _ _ =>
  .guard fun g hg => .reg fun d hd => .reg fun s hs => .reg fun m hm => .need fun hn => .enc (h ..) (by simp_all [vPlain, vNoTy])

theorem inverts_pQQQ {mk : Guard → QReg → QReg → QReg → QReg → Instr} (h : ∀ g d s t m, (mk g d s t m).enc =
    some (.v, { op := op, g := g.code, d := d.val, s := s.val, t := t.val, mask := m.val }, none)) :
    InvertsV op (pQQQ mk) := fun _ _ _ _ =>
  .guard fun g hg => .reg fun d hd => .reg fun s hs => .reg fun t ht => .reg fun m hm => .need fun hn =>
    .enc (h ..) (by simp_all [vPlain, vNoTy])

theorem inverts_pVfma : InvertsV 4 pVfma := fun _ _ _ _ =>
  .guard fun g hg => .reg fun d hd => .reg fun s hs => .reg fun t ht => .reg fun u hu => .reg fun m hm =>
    .code tyOf?_eq_some fun ty hty => .code rmOf?_eq_some fun rm hrm => .need fun hn => .enc rfl (by simp_all [vPlain])

theorem inverts_pVclamp : InvertsV 9 pVclamp := fun _ _ _ _ =>
  .guard fun g hg => .reg fun d hd => .reg fun s hs => .reg fun t ht => .reg fun u hu => .reg fun m hm =>
    .code tyOf?_eq_some fun ty hty => .need fun hn => .enc rfl (by simp_all [vPlain])

theorem inverts_pVcmp : InvertsV 0x18 pVcmp := fun _ _ _ _ =>
  .guard fun g hg => .reg fun d hd => .reg fun s hs => .reg fun t ht => .reg fun m hm => .code tyOf?_eq_some fun ty hty =>
    .code condOf?_eq_some fun c hc => .need fun hn => .enc rfl (by simp_all [vPlain])

theorem inverts_pVsel : InvertsV 0x19 pVsel := fun _ _ _ _ =>
  .guard fun g hg => .reg fun d hd => .reg fun s hs => .reg fun t ht => .reg fun u hu => .reg fun m hm => .need fun hn =>
    .enc rfl (by simp_all [vPlain, vNoTy])

theorem inverts_pViota : InvertsV 0x24 pViota := fun _ _ _ _ =>
  .guard fun g hg => .reg fun d hd => .reg fun m hm => .need fun hn => .enc rfl (by simp_all [vPlain, vNoTy])

theorem inverts_pVextr : InvertsV 0x25 pVextr := fun _ _ _ _ =>
  .guard fun g hg => .reg fun d hd => .reg fun s hs => .reg fun t ht => .need fun hn => .enc rfl (by simp_all [vPlain, vNoTy])

theorem inverts_pVins : InvertsV 0x26 pVins := fun _ _ _ _ =>
  .guard fun g hg => .reg fun d hd => .reg fun s hs => .reg fun t ht => .need fun hn => .enc rfl (by simp_all [vPlain, vNoTy])

theorem inverts_pQQ : InvertsV 0x33 pQQ := fun _ _ _ _ =>
  .guard fun g hg => .reg fun d hd => .reg fun s hs => .reg fun m hm => .need fun hn => .enc rfl (by simp_all [vPlain, vNoTy])

theorem inverts_pVcvt : InvertsV 0x28 pVcvt := fun _ _ hw _ =>
  .guard fun g hg => .reg fun d hd => .reg fun s hs => .reg fun m hm => .code tyOf?_eq_some fun src hsrc =>
    .code tyOf?_eq_some fun dst hdst => .code rmOf?_eq_some fun rm hrm => .need fun hn => .enc rfl (by simp_all [toNat_beq_one hw])

theorem inverts_pVqmx : InvertsV 0x29 pVqmx := fun _ _ hw _ =>
  .guard fun g hg => .reg fun d hd => .reg fun s hs => .reg fun t ht => .code tyOf?_eq_some fun ty hty =>
    .code rmOf?_eq_some fun rm hrm => .need fun hn => .enc rfl (by simp_all [toNat_beq_one hw])

theorem inverts_pVrand : InvertsV 0x2B pVrand := fun _ _ hw _ =>
  .guard fun g hg => .reg fun d hd => .reg fun s hs => .reg fun t ht => .reg fun m hm => .code tyOf?_eq_some fun ty hty =>
    .need fun hn => .enc rfl (by simp_all [toNat_beq_one hw])

/-- The count of a shift stands in T, or in U (R112). -/
theorem inverts_pVShift {mk : Guard → VReg → VReg → VCount → QReg → Instr} (h : ∀ g d s t m, (mk g d s t m).enc =
    some (.v, { op := op, g := g.code, d := d.val, s := s.val, t := t.tField, w := t.wField, u := t.uField, mask := m.val }, none)) :
    InvertsV op (pVShift mk) := fun _ _ _ hu =>
  .guard fun g hg => .reg fun d hd => .reg fun s hs => .reg fun m hm => .need fun hn => .ite_of
    (fun hw => .reg fun t ht => .need fun hu₀ => .enc (h ..) (by simp_all [vNoTy, VCount.tField, VCount.wField, VCount.uField]))
    (fun _ => .need fun hw => .enc (h ..) (by simp_all [vNoTy, VCount.tField, VCount.wField, VCount.uField, Nat.mod_eq_of_lt]))

/-- The word that VBCAST sends stands in S, in U or in the LIMM (R193). -/
theorem inverts_pVbcast : InvertsV 0x1B pVbcast := fun _ lim _ hu =>
  .guard fun g hg => .reg fun d hd => .reg fun m hm => .need fun hn => by
    cases lim with
    | none =>
        refine .ite_of (fun hw => .reg fun s hs => .need fun hu₀ => .enc rfl ?_) (fun _ => .need fun hw => .enc rfl ?_)
        all_goals simp_all [vNoTy, VBSrc.sField, VBSrc.wField, VBSrc.uField, VBSrc.lim, Nat.mod_eq_of_lt]
    | some l =>
        exact .need fun hl => .enc rfl (by simp_all [vNoTy, VBSrc.sField, VBSrc.wField, VBSrc.uField, VBSrc.lim, Nat.mod_eq_of_lt])

theorem inverts_pVslide : InvertsV 0x1D pVslide := fun f _ hw _ =>
  .guard fun g hg => .reg fun d hd => .reg fun s hs => .reg fun t ht => .reg fun m hm => .need fun hn => .pure_ite_of
    (fun hw₀ => .enc rfl (by simp_all [vNoTy])) (fun hw₁ => .enc rfl (by simp_all [vNoTy]; omega))

end Sys2Proof
end

section
/-! The opcode maps and whole words: a word that decodes is the encoding of what it decodes to (spec 04 R98 to R114): O53. -/

namespace Sys2Proof

/-! ### The maps -/

theorem sMap_inverts : ∀ r ∈ sMap, Inverts .s r.1 r.2 := by
  simp only [sMap, List.forall_mem_append, List.forall_mem_cons, List.not_mem_nil, false_imp_iff, implies_true, and_true]
  repeat' apply And.intro
  any_goals with_reducible refine inverts_pXXX ?_
  any_goals with_reducible refine inverts_pXXI ?_
  any_goals with_reducible refine inverts_pXX ?_
  any_goals with_reducible refine inverts_pXXN ?_
  any_goals with_reducible refine inverts_pXXXW ?_ ?_
  any_goals with_reducible refine inverts_pXI ?_
  any_goals with_reducible refine inverts_pXXW ?_ ?_
  any_goals with_reducible refine inverts_pPPP ?_
  any_goals with_reducible refine inverts_pX ?_
  any_goals with_reducible refine inverts_pSX ?_
  any_goals with_reducible refine inverts_pBI ?_
  any_goals with_reducible refine inverts_pBX ?_
  any_goals with_reducible refine inverts_pSB ?_
  any_goals with_reducible refine inverts_pXB ?_
  any_goals with_reducible refine inverts_pI ?_
  any_goals with_reducible refine inverts_pAAX ?_
  any_goals with_reducible refine inverts_pAAI ?_
  any_goals with_reducible refine inverts_pAX ?_
  any_goals with_reducible refine inverts_pXA ?_
  any_goals with_reducible refine inverts_pPXX ?_
  any_goals with_reducible refine inverts_pPXI ?_
  any_goals with_reducible exact inverts_pGets
  any_goals with_reducible exact inverts_pPuts
  all_goals
    intros
    rfl

theorem aMap_inverts : ∀ r ∈ aMap, Inverts .a r.1 r.2 := by
  simp only [aMap, List.forall_mem_append, List.forall_mem_cons, List.not_mem_nil, false_imp_iff, implies_true, and_true]
  repeat' apply And.intro
  any_goals with_reducible refine inverts_pXAL ?_
  any_goals with_reducible refine inverts_pXAI ?_
  any_goals with_reducible refine inverts_pVAL ?_
  any_goals with_reducible refine inverts_pFe ?_
  any_goals with_reducible refine inverts_pVAI ?_
  any_goals with_reducible refine inverts_pVAV ?_
  any_goals with_reducible refine inverts_pXA ?_
  any_goals with_reducible refine inverts_pV ?_
  any_goals with_reducible refine inverts_pVL ?_
  any_goals with_reducible refine inverts_pSAI ?_
  any_goals with_reducible refine inverts_pAtom ?_
  any_goals with_reducible refine inverts_pRed ?_
  any_goals with_reducible refine inverts_pSA ?_
  all_goals
    intros
    rfl

theorem cMap_inverts : ∀ r ∈ cMap, Inverts .c r.1 r.2 := by
  simp only [cMap, List.forall_mem_append, List.forall_mem_cons, List.not_mem_nil, false_imp_iff, implies_true, and_true]
  repeat' apply And.intro
  any_goals with_reducible exact inverts_pCopy (by decide)
  any_goals with_reducible refine inverts_pTokX ?_ (by decide)
  any_goals with_reducible exact inverts_pCopyg (by decide)
  any_goals with_reducible exact inverts_pGemv (by decide)
  any_goals with_reducible refine inverts_pSX ?_
  any_goals with_reducible refine inverts_pXA ?_
  all_goals
    intros
    rfl

theorem mMap_inverts : ∀ r ∈ mMap, InvertsM r.1 r.2 := by
  simp only [mMap, List.forall_mem_cons, List.not_mem_nil, false_imp_iff, implies_true, and_true]
  repeat' apply And.intro
  any_goals with_reducible refine inverts_pMma ?_
  any_goals with_reducible exact inverts_pAccz
  any_goals with_reducible exact inverts_pAccret
  any_goals with_reducible exact inverts_pAccadd
  any_goals with_reducible refine inverts_pAccMem ?_
  any_goals with_reducible refine inverts_pAccRow ?_
  all_goals
    intros
    rfl

theorem vMap_inverts : ∀ r ∈ vMap, InvertsV r.1 r.2 := by
  simp only [vMap, List.forall_mem_append, List.forall_mem_cons, List.not_mem_nil, false_imp_iff, implies_true, and_true]
  repeat' apply And.intro
  any_goals with_reducible refine inverts_pVVVr ?_
  any_goals with_reducible exact inverts_pVfma
  any_goals with_reducible refine inverts_pVVVt ?_
  any_goals with_reducible refine inverts_pVVt ?_
  any_goals with_reducible exact inverts_pVclamp
  any_goals with_reducible refine inverts_pVFun ?_
  any_goals with_reducible refine inverts_pVVV ?_
  any_goals with_reducible refine inverts_pVShift ?_
  any_goals with_reducible exact inverts_pVcmp
  any_goals with_reducible exact inverts_pVsel
  any_goals with_reducible refine inverts_pVV ?_
  any_goals with_reducible exact inverts_pVbcast
  any_goals with_reducible exact inverts_pVslide
  any_goals with_reducible refine inverts_pVred ?_
  any_goals with_reducible refine inverts_pVotes ?_
  any_goals with_reducible refine inverts_pCounts ?_
  any_goals with_reducible exact inverts_pViota
  any_goals with_reducible exact inverts_pVextr
  any_goals with_reducible exact inverts_pVins
  any_goals with_reducible exact inverts_pVcvt
  any_goals with_reducible exact inverts_pVqmx
  any_goals with_reducible exact inverts_pVrand
  any_goals with_reducible refine inverts_pQQQ ?_
  any_goals with_reducible exact inverts_pQQ
  all_goals
    intros
    rfl

theorem xMap_inverts : ∀ r ∈ xMap, Inverts .x r.1 r.2 := by
  simp only [xMap, List.forall_mem_cons, List.not_mem_nil, false_imp_iff, implies_true, and_true]
  repeat' apply And.intro
  any_goals with_reducible exact inverts_pSortb
  any_goals with_reducible exact inverts_pMerge
  any_goals with_reducible refine inverts_pSVV ?_
  any_goals with_reducible exact inverts_pCget
  any_goals with_reducible refine inverts_pNone ?_
  any_goals with_reducible refine inverts_pXX ?_
  all_goals
    intros
    rfl

theorem qMap_inverts : ∀ r ∈ qMap, Inverts .q r.1 r.2 := by
  simp only [qMap, List.forall_mem_append, List.forall_mem_cons, List.not_mem_nil, false_imp_iff, implies_true, and_true]
  repeat' apply And.intro
  any_goals with_reducible refine inverts_pFence ?_
  any_goals with_reducible refine inverts_pNone ?_
  any_goals with_reducible refine inverts_pXAX ?_
  any_goals with_reducible refine inverts_pXX ?_
  any_goals with_reducible refine inverts_pSAX ?_
  any_goals with_reducible refine inverts_pXA ?_
  any_goals with_reducible refine inverts_pSX ?_
  any_goals with_reducible refine inverts_pSXX ?_
  any_goals with_reducible refine inverts_pSA ?_
  any_goals with_reducible refine inverts_pXXX ?_
  any_goals with_reducible refine inverts_pB ?_
  all_goals
    intros
    rfl

/-! ### Words (R98 to R100) -/

/-- The fields read from a word fit its slot. -/
theorem Fields.unpack_fits (k : SlotKind) (w : Nat) : (Fields.unpack k w).fits k := by
  have one (n : Nat) : n % 2 ≤ 1 := by omega
  cases k <;> simp [Fields.fits, Fields.unpack, Fields.unpack32, Nat.mod_lt, one]

theorem Fields.pack32_unpack32 {w : Nat} (hw : w < 4294967296) : (Fields.unpack32 w).pack32 = w := by
  simp only [Fields.pack32, Fields.unpack32]
  omega

/-- A word is its fields: no bit of it lies outside them. -/
theorem Fields.pack_unpack {k : SlotKind} {w : Nat} (hw : w < 2 ^ k.width) : (Fields.unpack k w).pack k = w := by
  cases k
  case m =>
    have h : (unpack .m w).pack32 = w / 4294967296 := pack32_unpack32 (by simp only [SlotKind.width] at hw; omega)
    rw [pack, h]
    simp only [unpack]
    omega
  case v =>
    have h : (unpack .v w).pack32 = w / 65536 := pack32_unpack32 (by simp only [SlotKind.width] at hw; omega)
    rw [pack, h]
    simp only [unpack]
    omega
  all_goals exact pack32_unpack32 hw

/-- What a row of a slot's map reads from fields that fit is encoded by them. -/
theorem enc_of_mem_map {k : SlotKind} {r : Nat × Parser} (hr : r ∈ k.map) {f : Fields} (hf : f.fits k) (hop : f.op = r.1)
    {lim : Option Nat} : Gives (fun i => i.enc = some (k, f, lim)) (r.2 f lim) := by
  obtain ⟨op, g, d, s, t, w, u, mask, ty, rm, xm, xn, xk, fmt, port, rsv⟩ := f
  obtain ⟨-, -, -, -, ht, hw, hx⟩ := hf
  obtain rfl : op = r.1 := hop
  cases k
  case m =>
    obtain ⟨rfl, rfl, rfl, rfl, -, -, -, -, hp, -⟩ := hx
    exact mMap_inverts r hr _ lim hp
  case v =>
    obtain ⟨hu, -, -, -, rfl, rfl, rfl, rfl, rfl, rfl⟩ := hx
    exact vMap_inverts r hr _ lim hw hu
  all_goals obtain ⟨rfl, rfl, rfl, rfl, rfl, rfl, rfl, rfl, rfl, rfl⟩ := hx
  case s => exact sMap_inverts r hr _ lim rfl ht hw
  case a => exact aMap_inverts r hr _ lim rfl ht hw
  case c => exact cMap_inverts r hr _ lim rfl ht hw
  case x => exact xMap_inverts r hr _ lim rfl ht hw
  case q => exact qMap_inverts r hr _ lim rfl ht hw

/-- What decodes is a well-formed instruction that the row of the word's opcode reads from its fields. -/
theorem exists_row_of_decodeSlot {k : SlotKind} {w : Nat} {lim : Option Nat} {i : Instr} (hd : decodeSlot k w lim = some i) :
    ∃ r ∈ k.map, (Fields.unpack k w).op = r.1 ∧ r.2 (Fields.unpack k w) lim = some i ∧ i.wf = true := by
  unfold decodeSlot parseSlot at hd
  split at hd
  · cases hd
  · next r hr =>
      split at hd
      · cases hd
      · next j hj =>
          simp only [Option.ite_none_right_eq_some, Option.some.injEq] at hd
          obtain ⟨hwf, rfl⟩ := hd
          have hop : r.1 = (Fields.unpack k w).op := by simpa using List.find?_some hr
          exact ⟨r, List.mem_of_find?_eq_some hr, hop.symm, hj, hwf⟩

/-- A word that decodes is the encoding of what it decodes to. -/
theorem encode_of_decodeSlot {k : SlotKind} {w : Nat} {lim : Option Nat} {i : Instr} (hw : w < 2 ^ k.width)
    (hd : decodeSlot k w lim = some i) : encode i = some (k, w, lim) := by
  obtain ⟨r, hr, hop, hi, -⟩ := exists_row_of_decodeSlot hd
  have he : i.enc = some (k, Fields.unpack k w, lim) := enc_of_mem_map hr (Fields.unpack_fits k w) hop i hi
  rw [encode, he, Option.map_some, Fields.pack_unpack hw]

end Sys2Proof

namespace Sys2Proof.Proofs

/-- Settles O53: a word is its fields, and every row of the opcode maps loses none of them. -/
theorem everyDecodableWordIsTheEncodingOfItsInstruction : Obligations.EveryDecodableWordIsTheEncodingOfItsInstruction := by
  intro k w lim i hw hd
  obtain ⟨-, -, -, -, hwf⟩ := exists_row_of_decodeSlot hd
  exact ⟨encode_of_decodeSlot hw hd, hwf⟩

end Sys2Proof.Proofs
end

section
/-! The words of the lanewise statements against the model's: elements, lanes and masks (spec 07 R183 to R187). -/

namespace Sys2Proof.Proofs

open Machine Claims

/-! ### Elements (R183, R186, R187) -/

theorem elemOf_lt (s : State) (ty : ETy) (r : VReg) (l : Nat) : elemOf s ty r l < 2 ^ ty.bits :=
  Nat.mod_lt _ (Nat.two_pow_pos _)

theorem testBit_top {n c : Nat} (hc : c < 2 ^ (n + 1)) : c.testBit n = decide (2 ^ n ≤ c) := by
  by_cases h : 2 ^ n ≤ c
  · rw [Nat.testBit_of_two_pow_le_and_two_pow_add_one_gt h hc, decide_eq_true h]
  · rw [Nat.testBit_lt_two_pow (Nat.lt_of_not_le h), decide_eq_false h]

/-- A signed element is its field read as two's complement. -/
theorem toInt_eq_signedField {ty : ETy} {c : Nat} (hs : ty.signed = true) (hc : c < 2 ^ ty.bits) :
    ty.toInt c = signedField c ty.bits := by
  obtain ⟨n, hn⟩ : ∃ n, ty.bits = n + 1 := by cases ty <;> exact ⟨_, rfl⟩
  rw [hn] at hc
  simp [ETy.toInt, signedField, hs, hn, testBit_top hc]

theorem toInt_eq_intOf {ty : ETy} {c : Nat} (hc : c < 2 ^ ty.bits) : ty.toInt c = intOf ty c := by
  unfold intOf
  split
  · next hs => rw [Nat.mod_eq_of_lt hc, toInt_eq_signedField hs hc]
  · next hs => simp [ETy.toInt, hs]

theorem lane_eq_laid (ty : ETy) (c : Nat) : ty.lane c = laid ty c := by
  unfold ETy.lane laid
  split
  · next hs => rw [toInt_eq_signedField hs (Nat.mod_lt _ (Nat.two_pow_pos _))]
  · rfl

/-- An arithmetic form on two elements, as the model computes it and as the statement says it. -/
theorem arith_eq_arithElem {ty : ETy} {mode : Mode} {fi : Int → Int → Int} {ff : XVal → XVal → XVal × Fl} {x y : Nat}
    (hx : x < 2 ^ ty.bits) (hy : y < 2 ^ ty.bits) :
    arith ty mode fi ff x y = arithElem ty mode (fi (intOf ty x) (intOf ty y)) (ff (realOf ty x) (realOf ty y)) := by
  rw [← toInt_eq_intOf hx, ← toInt_eq_intOf hy]
  unfold arith arithElem realOf
  cases ty.ffmt <;> rfl

theorem elemAdd_eq_arithElem {ty : ETy} {mode : Mode} {x y : Nat} (hx : x < 2 ^ ty.bits) (hy : y < 2 ^ ty.bits) :
    elemAdd ty mode x y = arithElem ty mode (intOf ty x + intOf ty y) (XVal.add mode (realOf ty x) (realOf ty y)) :=
  arith_eq_arithElem hx hy

theorem elemSub_eq_arithElem {ty : ETy} {mode : Mode} {x y : Nat} (hx : x < 2 ^ ty.bits) (hy : y < 2 ^ ty.bits) :
    elemSub ty mode x y = arithElem ty mode (intOf ty x - intOf ty y) (XVal.add mode (realOf ty x) (realOf ty y).neg) :=
  arith_eq_arithElem hx hy

theorem elemMul_eq_arithElem {ty : ETy} {mode : Mode} {x y : Nat} (hx : x < 2 ^ ty.bits) (hy : y < 2 ^ ty.bits) :
    elemMul ty mode x y = arithElem ty mode (intOf ty x * intOf ty y) ((realOf ty x).mul (realOf ty y)) :=
  arith_eq_arithElem hx hy

theorem elemFma_eq_arithElem {ty : ETy} {mode : Mode} {x y z : Nat} (hx : x < 2 ^ ty.bits) (hy : y < 2 ^ ty.bits)
    (hz : z < 2 ^ ty.bits) : elemFma ty mode x y z =
      arithElem ty mode (intOf ty z + intOf ty x * intOf ty y) (XVal.fma mode (realOf ty z) (realOf ty x) (realOf ty y)) := by
  rw [← toInt_eq_intOf hx, ← toInt_eq_intOf hy, ← toInt_eq_intOf hz]
  unfold elemFma arithElem realOf
  cases ty.ffmt <;> rfl

/-! ### Lanes written (R185) -/

theorem mergeLanes_eq_ofFn (n : Nat) (m : LaneMask) (old : Lanes) (f : Nat → Word32) :
    State.mergeLanes n m old f = Vector.ofFn (fun l : Fin 512 => if l.val < n ∧ m.getLsbD l.val = true then f l.val else old[l]) := by
  ext l hl
  rw [State.mergeLanes_getElem n m old f l hl, Vector.getElem_ofFn]
  rfl

theorem wrV_eq (s : State) (d : VReg) (m : LaneMask) (f : Nat → Word32) :
    s.wrV d m f = s.modMe (fun u => withV u s.lanes d m f) := by
  simp only [State.wrV, withV, mergeLanes_eq_ofFn]

/-- Only the words of the active lanes are written. -/
theorem withV_congr {n : Nat} {m : LaneMask} {f g : Nat → Word32} (h : ∀ l, l < n → m.getLsbD l = true → f l = g l) (u : Strand)
    (d : VReg) : withV u n d m f = withV u n d m g := by
  have hfg : (fun l : Fin 512 => if l.val < n ∧ m.getLsbD l.val = true then f l.val else u.eng.v[d.val][l]) =
      fun l : Fin 512 => if l.val < n ∧ m.getLsbD l.val = true then g l.val else u.eng.v[d.val][l] :=
    funext fun l => ite_congr rfl (fun hl => h l hl.1 hl.2) fun _ => rfl
  simp only [withV, hfg]

/-- The strand after a lanewise form: its active lanes written, and the flags of the active lanes reported (R185, R186). -/
def laneWritten (s : State) (d : VReg) (m : QReg) (f : Nat → Word32 × Fl) : Strand :=
  withFlags (withV s.me s.lanes d (s.rdQ m) (fun l => (f l).1)) (activeFlags s.lanes (s.rdQ m) f)

theorem activeFlags_congr {n : Nat} {m : LaneMask} {f g : Nat → Word32 × Fl} (h : ∀ l < 512, f l = g l) :
    activeFlags n m f = activeFlags n m g := by
  have hfg : (fun (a : Fl) l => if m.getLsbD l then a ||| (f l).2 else a) = fun a l => if m.getLsbD l then a ||| (g l).2 else a :=
    funext fun a => funext fun l => ite_congr rfl (fun hm => by rw [h l (BitVec.lt_of_getLsbD hm)]) fun _ => rfl
  simp only [activeFlags, hfg]

/-- A lanewise form changes the acting strand alone: its active lanes, and its flags. -/
theorem lanewise_onlyMe {s : State} {d : VReg} {m : QReg} {f g : Nat → Word32 × Fl} (h : ∀ l < 512, f l = g l) :
    OnlyMe s (State.lanewise d m f s) (laneWritten s d m g) := by
  let rs := (List.range s.lanes).map (fun l => if (s.rdQ m).getLsbD l then f l else (0, 0))
  have hflags : rs.foldl (fun a r => a ||| r.2) 0 = activeFlags s.lanes (s.rdQ m) g := by
    rw [← activeFlags_congr h, activeFlags, List.foldl_map]
    congr 1
    funext a l
    split
    · rfl
    · exact BitVec.or_zero
  have hlanes (u : Strand) : withV u s.lanes d (s.rdQ m) (fun l => (rs.getD l (0, 0)).1) =
      withV u s.lanes d (s.rdQ m) (fun l => (g l).1) :=
    withV_congr (fun l hl hm => by simp [rs, hl, hm, h l (BitVec.lt_of_getLsbD hm)]) u d
  have he : State.lanewise d m f s = s.modMe (fun u => withFlags (withV u s.lanes d (s.rdQ m) (fun l => (g l).1))
      (activeFlags s.lanes (s.rdQ m) g)) := by
    simp only [State.lanewise, wrV_eq, ← hlanes, ← hflags, State.addFlags, State.modMe_modMe, withFlags, rs]
  rw [he]
  exact onlyMe_modMe s _

/-! ### The shapes of the lanewise forms -/

variable {s : State} {ty : ETy} {d a b c : VReg} {m : QReg} {F : Nat → Word32 × Fl}

theorem lane_pair_eq_laidF (ty : ETy) (r : Nat × Fl) : (ty.lane r.1, r.2) = laidF ty r := by rw [lane_eq_laid]; rfl

theorem v1_onlyMe {f : Nat → Nat × Fl} (h : ∀ l, laidF ty (f (elemOf s ty a l)) = F l) :
    OnlyMe s (State.v1 ty f d a m s) (laneWritten s d m F) :=
  lanewise_onlyMe fun l _ => (lane_pair_eq_laidF ty _).trans (h l)

theorem v2_onlyMe {f : Nat → Nat → Nat × Fl} (h : ∀ l, laidF ty (f (elemOf s ty a l) (elemOf s ty b l)) = F l) :
    OnlyMe s (State.v2 ty f d a b m s) (laneWritten s d m F) :=
  lanewise_onlyMe fun l _ => (lane_pair_eq_laidF ty _).trans (h l)

theorem v3_onlyMe {f : Nat → Nat → Nat → Nat × Fl}
    (h : ∀ l, laidF ty (f (elemOf s ty a l) (elemOf s ty b l) (elemOf s ty c l)) = F l) :
    OnlyMe s (State.v3 ty f d a b c m s) (laneWritten s d m F) :=
  lanewise_onlyMe fun l _ => (lane_pair_eq_laidF ty _).trans (h l)

/-- A shift writes what its function gives for each lane and its count (R191). -/
theorem vshift_onlyMe {f : Word32 → Nat → Word32} {t : VCount} (h : ∀ l, (f (wordOf s a l) (countOf s t l), 0) = F l) :
    OnlyMe s (State.vshift f d a t m s) (laneWritten s d m F) := by
  refine lanewise_onlyMe fun l hl => .trans ?_ (h l)
  cases t with
  | reg t => simp [countOf, wordOf, hl]
  | imm u =>
      have hu : (List.replicate 512 u.toNat).getD l 0 = u.toNat := by
        rw [List.getD_eq_getElem _ _ (by rwa [List.length_replicate]), List.getElem_replicate]
      simp only [hu]
      rfl

/-- A form that reports no flags only writes its active lanes. -/
theorem wrV_onlyMe {f : Nat → Word32} : OnlyMe s (s.wrV d (s.rdQ m) f) (laneWritten s d m fun l => (f l, 0)) := by
  have hf : activeFlags s.lanes (s.rdQ m) (fun l => (f l, 0)) = 0 := by
    simp [activeFlags]
  have hw : laneWritten s d m (fun l => (f l, 0)) = withV s.me s.lanes d (s.rdQ m) f := by
    rw [laneWritten, hf]
    simp [withFlags, withV]
  rw [hw, wrV_eq]
  exact onlyMe_modMe s _

/-! ### Words (R191, R193) -/

theorem shiftLeft_eq_ofNat (w : Word32) (n : Nat) : w <<< n = BitVec.ofNat 32 (w.toNat * 2 ^ n) := by
  apply BitVec.eq_of_toNat_eq
  simp [Nat.shiftLeft_eq]

theorem ushiftRight_eq_ofNat (w : Word32) (n : Nat) : w >>> n = BitVec.ofNat 32 (w.toNat / 2 ^ n) := by
  apply BitVec.eq_of_toNat_eq
  rw [BitVec.toNat_ushiftRight, Nat.shiftRight_eq_div_pow, BitVec.toNat_ofNat,
    Nat.mod_eq_of_lt (Nat.lt_of_le_of_lt (Nat.div_le_self ..) w.isLt)]

theorem sshiftRight_eq_ofInt (w : Word32) (n : Nat) : w.sshiftRight n = BitVec.ofInt 32 (w.toInt / 2 ^ n) := by
  simp [BitVec.sshiftRight, Int.shiftRight_eq_div_pow]

theorem setWidth_eq_ofNat (w : XWord) : w.setWidth 32 = BitVec.ofNat 32 w.toNat := by
  apply BitVec.eq_of_toNat_eq
  simp

end Sys2Proof.Proofs
end

section
/-! The lanewise forms of slot V (spec 07 R183 to R194, R198, R199, R201). -/

namespace Sys2Proof.Proofs

open Machine Claims

variable {s : State} {d : VReg} {m : QReg} {F : Nat → Word32 × Fl}

/-- A lanewise form that performs writes its active lanes and reports their flags, and changes nothing else (R185, R186). -/
theorem exec_laneResult {i : Instr} {g : Guard} (hg : i.guard? = some g) (h : laneResult s i = some (d, m, F)) (hp : performs i g s) :
    ∃ t, exec i s = .next t ∧ OnlyMe s t (laneWritten s d m F) := by
  cases i
  case vadd g' d a b m ty rm =>
    cases hg
    cases h
    exact ⟨_, slotOp_performs (fun s => State.v2 ty (elemAdd ty (s.modeOf rm)) d a b m s) hp rfl,
      v2_onlyMe fun _ => congrArg (laidF ty) (elemAdd_eq_arithElem (elemOf_lt ..) (elemOf_lt ..))⟩
  case vsub g' d a b m ty rm =>
    cases hg
    cases h
    exact ⟨_, slotOp_performs (fun s => State.v2 ty (elemSub ty (s.modeOf rm)) d a b m s) hp rfl,
      v2_onlyMe fun _ => congrArg (laidF ty) (elemSub_eq_arithElem (elemOf_lt ..) (elemOf_lt ..))⟩
  case vmul g' d a b m ty rm =>
    cases hg
    cases h
    exact ⟨_, slotOp_performs (fun s => State.v2 ty (elemMul ty (s.modeOf rm)) d a b m s) hp rfl,
      v2_onlyMe fun _ => congrArg (laidF ty) (elemMul_eq_arithElem (elemOf_lt ..) (elemOf_lt ..))⟩
  case vfma g' d a b u m ty rm =>
    cases hg
    cases h
    exact ⟨_, slotOp_performs (fun s => State.v3 ty (elemFma ty (s.modeOf rm)) d a b u m s) hp rfl,
      v3_onlyMe fun _ => congrArg (laidF ty) (elemFma_eq_arithElem (elemOf_lt ..) (elemOf_lt ..) (elemOf_lt ..))⟩
  case vmin g' d a b m ty =>
    cases hg
    cases h
    exact ⟨_, slotOp_performs (State.v2 ty (fun x y => (elemMin ty x y, 0)) d a b m) hp rfl, v2_onlyMe fun _ => rfl⟩
  case vmax g' d a b m ty =>
    cases hg
    cases h
    exact ⟨_, slotOp_performs (State.v2 ty (fun x y => (elemMax ty x y, 0)) d a b m) hp rfl, v2_onlyMe fun _ => rfl⟩
  case vabs g' d a m ty =>
    cases hg
    cases h
    exact ⟨_, slotOp_performs (State.v1 ty (fun x => (elemAbs ty x, 0)) d a m) hp rfl, v1_onlyMe fun _ => rfl⟩
  case vneg g' d a m ty =>
    cases hg
    cases h
    exact ⟨_, slotOp_performs (State.v1 ty (fun x => (elemNeg ty x, 0)) d a m) hp rfl, v1_onlyMe fun _ => rfl⟩
  case vclamp g' d a b u m ty =>
    cases hg
    cases h
    exact ⟨_, slotOp_performs (State.v3 ty (fun x y z => (elemMin ty (elemMax ty x y) z, 0)) d a b u m) hp rfl, v3_onlyMe fun _ => rfl⟩
  case vrcp g' d a m =>
    cases hg
    cases h
    exact ⟨_, slotOp_performs (State.w1 rcpLane d a m) hp rfl, lanewise_onlyMe fun _ _ => rfl⟩
  case vrsq g' d a m =>
    cases hg
    cases h
    exact ⟨_, slotOp_performs (State.w1 rsqLane d a m) hp rfl, lanewise_onlyMe fun _ _ => rfl⟩
  case vexp2 g' d a m =>
    cases hg
    cases h
    exact ⟨_, slotOp_performs (State.w1 exp2Lane d a m) hp rfl, lanewise_onlyMe fun _ _ => rfl⟩
  case vlog2 g' d a m =>
    cases hg
    cases h
    exact ⟨_, slotOp_performs (State.w1 log2Lane d a m) hp rfl, lanewise_onlyMe fun _ _ => rfl⟩
  case vand g' d a b m =>
    cases hg
    cases h
    exact ⟨_, slotOp_performs (State.w2 (· &&& ·) d a b m) hp rfl, lanewise_onlyMe fun _ _ => rfl⟩
  case vor g' d a b m =>
    cases hg
    cases h
    exact ⟨_, slotOp_performs (State.w2 (· ||| ·) d a b m) hp rfl, lanewise_onlyMe fun _ _ => rfl⟩
  case vxor g' d a b m =>
    cases hg
    cases h
    exact ⟨_, slotOp_performs (State.w2 (· ^^^ ·) d a b m) hp rfl, lanewise_onlyMe fun _ _ => rfl⟩
  case vshl g' d a t m =>
    cases hg
    cases h
    exact ⟨_, slotOp_performs (State.vshift (fun w c => w <<< c) d a t m) hp rfl,
      vshift_onlyMe fun _ => congrArg (·, 0) (shiftLeft_eq_ofNat ..)⟩
  case vshr g' d a t m =>
    cases hg
    cases h
    exact ⟨_, slotOp_performs (State.vshift (fun w c => w >>> c) d a t m) hp rfl,
      vshift_onlyMe fun _ => congrArg (·, 0) (ushiftRight_eq_ofNat ..)⟩
  case vshra g' d a t m =>
    cases hg
    cases h
    exact ⟨_, slotOp_performs (State.vshift (fun w c => w.sshiftRight c) d a t m) hp rfl,
      vshift_onlyMe fun _ => congrArg (·, 0) (sshiftRight_eq_ofInt ..)⟩
  case vsel g' d a b u m =>
    cases hg
    cases h
    exact ⟨_, slotOp_performs (State.vsel d a b u m) hp rfl, lanewise_onlyMe fun _ _ => rfl⟩
  case vmov g' d a m =>
    cases hg
    cases h
    exact ⟨_, slotOp_performs (State.w1 (fun w => (w, 0)) d a m) hp rfl, lanewise_onlyMe fun _ _ => rfl⟩
  case vbcast g' d a m =>
    cases hg
    cases a with
    | reg x =>
        cases h
        exact ⟨_, slotOp_performs (State.vbcast d (.reg x) m) hp rfl, lanewise_onlyMe fun _ _ => congrArg (·, 0) (setWidth_eq_ofNat _)⟩
    | imm u =>
        cases h
        exact ⟨_, slotOp_performs (State.vbcast d (.imm u) m) hp rfl, lanewise_onlyMe fun _ _ => rfl⟩
    | long w =>
        cases h
        exact ⟨_, slotOp_performs (State.vbcast d (.long w) m) hp rfl, lanewise_onlyMe fun _ _ => rfl⟩
  case vperm g' d a b m =>
    cases hg
    cases h
    exact ⟨_, slotOp_performs (State.vperm d a b m) hp rfl, lanewise_onlyMe fun _ _ => rfl⟩
  case vslide g' d a t m =>
    cases hg
    cases h
    exact ⟨_, slotOp_performs (State.vslide false d a t m) hp rfl, lanewise_onlyMe fun _ _ => rfl⟩
  case vslideDn g' d a t m =>
    cases hg
    cases h
    exact ⟨_, slotOp_performs (State.vslide true d a t m) hp rfl, lanewise_onlyMe fun _ _ => rfl⟩
  case viota g' d m =>
    cases hg
    cases h
    exact ⟨_, slotOp_performs (fun s => s.wrV d (s.rdQ m) (fun l => BitVec.ofNat 32 l)) hp rfl, wrV_onlyMe⟩
  case vcvt g' d a m src dst rm nsat =>
    cases hg
    cases h
    exact ⟨_, slotOp_performs (fun s => State.w1 (fun w =>
        let r := cvtElem src dst (s.modeOf rm) nsat (src.elem w); (dst.lane r.1, r.2)) d a m s) hp rfl,
      lanewise_onlyMe fun _ _ => lane_pair_eq_laidF dst _⟩
  case vdqmx g' d a t m ty rm =>
    cases hg
    cases h
    exact ⟨_, slotOp_performs (State.vdqmx d a t m ty rm) hp rfl, lanewise_onlyMe fun _ _ => rfl⟩
  all_goals cases h

end Sys2Proof.Proofs
end

section
/-! The forms of one destination: votes, single lanes and the candidate file (spec 07 R197, R198; 08 R229 to R232). -/

namespace Sys2Proof.Proofs

open Machine Claims

variable {s : State}

/-- A queued guard that waited for a predicate takes its value (R119). -/
theorem takeGuards_eq_map (d : PReg) (v : Bool) (ops : List QOp) : State.takeGuards d.val v ops = ops.map (guardTaken d v) := by
  refine List.map_congr_left fun o _ => ?_
  unfold guardTaken
  cases o.guard <;> cases o.instr.guard? <;> simp only [Fin.ext_iff]

theorem wrP_onlyMe (s : State) (d : PReg) (v : Bool) : OnlyMe s (s.wrP d v) (withP s.me d v) := by
  unfold State.wrP withP
  split
  · exact ⟨rfl, fun _ _ => rfl, rfl, fun _ => rfl⟩
  · simp only [← takeGuards_eq_map]
    exact onlyMe_modMe s _

theorem low_toNat {n : Nat} (w : BitVec n) : low w.toNat = w.setWidth 64 := by
  apply BitVec.eq_of_toNat_eq
  simp [low]

theorem low_natCast (n : Nat) : low n = BitVec.ofNat 64 n := by
  apply BitVec.eq_of_toNat_eq
  simp [low]

theorem votes_eq_filter (s : State) (a m : QReg) : s.votes a m = (List.range s.lanes).filter (voted s a m) := rfl

theorem votes_headD (s : State) (a m : QReg) (n : Nat) :
    (s.votes a m).headD n = ((List.range s.lanes).find? (voted s a m)).getD n := by
  rw [votes_eq_filter, List.headD_eq_head?_getD, List.head?_filter]

theorem votes_length (s : State) (a m : QReg) : (s.votes a m).length = (List.range s.lanes).countP (voted s a m) := by
  rw [votes_eq_filter, List.countP_eq_length_filter]

theorem votes_isEmpty (s : State) (a m : QReg) : (!(s.votes a m).isEmpty) = (List.range s.lanes).any (voted s a m) := by
  rw [votes_eq_filter, Bool.eq_iff_iff]
  simp

/-- The limit field of CDRAW (R232). -/
theorem extractLsb_eq_field (w : XWord) : (w.extractLsb' 32 7).toNat = field w 32 7 := by
  simp [field, Nat.shiftRight_eq_div_pow]

/-- A write to an x register, under another name of its value. -/
theorem wrX_onlyMe_of_eq {d : XReg} {v w : XWord} (h : v = w) : OnlyMe s (s.wrX d v) (withX s.me d w) := h ▸ wrX_onlyMe s d v

/-- How many entries CDRAW draws from (R232). -/
def drawnFrom (s : State) (a : XReg) : Nat :=
  min s.eng.qcnt (if field (s.rdX a) 32 7 = 0 ∨ 64 < field (s.rdX a) 32 7 then 64 else field (s.rdX a) 32 7)

theorem kValid_take_drawnFrom (s : State) (a : XReg) : s.kValid.take (drawnFrom s a) = s.eng.k.toList.take (drawnFrom s a) := by
  rw [State.kValid, List.take_take, Nat.min_eq_left (show drawnFrom s a ≤ s.eng.qcnt from Nat.min_le_left ..)]

theorem idx_getD (e : Option KEnt) : (e.map (fun e => e.idx.toNat)).getD 0 = match e with | some e => e.idx.toNat | none => 0 := by
  cases e <;> rfl

theorem cdraw_onlyMe {d a : XReg} {u : Strand} {g : Guard} (h : voteResult s (.cdraw g d a) = some u) :
    OnlyMe s (State.cdraw d a s) u := by
  cases h
  have he : State.cdraw d a s = s.wrX d (if drawnFrom s a = 0 then 0x40FFFFFFFF else
      let es := s.kValid.take (drawnFrom s a)
      let j := drawAt (es.map (fun e => weightOf e.val)) ((s.rdX a).setWidth 32)
      BitVec.ofNat 64 (j * 2 ^ 32 + ((es[j]?).map (fun e => e.idx.toNat)).getD 0)) := by
    rw [apply_ite (s.wrX d), State.cdraw, extractLsb_eq_field]
    rfl
  rw [he]
  refine wrX_onlyMe_of_eq (ite_congr rfl (fun _ => rfl) fun _ => ?_)
  dsimp only
  rw [kValid_take_drawnFrom, setWidth_eq_ofNat, low_natCast]
  exact congrArg (BitVec.ofNat 64) (congrArg (_ + ·) (idx_getD _))

/-- Such a form that performs writes its destination, and changes nothing else. -/
theorem exec_voteResult {i : Instr} {g : Guard} {u : Strand} (hg : i.guard? = some g) (h : voteResult s i = some u)
    (hp : performs i g s) : ∃ t, exec i s = .next t ∧ OnlyMe s t u := by
  cases i
  case vany g' d a m =>
    cases hg
    cases h
    refine ⟨_, slotOp_performs (State.vany d a m) hp rfl, ?_⟩
    rw [← votes_isEmpty]
    exact wrP_onlyMe s d _
  case vall g' d a m =>
    cases hg
    cases h
    exact ⟨_, slotOp_performs (State.vall d a m) hp rfl, wrP_onlyMe s d _⟩
  case vfirst g' d a m =>
    cases hg
    cases h
    exact ⟨_, slotOp_performs (State.vfirst d a m) hp rfl, wrX_onlyMe_of_eq (by rw [low_natCast, votes_headD])⟩
  case vpopc g' d a m =>
    cases hg
    cases h
    exact ⟨_, slotOp_performs (State.vpopc d a m) hp rfl, wrX_onlyMe_of_eq (by rw [low_natCast, votes_length])⟩
  case vextr g' d a t =>
    cases hg
    cases h
    exact ⟨_, slotOp_performs (State.vextr d a t) hp rfl, wrX_onlyMe_of_eq (ite_congr rfl (fun _ => (low_toNat _).symm) fun _ => rfl)⟩
  case vins g' d a t =>
    cases hg
    cases h
    refine ⟨_, slotOp_performs (State.vins d a t) hp rfl, ?_⟩
    rw [State.vins, setWidth_eq_ofNat]
    split
    · rw [wrV_eq]
      exact onlyMe_modMe s _
    · exact ⟨rfl, fun _ _ => rfl, rfl, fun _ => rfl⟩
  case cget g' idx d k =>
    cases hg
    cases h
    exact ⟨_, slotOp_performs (State.cget idx d k) hp rfl, wrX_onlyMe_of_eq (by cases idx <;> exact (low_toNat _).symm)⟩
  case cclr g' =>
    cases hg
    cases h
    exact ⟨_, slotOp_performs State.cclr hp rfl, onlyMe_modMe s fun t => { t with eng := { t.eng with k := _, qcnt := 0 } }⟩
  case ctopp g' d a =>
    cases hg
    cases h
    exact ⟨_, slotOp_performs (State.ctopp d a) hp rfl, wrX_onlyMe_of_eq (by rw [low_natCast, setWidth_eq_ofNat]; rfl)⟩
  case cdraw g' d a =>
    cases hg
    exact ⟨_, slotOp_performs (State.cdraw d a) hp rfl, cdraw_onlyMe h⟩
  all_goals cases h

end Sys2Proof.Proofs
end

section
/-! ENGINE_OP_COMPLETE of a lane operation (spec 04 R115 to R118): O39. -/

namespace Sys2Proof.Machine

/-- A form of slot V or X touches no memory and no tile (R209, R262). -/
theorem lane_touches {i : Instr} (hk : i.kind = some .v ∨ i.kind = some .x) : i.tile? = none ∧ ∀ z, extents z i = [] := by
  cases i
  all_goals rcases hk with h | h <;> cases h
  all_goals exact ⟨rfl, fun _ => rfl⟩

theorem encode_isSome_of_kind {i : Instr} {k : SlotKind} (h : i.kind = some k) : (encode i).isSome = true := by
  obtain ⟨e, he, -⟩ := Option.map_eq_some_iff.mp h
  simp [encode, he]

namespace State

variable {s : State} {k : Nat} {o : QOp}

/-- An operation that touches no memory and no tile has nothing whose writing is held (R262). -/
theorem writesHeld_untouched (ht : o.instr.tile? = none) (hx : ∀ z, extents z o.instr = []) : s.writesHeld k (s.actOf k o) = false := by
  have hw : writes (s.actOf k o) = false := by simp [writes, actOf, ht, hx]
  rw [writesHeld, hw, Bool.false_and]

theorem me_forOp (s : State) (k : Nat) (o : QOp) : (s.forOp k o).me = s.strand k := by
  rw [me, meKey_forOp]
  rfl

end State
end Sys2Proof.Machine

namespace Sys2Proof.Proofs

open Machine Claims

/-- The forms that `laneResult` and `voteResult` speak of are forms of slots V and X, and have a guard. -/
theorem kind_of_laneResult {s : State} {i : Instr} {r : VReg × QReg × (Nat → Word32 × Fl)} (h : laneResult s i = some r) :
    i.kind = some .v ∧ ∃ g, i.guard? = some g := by
  cases i
  case vadd | vsub | vmul | vfma | vmin | vmax | vabs | vneg | vclamp | vrcp | vrsq | vexp2 | vlog2 | vand | vor | vxor | vshl | vshr |
      vshra | vsel | vmov | vbcast | vperm | vslide | vslideDn | viota | vcvt | vdqmx => exact ⟨rfl, _, rfl⟩
  all_goals cases h

theorem kind_of_voteResult {s : State} {i : Instr} {u : Strand} (h : voteResult s i = some u) :
    (i.kind = some .v ∨ i.kind = some .x) ∧ ∃ g, i.guard? = some g := by
  cases i
  case vany | vall | vfirst | vpopc | vextr | vins => exact ⟨.inl rfl, _, rfl⟩
  case cget | cclr | ctopp | cdraw => exact ⟨.inr rfl, _, rfl⟩
  all_goals cases h

/-- Strands with the same withheld landing writes and the same queued operations, by number. -/
def SameQueue (t u : Strand) : Prop := u.vland = t.vland ∧ u.ops.map (·.num) = t.ops.map (·.num)

theorem sameQueue_withX (u : Strand) (d : XReg) (v : XWord) : SameQueue u (withX u d v) := by
  unfold withX
  split <;> exact ⟨rfl, rfl⟩

theorem guardTaken_num (d : PReg) (v : Bool) (o : QOp) : (guardTaken d v o).num = o.num := by
  unfold guardTaken
  split
  · split <;> rfl
  · rfl

theorem sameQueue_withP (u : Strand) (d : PReg) (v : Bool) : SameQueue u (withP u d v) := by
  unfold withP
  split
  · exact ⟨rfl, rfl⟩
  · refine ⟨rfl, ?_⟩
    dsimp only
    split
    · simp [guardTaken_num]
    · rfl

theorem sameQueue_voteResult {s : State} {i : Instr} {u : Strand} (h : voteResult s i = some u) : SameQueue s.me u := by
  cases i
  case vany | vall =>
    cases h
    exact sameQueue_withP ..
  case vfirst | vpopc | vextr | cget | ctopp | cdraw =>
    cases h
    exact sameQueue_withX ..
  case vins =>
    cases h
    split <;> exact ⟨rfl, rfl⟩
  case cclr =>
    cases h
    exact ⟨rfl, rfl⟩
  all_goals cases h

/-- An engine completes the one operation of a strand, a form of slot V or X that changes its strand alone (R118, R135). -/
theorem engineOpComplete_onlyMe {c : Fin 128} {n : Fin 4} {e : Engine} {s m : State} {o : QOp} {w : Strand}
    (hops : (s.strand (strandKey c.val n.val)).ops = [o]) (hv : (s.strand (strandKey c.val n.val)).vland = []) (he : o.eng = e)
    (hst : o.stage = .started) (hl : laneEngine e) (hm : s.mmas = []) (hk : o.instr.kind = some .v ∨ o.instr.kind = some .x)
    (hex : exec o.instr (s.forOp (strandKey c.val n.val) o) = .next m) (hme : OnlyMe (s.forOp (strandKey c.val n.val) o) m w)
    (hq : SameQueue (s.strand (strandKey c.val n.val)) w) :
    ∃ t, exec (.engineOpComplete c n e) s = .next t ∧ OnlyStrand s.idle t (strandKey c.val n.val) { w with ops := [] } := by
  let k := strandKey c.val n.val
  obtain ⟨ht, hx⟩ := lane_touches hk
  have henc : (encode o.instr).isSome = true := hk.elim encode_isSome_of_kind encode_isSome_of_kind
  have hkey : (s.forOp k o).meKey = k := State.meKey_forOp
  have hctx : m.ctx = (s.forOp k o).ctx := by
    have h := congrArg State.ctx hme.rest
    exact h
  have hmkey : m.meKey = k := by rw [State.meKey, hctx]; exact hkey
  have hmine : m.strand k = w := by rw [← hme.mine, State.me, hmkey]
  have hops' : (m.strand k).ops.filter (fun q => q.num != o.num) = [] := by
    refine List.filter_eq_nil_iff.mpr fun q hq' => ?_
    have : q.num ∈ [o.num] := by
      rw [← List.map_singleton (f := QOp.num), ← hops, ← hq.2, ← hmine]
      exact List.mem_map_of_mem hq'
    simpa using this
  have hdone : s.completeOp k e = (m.leaveQueue k o).idle :=
    State.completeOp_alone hops hv he hst hm (State.twoPhase_of_lane he hl) (State.writesHeld_untouched ht hx) (perform_eq henc hex)
      (by rw [hctx]; rfl) ht
  have hv' : (m.strand k).vland = [] := by rw [hmine, hq.1, hv]
  refine ⟨_, congrArg Host.Outcome.next hdone, ?_⟩
  rw [State.leaveQueue_alone hv', hops', hmine]
  exact {
    mine := (m.strand_setStrand k k _).trans (if_pos rfl)
    others := fun j hj => ((m.strand_setStrand k j _).trans (if_neg hj)).trans (hme.others j (hkey.symm ▸ hj))
    rest := congrArg State.idle hme.rest }

/-- Settles O39: a begun operation is a form that performs for its strand, and then leaves its queue. -/
theorem aBegunOperationWritesItsResult : Obligations.ABegunOperationWritesItsResult := by
  intro c n e s o k u z hops he hst hl hv hm _ _
  have hp (g : Guard) : performs o.instr g z := .inl rfl
  have hu : z.me = u := s.me_forOp k o
  refine ⟨fun d m f h => ?_, fun w h => ?_⟩
  · obtain ⟨hk, g, hg⟩ := kind_of_laneResult h
    obtain ⟨t, hex, hme⟩ := exec_laneResult hg h (hp g)
    rw [laneWritten, hu] at hme
    exact engineOpComplete_onlyMe hops hv he hst hl hm (.inl hk) hex hme ⟨rfl, rfl⟩
  · obtain ⟨hk, g, hg⟩ := kind_of_voteResult h
    obtain ⟨t, hex, hme⟩ := exec_voteResult hg h (hp g)
    exact engineOpComplete_onlyMe hops hv he hst hl hm hk hex hme (hu ▸ sameQueue_voteResult h : SameQueue u w)

end Sys2Proof.Proofs
end

section
/-! Changes of the acting strand one after another (spec 04 R135; 07 R185). -/

namespace Sys2Proof.Claims.OnlyMe

open Machine

variable {s t : State} {u : Strand}

theorem refl (s : State) : OnlyMe s s s.me := ⟨rfl, fun _ _ => rfl, rfl, fun _ => rfl⟩

/-- What is left but the strands is the state's own. -/
theorem meKey_eq (h : OnlyMe s t u) : t.meKey = s.meKey := (congrArg State.meKey h.rest :)
theorem lanes_eq (h : OnlyMe s t u) : t.lanes = s.lanes := (congrArg State.lanes h.rest :)

/-- A further change of the acting strand. -/
theorem modMe (h : OnlyMe s t u) (f : Strand → Strand) : OnlyMe s (t.modMe f) (f u) where
  mine := by rw [State.me_modMe, h.mine]
  others k hk := by rw [State.strand_modMe, h.meKey_eq, if_neg hk, h.others k hk]
  rest := h.rest
  bytes := h.bytes

/-- Flags reported after the change (R8, R135). -/
theorem addFlags (h : OnlyMe s t u) (f : Fl) : OnlyMe s (t.addFlags f) (withFlags u f) := h.modMe (withFlags · f)

/-- A register of lanes written after the change (R185). -/
theorem wrV (h : OnlyMe s t u) (d : VReg) (m : LaneMask) (f : Nat → Word32) : OnlyMe s (t.wrV d m f) (withV u s.lanes d m f) := by
  rw [Proofs.wrV_eq, h.lanes_eq]
  exact h.modMe _

end Sys2Proof.Claims.OnlyMe
end

section
/-! The floating forms and conversions of slot S (spec 06 R168 to R170; 05 R129, R135): O3. -/

namespace Sys2Proof.Proofs

open Machine Claims

variable {s : State} {i : Instr} {g : Guard}

theorem field_low_half (w : XWord) : field w 0 32 = w.toNat % 2 ^ 32 := by simp [field]

/-- The fp32 operand in the low half of an x register (R168). -/
theorem rdF_eq_fval (s : State) (r : XReg) : s.rdF r = fval s r := by
  rw [State.rdF, f32, fval, field_low_half, BitVec.toNat_setWidth]

/-- An exact result is rounded once by FMODE into xD, and its flags and those of its rounding are reported (R129, R169). -/
theorem wrF_onlyMe (s : State) (d : XReg) (r : XVal × Fl) :
    OnlyMe s (State.wrF d r s) (withFlags (withX s.me d (low (fp32.round (fmode s) r.1).1)) (r.2 ||| (fp32.round (fmode s) r.1).2)) :=
  (wrX_onlyMe_of_eq (low_natCast _).symm).addFlags _

/-- The arithmetic forms and the conversions to fp32 write their exact result so (R169, R170). -/
theorem exec_floatExact {e : XReg × XVal × Fl} (hg : i.guard? = some g) (h : floatExact s i = some e) (hp : performs i g s) :
    exec i s = .next (State.wrF e.1 e.2 s) := by
  cases i
  case fadd g' d a b =>
    cases hg
    cases h
    rw [← rdF_eq_fval, ← rdF_eq_fval]
    exact slotOp_performs (fun s => State.wrF d (XVal.add s.fmodeOf (s.rdF a) (s.rdF b)) s) hp rfl
  case fsub g' d a b =>
    cases hg
    cases h
    rw [← rdF_eq_fval, ← rdF_eq_fval]
    exact slotOp_performs (fun s => State.wrF d (XVal.add s.fmodeOf (s.rdF a) (s.rdF b).neg) s) hp rfl
  case fmul g' d a b =>
    cases hg
    cases h
    rw [← rdF_eq_fval, ← rdF_eq_fval]
    exact slotOp_performs (fun s => State.wrF d ((s.rdF a).mul (s.rdF b)) s) hp rfl
  case ffma g' d a b =>
    cases hg
    cases h
    rw [← rdF_eq_fval, ← rdF_eq_fval, ← rdF_eq_fval]
    exact slotOp_performs (fun s => State.wrF d (XVal.fma s.fmodeOf (s.rdF d) (s.rdF a) (s.rdF b)) s) hp rfl
  case cvtf g' d a =>
    cases hg
    cases h
    exact slotOp_performs (fun s => State.wrF d (XVal.ofInt (s.rdX a).toInt, 0) s) hp rfl
  case cvtfN g' d a =>
    cases hg
    cases h
    exact slotOp_performs (fun s => State.wrF d (XVal.ofInt ((s.rdX a).toNat : Int), 0) s) hp rfl
  all_goals cases h

/-- FMIN and FMAX give one of the two low halves and report nothing (R134, R169). -/
theorem minMax_onlyMe (s : State) (f : Nat → Nat → Nat) (d a b : XReg) :
    OnlyMe s (State.xop (fun x y => BitVec.ofNat 64 (f (x.toNat % 2 ^ 32) (y.toNat % 2 ^ 32))) d a b s)
      (withFlags (withX s.me d (low (f (field (s.rdX a) 0 32) (field (s.rdX b) 0 32)))) 0) := by
  have hz (u : Strand) : withFlags u 0 = u := by simp [withFlags]
  rw [hz, field_low_half, field_low_half]
  exact wrX_onlyMe_of_eq (low_natCast _).symm

/-- A floating operand converted to an integer range, the integer into xD and its flags reported (R170). -/
def intoX (lo hi : Int) (d a : XReg) (s : State) : State :=
  let r := (s.rdF a).toInt s.fmodeOf lo hi
  (s.wrX d (BitVec.ofInt 64 r.1)).addFlags r.2

/-- CVTI and CVTI.N write the rounded integer, saturated to the target's range, and report its flags (R132, R170). -/
theorem toInt_onlyMe (s : State) (lo hi : Int) (d a : XReg) :
    OnlyMe s (intoX lo hi d a s)
      (withFlags (withX s.me d (low ((fval s a).toInt (fmode s) lo hi).1)) ((fval s a).toInt (fmode s) lo hi).2) := by
  rw [intoX, rdF_eq_fval]
  exact (wrX_onlyMe s d _).addFlags _

theorem floatResult_of_exact {e : XReg × XVal × Fl} (h : floatExact s i = some e) :
    floatResult s i = some (e.1, low (fp32.round (fmode s) e.2.1).1, e.2.2 ||| (fp32.round (fmode s) e.2.1).2) := by
  cases i
  case fadd | fsub | fmul | ffma | cvtf | cvtfN =>
    cases h
    rfl
  all_goals cases h

/-- Settles O3: a form with an exact result rounds it; the other four compute theirs at once. -/
theorem floatFormsWriteTheirResult : Obligations.FloatFormsWriteTheirResult := by
  intro i g s d v f hg h hp
  cases he : floatExact s i with
  | some e =>
      rw [floatResult_of_exact he] at h
      cases h
      exact ⟨_, exec_floatExact hg he hp, wrF_onlyMe s e.1 e.2⟩
  | none =>
      cases i
      case fmin g' d a b =>
        cases hg
        cases h
        exact ⟨_, slotOp_performs _ hp rfl, minMax_onlyMe s fp32.minBits d a b⟩
      case fmax g' d a b =>
        cases hg
        cases h
        exact ⟨_, slotOp_performs _ hp rfl, minMax_onlyMe s fp32.maxBits d a b⟩
      case cvti g' d a =>
        cases hg
        cases h
        exact ⟨_, slotOp_performs (intoX (-(2 ^ 63)) (2 ^ 63 - 1) d a) hp rfl, toInt_onlyMe s _ _ d a⟩
      case cvtiN g' d a =>
        cases hg
        cases h
        exact ⟨_, slotOp_performs (intoX 0 (2 ^ 64 - 1) d a) hp rfl, toInt_onlyMe s _ _ d a⟩
      case fadd | fsub | fmul | ffma | cvtf | cvtfN => cases he
      all_goals cases h

end Sys2Proof.Proofs
end

section
/-! Words of the whole-register forms against the model's: the tree, the running combination, the blocks, the generator (spec 07 R195, R196, R200, R202; 05 R126, R128, R146, R147). -/

namespace Sys2Proof.Proofs

open Machine Claims

variable {s : State} {op : RedOp} {ty : ETy} {mode : Mode}

/-! ### Active lanes (R185, R195) -/

theorem actives_eq (s : State) (ty : ETy) (a : VReg) (m : QReg) :
    s.actives ty a (s.rdQ m) = (List.range (min 512 s.lanes)).map (nodeOf s ty a m) := by
  refine List.ext_getElem ?_ fun l hl _ => ?_
  · simp [State.actives, Nat.min_comm]
  · have hl : l < 512 := by
      simp [State.actives] at hl
      omega
    simp [State.actives, nodeOf, elemOf, ETy.elem, hl]

theorem canon_eq_clean (ty : ETy) (c : Nat) : canon ty c = clean ty c := by
  unfold canon clean
  cases ty.ffmt <;> rfl

/-! ### The tree of VRED (R195) -/

/-- One level: its nodes, and the flags of its nodes together. -/
theorem treeLevel_eq (ns : List (Option Nat)) : treeLevel op ty mode ns =
    ((redLevel op ty mode ns).map (·.1), (redLevel op ty mode ns).foldr (fun e f => e.2 ||| f) 0) := by
  induction ns using redLevel.induct with
  | case1 a b ns ih => simp [treeLevel, redLevel, ih]
  | case2 a ns ih => simp [treeLevel, redLevel, ih]
  | case3 b ns ih => simp [treeLevel, redLevel, ih]
  | case4 ns h1 h2 h3 =>
      match ns with
      | [] => rfl
      | [n] => simp [treeLevel, redLevel]
      | some a :: some b :: ns => exact absurd rfl (h1 a b ns)
      | some a :: none :: ns => exact absurd rfl (h2 a ns)
      | none :: b :: ns => exact absurd rfl (h3 b ns)

theorem tree_eq_redTree (k : Nat) (ns : List (Option Nat)) : tree op ty mode k ns = redTree op ty mode k ns := by
  induction k generalizing ns with
  | zero => rfl
  | succ k ih => simp only [tree, redTree, treeLevel_eq, ih]

/-! ### The running combination of VSCAN (R196) -/

/-- The combination carried past an element does not depend on the flags carried with it. -/
theorem scanStep_fst (acc : Option Nat) (f g : Fl) (e : Option Nat) :
    (scanStep op ty mode (acc, f) e).1 = (scanStep op ty mode (acc, g) e).1 := by
  cases acc <;> cases e <;> rfl

/-- One element of the scan: it is given the combination carried on, and its flags come first. -/
theorem scan_cons (acc : Option Nat) (e : Option Nat) (es : List (Option Nat)) :
    let next := scanStep op ty mode (acc, 0) e
    let rest := scan op ty mode next.1 es
    scan op ty mode acc (e :: es) = ((if e = none then 0 else next.1.getD 0) :: rest.1, next.2 ||| rest.2) := by
  cases acc <;> cases e <;> simp [scan, scanStep]

theorem scanStep_flags (acc : Option Nat) (f : Fl) (e : Option Nat) :
    (scanStep op ty mode (acc, f) e).2 = f ||| (scanStep op ty mode (acc, 0) e).2 := by
  cases acc <;> cases e <;> simp [scanStep]

/-- The flags of a scan are those of the running combination over all its elements. -/
theorem scan_flags (es : List (Option Nat)) (acc : Option Nat) (f : Fl) :
    (es.foldl (scanStep op ty mode) (acc, f)).2 = f ||| (scan op ty mode acc es).2 := by
  induction es generalizing acc f with
  | nil => simp [scan]
  | cons e es ih =>
      rw [List.foldl_cons, scan_cons, ← Prod.mk.eta (p := scanStep op ty mode (acc, f) e), ih, scanStep_flags,
        scanStep_fst acc f 0, BitVec.or_assoc]

/-- The scan gives an active element the running combination up to it. -/
theorem scan_getD (es : List (Option Nat)) (acc : Option Nat) (f : Fl) (l x : Nat) (h : es[l]? = some (some x)) :
    (scan op ty mode acc es).1.getD l 0 = ((es.take (l + 1)).foldl (scanStep op ty mode) (acc, f)).1.getD 0 := by
  induction es generalizing acc f l with
  | nil => simp at h
  | cons e es ih =>
      rw [scan_cons, List.take_succ_cons, List.foldl_cons, ← Prod.mk.eta (p := scanStep op ty mode (acc, f) e), scanStep_fst acc f 0]
      cases l with
      | zero =>
          obtain rfl : e = some x := by simpa using h
          simp
      | succ l => exact ih _ _ l (by simpa using h)

theorem scanTo_eq (s : State) (a : VReg) (m : QReg) (n : Nat) :
    scanTo s op ty mode a m n = ((List.range n).map (nodeOf s ty a m)).foldl (scanStep op ty mode) (none, 0) := by
  rw [scanTo, List.foldl_map]

/-! ### The blocks of VQMX (R128, R200) -/

/-- Pieces of one length laid end to end: element i of piece j. -/
theorem getD_flatMap {α β : Type} {n : Nat} {f : α → List β} {l : List α} {i j : Nat} (hj : j < l.length) (hi : i < n)
    (hf : ∀ k (hk : k < l.length), k ≤ j → (f l[k]).length = n) (d : β) : (l.flatMap f).getD (n * j + i) d = (f l[j]).getD i d := by
  induction l generalizing j with
  | nil => exact absurd hj (Nat.not_lt_zero _)
  | cons a l ih =>
      have ha : (f a).length = n := hf 0 (Nat.zero_lt_succ _) (Nat.zero_le _)
      rw [List.flatMap_cons]
      cases j with
      | zero =>
          rw [Nat.mul_zero, Nat.zero_add, List.getD_append _ _ _ _ (by omega), List.getElem_cons_zero]
      | succ j =>
          rw [List.getD_append_right _ _ _ _ (by rw [ha, Nat.mul_succ]; omega), ha,
            show n * (j + 1) + i - n = n * j + i by rw [Nat.mul_succ]; omega]
          exact ih (by simpa using hj) fun k hk hkj => hf (k + 1) (by simpa using hk) (Nat.succ_le_succ hkj)

theorem mxBlock_length (ty : ETy) (mode : Mode) (nsat : Bool) (xs : List XVal) : (mxBlock ty mode nsat xs).1.length = xs.length := by
  unfold mxBlock
  split
  · simp
  · split <;> simp

/-- A block of zeros has no flags, as the empty block has none. -/
theorem mxBlock_zeros (ty : ETy) (mode : Mode) (nsat : Bool) (n : Nat) :
    (mxBlock ty mode nsat (List.replicate n (.zero false))).2 = (0, 0) := by
  have hl : (List.replicate n (XVal.zero false)).filterMap XVal.ilog = [] := by
    simp [List.filterMap_eq_nil_iff, XVal.ilog]
  simp [mxBlock, hl]

/-- Block b of a register as the model takes it: 32 lanes, or none past the register's 512. -/
def blockOf (s : State) (ty : ETy) (mode : Mode) (nsat : Bool) (a : VReg) (b : Nat) : List Nat × Nat × Fl :=
  mxBlock ty mode nsat ((((s.rdV a).toList.drop (32 * b)).take 32).map f32)

theorem blockOf_eq_mxOf {b : Nat} (hb : b < 16) (nsat : Bool) (a : VReg) : blockOf s ty mode nsat a b = mxOf s ty mode nsat a b := by
  refine congrArg (mxBlock ty mode nsat) (List.ext_getElem ?_ fun i _ _ => ?_)
  · simp
    omega
  · have hi : 32 * b + i < 512 := by simp at *; omega
    simp [f32, wordOf, hi]

/-- The flags of a block, past the register too. -/
theorem blockOf_flags (nsat : Bool) (a : VReg) (b : Nat) : (blockOf s ty mode nsat a b).2.2 = (mxOf s ty mode nsat a b).2.2 := by
  by_cases hb : b < 16
  · rw [blockOf_eq_mxOf hb]
  · have hz : (List.range 32).map (fun i => fp32.decode (wordOf s a (32 * b + i)).toNat) = List.replicate 32 (.zero false) := by
      refine List.ext_getElem (by simp) fun i _ _ => ?_
      have hw : wordOf s a (32 * b + i) = 0 := List.getD_eq_default _ _ (by simp; omega)
      simp only [List.getElem_map, List.getElem_range, List.getElem_replicate, hw]
      decide
    have he : ((s.rdV a).toList.drop (32 * b)).take 32 = [] := by
      rw [List.drop_eq_nil_of_le (by simp; omega), List.take_nil]
    rw [mxOf, hz, mxBlock_zeros, blockOf, he]
    simp [mxBlock]

/-- The blocks of a register that VQMX quantises. -/
def blocksOf (s : State) (ty : ETy) (mode : Mode) (nsat : Bool) (a : VReg) : List (List Nat × Nat × Fl) :=
  (List.range (s.lanes / 32)).map (blockOf s ty mode nsat a)

/-- A lane that a whole register has lies in one of its blocks. -/
theorem block_of_lane {l : Nat} (hl : l < s.lanes) (hm : (BitVec.allOnes 512).getLsbD l = true) : l / 32 < 16 ∧ l / 32 < s.lanes / 32 := by
  have := BitVec.lt_of_getLsbD hm
  have : s.lanes = 128 * s.g := rfl
  omega

theorem blocksOf_getElem {nsat : Bool} {a : VReg} {b : Nat} (h : b < (blocksOf s ty mode nsat a).length) :
    (blocksOf s ty mode nsat a)[b] = blockOf s ty mode nsat a b := by
  simp [blocksOf]

theorem blocksOf_elem {nsat : Bool} {a : VReg} {l : Nat} (hl : l < s.lanes) (hm : (BitVec.allOnes 512).getLsbD l = true) :
    ((blocksOf s ty mode nsat a).flatMap (·.1)).getD l 0 = (mxOf s ty mode nsat a (l / 32)).1.getD (l % 32) 0 := by
  obtain ⟨h16, hn⟩ := block_of_lane hl hm
  have hlen (b : Nat) (h : b < (blocksOf s ty mode nsat a).length) (hb : b ≤ l / 32) : (blocksOf s ty mode nsat a)[b].1.length = 32 := by
    rw [blocksOf_getElem, blockOf_eq_mxOf (by omega), mxOf, mxBlock_length]
    simp
  have h := getD_flatMap (f := fun b : List Nat × Nat × Fl => b.1) (l := blocksOf s ty mode nsat a) (by simpa [blocksOf] using hn)
    (Nat.mod_lt l (by decide)) hlen 0
  rw [Nat.div_add_mod] at h
  rw [h, blocksOf_getElem, blockOf_eq_mxOf h16]

theorem blocksOf_scale {nsat : Bool} {a : VReg} {l : Nat} (hl : l < s.lanes) (hm : (BitVec.allOnes 512).getLsbD l = true) :
    ((blocksOf s ty mode nsat a).getD (l / 32) ([], 0, 0)).2.1 = (mxOf s ty mode nsat a (l / 32)).2.1 := by
  obtain ⟨h16, hn⟩ := block_of_lane hl hm
  rw [List.getD_eq_getElem _ _ (by simpa [blocksOf] using hn), blocksOf_getElem, blockOf_eq_mxOf h16]

theorem blocksOf_flags (s : State) (ty : ETy) (mode : Mode) (nsat : Bool) (a : VReg) :
    (blocksOf s ty mode nsat a).foldl (fun f b => f ||| b.2.2) 0 =
      (List.range (s.lanes / 32)).foldl (fun f b => f ||| (mxOf s ty mode nsat a b).2.2) 0 := by
  simp only [blocksOf, List.foldl_map, blockOf_flags]

/-! ### The generator of VRAND (R146, R147) -/

theorem pair64_eq (lo hi : Word32) : pair64 lo hi = low ((hi.toNat * 2 ^ 32 + lo.toNat : Nat) : Int) := by
  apply BitVec.eq_of_toNat_eq
  rw [low_natCast, BitVec.toNat_ofNat, pair64, BitVec.toNat_append, ← Nat.shiftLeft_add_eq_or_of_lt lo.isLt, Nat.shiftLeft_eq,
    Nat.mod_eq_of_lt (by have := hi.isLt; have := lo.isLt; omega)]

theorem vrandOut_eq_drawn (c k : BitVec 64) : vrandOut c k = drawn c k := setWidth_eq_ofNat _

/-- An fp32 draw is the rounding of its 24 high bits over 2^24 (R147). -/
theorem vrandF32_eq (o : Word32) : vrandF32 o = BitVec.ofNat 32 (fp32.round .rne ((XVal.ofInt (o.toNat / 256 : Nat)).scale (-24))).1 := by
  unfold vrandF32
  by_cases h : o.toNat / 256 = 0
  · rw [h]
    decide
  · have hv : (XVal.ofInt (o.toNat / 256 : Nat)).scale (-24) = .num false (o.toNat / 256) (-24) := by
      rw [XVal.ofInt, if_neg (by exact_mod_cast h), XVal.scale, Int.natAbs_natCast, decide_eq_false (by omega), Int.zero_add]
    simp only [h, if_false, hv, rne32]

theorem vrand_lane_eq (ty : ETy) (o : Word32) : (if ty = .f32 then vrandF32 o else o) = drawnAs ty o := by
  rw [drawnAs, vrandF32_eq]

end Sys2Proof.Proofs
end

section
/-! VRED, VSCAN, VQMX and VRAND (spec 07 R195, R196, R200, R202): O7. -/

namespace Sys2Proof.Proofs

open Machine Claims

variable {s : State} {g : Guard} {d a t : VReg} {m : QReg} {ty : ETy} {u : Strand}

theorem vred_onlyMe {op : RedOp} {rm : Rm} (h : wholeResult s (.vred g op d a m ty rm) = some u) :
    OnlyMe s (State.vred op d a m ty rm s) u := by
  cases h
  simp only [State.vred, tree_eq_redTree, actives_eq, canon_eq_clean, lane_eq_laid]
  exact ((OnlyMe.refl s).wrV ..).addFlags _

/-- An active lane is given the running combination of the lanes up to it. -/
theorem scan_actives_getD {op : RedOp} {mode : Mode} {l : Nat} (hl : l < s.lanes) (hm : (s.rdQ m).getLsbD l = true) :
    (scan op ty mode none (s.actives ty a (s.rdQ m))).1.getD l 0 = (scanTo s op ty mode a m (l + 1)).1.getD 0 := by
  have hn : l < min 512 s.lanes := by have := BitVec.lt_of_getLsbD hm; omega
  have hnode : nodeOf s ty a m l = some (elemOf s ty a l) := by rw [nodeOf, if_pos hm]
  rw [actives_eq, scan_getD _ none 0 l (elemOf s ty a l) (by rw [List.getElem?_map, List.getElem?_range hn, Option.map_some, hnode]),
    ← List.map_take, List.take_range, Nat.min_eq_left hn, scanTo_eq]

theorem vscan_onlyMe {op : RedOp} {rm : Rm} (h : wholeResult s (.vscan g op d a m ty rm) = some u) :
    OnlyMe s (State.vscan op d a m ty rm s) u := by
  cases h
  have hf : (scan op ty (s.modeOf rm) none (s.actives ty a (s.rdQ m))).2 = (scanTo s op ty (rounding s rm) a m (min 512 s.lanes)).2 := by
    rw [scanTo_eq, scan_flags, actives_eq]
    exact BitVec.zero_or.symm
  rw [← hf, withV_congr fun l hl hm => by rw [← scan_actives_getD hl hm, ← canon_eq_clean, ← lane_eq_laid]]
  exact ((OnlyMe.refl s).wrV ..).addFlags _

theorem vqmx_onlyMe {rm : Rm} {nsat : Bool} (h : wholeResult s (.vqmx g d a t ty rm nsat) = some u) :
    OnlyMe s (State.vqmx d a t ty rm nsat s) u := by
  cases h
  let blocks := blocksOf s ty (rounding s rm) nsat a
  have helems : withV s.me s.lanes d (BitVec.allOnes 512)
      (fun l => laid ty ((mxOf s ty (rounding s rm) nsat a (l / 32)).1.getD (l % 32) 0)) =
        withV s.me s.lanes d (BitVec.allOnes 512) (fun l => ty.lane ((blocks.flatMap (·.1)).getD l 0)) :=
    withV_congr (fun l hl hm => by rw [lane_eq_laid, blocksOf_elem hl hm]) _ _
  have hscales (u : Strand) : withV u s.lanes t (BitVec.allOnes 512)
      (fun l => BitVec.ofNat 32 (mxOf s ty (rounding s rm) nsat a (l / 32)).2.1) =
        withV u s.lanes t (BitVec.allOnes 512) (fun l => BitVec.ofNat 32 (blocks.getD (l / 32) ([], 0, 0)).2.1) :=
    withV_congr (fun l hl hm => by rw [blocksOf_scale hl hm]) _ _
  simp only [helems, hscales, ← blocksOf_flags]
  exact (((OnlyMe.refl s).wrV ..).wrV ..).addFlags _

/-- VRAND in the words of the statement: the draws, then the counters' halves. -/
theorem vrand_eq (adv : Bool) : State.vrand d a t m ty adv s =
    let out := s.wrV d (s.rdQ m) (fun l => drawnAs ty (drawn (pairOf s a l) (pairOf s t l)))
    if adv then
      (out.wrV a (s.rdQ m) (fun l => BitVec.ofNat 32 (pairOf s a l + 1).toNat)).wrV (State.nextV a) (s.rdQ m)
        (fun l => BitVec.ofNat 32 ((pairOf s a l + 1).toNat / 2 ^ 32))
    else out := by
  have hword (r : VReg) (l : Nat) : (s.rdV r).toList.getD l 0 = wordOf s r l := rfl
  have hpair (r : VReg) (l : Nat) : pair64 (wordOf s r l) (wordOf s (State.nextV r) l) = pairOf s r l := pair64_eq _ _
  simp only [State.vrand, hword, hpair, vrandOut_eq_drawn, vrand_lane_eq, setWidth_eq_ofNat,
    BitVec.toNat_ushiftRight, Nat.shiftRight_eq_div_pow]

theorem vrand_onlyMe {adv : Bool} (h : wholeResult s (.vrand g d a t m ty adv) = some u) :
    OnlyMe s (State.vrand d a t m ty adv s) u := by
  cases h
  have hout := (OnlyMe.refl s).wrV d (s.rdQ m) (fun l => drawnAs ty (drawn (pairOf s a l) (pairOf s t l)))
  rw [vrand_eq]
  cases adv with
  | false => exact hout
  | true => exact (hout.wrV ..).wrV ..

/-- Settles O7: each form is a chain of register writes and flags, whose words the lemmas above match. -/
theorem reductionsScansBlocksAndDraws : Obligations.ReductionsScansBlocksAndDraws := by
  intro i g s u hg h hp
  cases i
  case vred g' op d a m ty rm =>
    cases hg
    exact ⟨_, slotOp_performs (State.vred op d a m ty rm) hp rfl, vred_onlyMe h⟩
  case vscan g' op d a m ty rm =>
    cases hg
    exact ⟨_, slotOp_performs (State.vscan op d a m ty rm) hp rfl, vscan_onlyMe h⟩
  case vqmx g' d a t ty rm nsat =>
    cases hg
    exact ⟨_, slotOp_performs (State.vqmx d a t ty rm nsat) hp rfl, vqmx_onlyMe h⟩
  case vrand g' d a t m ty adv =>
    cases hg
    exact ⟨_, slotOp_performs (State.vrand d a t m ty adv) hp rfl, vrand_onlyMe h⟩
  all_goals cases h

end Sys2Proof.Proofs
end

section
/-! Rows of a tile as the model reads and writes them (spec 02 R27; 08 R204, R207). -/

namespace Sys2Proof.Proofs

open Machine Claims

variable {s : State} {tile m n : Nat}

/-! ### Where elements lie (R27) -/

/-- The 64 columns of one position of a row lie one after another. -/
theorem accAddr_column (core tile m p : Nat) {j : Nat} (hj : j < 64) :
    accAddr core tile m (64 * p + j) = accAddr core tile m (64 * p) + 4 * j := by
  rw [accAddr, accAddr]
  omega

/-- Two pieces of a tile, of a row and a position each, lie apart. -/
theorem accAddr_apart (core tile : Nat) {m n p q : Nat} (hm : m < 64) (hn : n < 64) (h : m ≠ n ∨ p ≠ q) :
    accAddr core tile m (64 * p) + 256 ≤ accAddr core tile n (64 * q) ∨ accAddr core tile n (64 * q) + 256 ≤ accAddr core tile m (64 * p) := by
  simp only [accAddr]
  omega

/-! ### A row read (R207) -/

/-- The words of a piece of memory, one by one. -/
theorem wordsOf_readN (mem : Mem) (a k : Nat) :
    wordsOf (mem.readN a (4 * k)) = (List.range k).map (fun j => BitVec.ofNat 32 (leNat (mem.readN (a + 4 * j) 4))) := by
  induction k generalizing a with
  | zero => rfl
  | succ k ih =>
      have h4 : mem.readN a 4 = [mem.read a, mem.read (a + 1), mem.read (a + 2), mem.read (a + 3)] := rfl
      rw [show 4 * (k + 1) = 4 + 4 * k by omega, ← Mem.readN_append, List.range_succ_eq_map, List.map_cons, List.map_map]
      simp only [Nat.mul_zero, Nat.add_zero, h4]
      rw [List.cons_append, List.cons_append, List.cons_append, List.cons_append, List.nil_append, wordsOf, ih]
      simp only [Function.comp_def, Nat.succ_eq_add_one, Nat.mul_add, Nat.mul_one, Nat.add_assoc, Nat.add_comm 4]

/-- The pieces of 64 of the first n numbers, one after another. -/
theorem flatMap_pieces {α : Type} (f : Nat → α) (n : Nat) :
    (List.range ((n + 63) / 64)).flatMap (fun p => (List.range (min 64 (n - 64 * p))).map (fun j => f (64 * p + j))) =
      (List.range n).map f := by
  have go (q : Nat) : (List.range q).flatMap (fun p => (List.range (min 64 (n - 64 * p))).map (fun j => f (64 * p + j))) =
      (List.range (min n (64 * q))).map f := by
    induction q with
    | zero => simp
    | succ q ih =>
        rw [List.range_succ, List.flatMap_append, ih, List.flatMap_singleton]
        by_cases h : n ≤ 64 * q
        · simp [Nat.min_eq_left h, Nat.min_eq_left (show n ≤ 64 * (q + 1) by omega), Nat.sub_eq_zero_of_le h]
        · rw [show min n (64 * (q + 1)) = 64 * q + min 64 (n - 64 * q) by omega, Nat.min_eq_right (by omega), List.range_add,
            List.map_append, List.map_map]
          rfl
  rw [go, Nat.min_eq_left (by omega)]

/-- A row of a tile of the acting core is read element by element. -/
theorem tileRow_eq (s : State) (tile m n : Nat) : s.tileRow s.ctx.core tile m n = (List.range n).map (tileElem s tile m) := by
  rw [State.tileRow, ← flatMap_pieces]
  refine List.flatMap_congr fun p _ => ?_
  rw [wordsOf_readN]
  refine List.map_congr_left fun j hj => ?_
  rw [tileElem, accAddr_column _ _ _ _ (by simp at hj; omega)]

/-! ### A row written (R207) -/

/-- Words written one after another: each is found at its place, and beyond them nothing has changed. -/
theorem readN_write_words (mem : Mem) (a : Nat) (ws : List Word32) (j : Nat) :
    BitVec.ofNat 32 (leNat ((mem.write a (ws.flatMap (fun w => leBytes 4 w.toNat))).readN (a + 4 * j) 4)) =
      ws.getD j (BitVec.ofNat 32 (leNat (mem.readN (a + 4 * j) 4))) := by
  have hl : (ws.flatMap (fun w => leBytes 4 w.toNat)).length = 4 * ws.length := by
    simp [Nat.mul_comm]
  by_cases hj : j < ws.length
  · have he : (mem.write a (ws.flatMap (fun w => leBytes 4 w.toNat))).readN (a + 4 * j) 4 = leBytes 4 ws[j].toNat := by
      refine List.ext_getElem (by simp) fun i hi hi' => ?_
      have hi4 : i < 4 := by simpa using hi'
      have hg := getD_flatMap (f := fun w : Word32 => leBytes 4 w.toNat) hj hi4 (fun _ _ _ => length_leBytes ..) 0
      simp only [Mem.readN, List.getElem_map, List.getElem_range, Mem.read_write]
      rw [if_pos (by omega), show a + 4 * j + i - a = 4 * j + i by omega, hg, List.getD_eq_getElem _ _ hi']
    rw [he, leNat_leBytes, List.getD_eq_getElem _ _ hj, Nat.mod_eq_of_lt (show ws[j].toNat < 256 ^ 4 from ws[j].isLt),
      BitVec.ofNat_toNat, BitVec.setWidth_eq]
  · rw [Mem.readN_write_apart _ _ _ _ _ (by omega), List.getD_eq_default _ _ (by omega)]

/-- One position's words of a row written (R27). -/
def putPiece (core tile m : Nat) (ws : List Word32) (s : State) (p : Nat) : State :=
  { s with mem := s.mem.write (accAddr core tile m (64 * p)) (((ws.drop (64 * p)).take 64).flatMap (fun w => leBytes 4 w.toNat)) }

theorem setTileRow_eq (s : State) (core tile m : Nat) (ws : List Word32) :
    s.setTileRow core tile m ws = (List.range ((ws.length + 63) / 64)).foldl (putPiece core tile m ws) s := rfl

/-- The columns below 64q of a row hold the words of a list as far as it goes; no byte outside these columns has changed. -/
structure RowWritten (s t : State) (tile m q : Nat) (ws : List Word32) : Prop where
  elems : ∀ c, tileElem t tile m c = if c < 64 * q then ws.getD c (tileElem s tile m c) else tileElem s tile m c
  bytes : ∀ a, (∀ p, p < q → a < accAddr s.ctx.core tile m (64 * p) ∨ accAddr s.ctx.core tile m (64 * p) + 256 ≤ a) →
    t.mem.read a = s.mem.read a
  rest : { t with mem := s.mem } = s

/-- An element depends on its four bytes alone. -/
theorem tileElem_congr {s t : State} {tile m c : Nat} (hc : t.ctx = s.ctx)
    (h : ∀ i, i < 4 → t.mem.read (accAddr s.ctx.core tile m c + i) = s.mem.read (accAddr s.ctx.core tile m c + i)) :
    tileElem t tile m c = tileElem s tile m c := by
  have hr : t.mem.readN (accAddr s.ctx.core tile m c) 4 = s.mem.readN (accAddr s.ctx.core tile m c) 4 :=
    List.map_congr_left fun i hi => h i (List.mem_range.mp hi)
  rw [tileElem, tileElem, hc, hr]

/-- An element of one position is not among the bytes of another piece. -/
theorem elem_apart (core tile : Nat) {m r c p : Nat} (hm : m < 64) (hr : r < 64) (h : r ≠ m ∨ c / 64 ≠ p) {i : Nat} (hi : i < 4) :
    accAddr core tile r c + i < accAddr core tile m (64 * p) ∨ accAddr core tile m (64 * p) + 256 ≤ accAddr core tile r c + i := by
  have ha := accAddr_column core tile r (c / 64) (Nat.mod_lt c (by decide))
  rw [Nat.div_add_mod] at ha
  have := accAddr_apart core tile hr hm h
  have := Nat.mod_lt c (show 0 < 64 by decide)
  omega

theorem putPiece_elem_same (s : State) (tile m : Nat) (ws : List Word32) {p c : Nat} (h : c / 64 = p) :
    tileElem (putPiece s.ctx.core tile m ws s p) tile m c = ws.getD c (tileElem s tile m c) := by
  have ha := accAddr_column s.ctx.core tile m (c / 64) (Nat.mod_lt c (by decide))
  rw [Nat.div_add_mod, h] at ha
  have hd (x : Word32) : ((ws.drop (64 * p)).take 64).getD (c % 64) x = ws.getD c x := by
    have hc : 64 * p + c % 64 = c := by omega
    rw [List.getD_eq_getElem?_getD, List.getElem?_take, if_pos (Nat.mod_lt _ (by decide)), List.getElem?_drop, hc,
      List.getD_eq_getElem?_getD]
  have hw := readN_write_words s.mem (accAddr s.ctx.core tile m (64 * p)) ((ws.drop (64 * p)).take 64) (c % 64)
  rw [← ha, hd] at hw
  exact hw

theorem putPiece_read_apart (s : State) (core tile m : Nat) (ws : List Word32) (p : Nat) {a : Nat}
    (h : a < accAddr core tile m (64 * p) ∨ accAddr core tile m (64 * p) + 256 ≤ a) :
    (putPiece core tile m ws s p).mem.read a = s.mem.read a := by
  have hl : (((ws.drop (64 * p)).take 64).flatMap (fun w => leBytes 4 w.toNat)).length ≤ 256 := by
    simp
    omega
  rw [putPiece, Mem.read_write, if_neg (by omega)]

theorem putPieces_rowWritten (s : State) (tile : Nat) {m : Nat} (hm : m < 64) (ws : List Word32) (q : Nat) :
    RowWritten s ((List.range q).foldl (putPiece s.ctx.core tile m ws) s) tile m q ws := by
  induction q with
  | zero => exact ⟨fun _ => (if_neg (Nat.not_lt_zero _)).symm, fun _ _ => rfl, rfl⟩
  | succ q ih =>
      rw [List.range_succ, List.foldl_append, List.foldl_cons, List.foldl_nil]
      obtain ⟨helems, hbytes, hrest⟩ := ih
      generalize (List.range q).foldl (putPiece s.ctx.core tile m ws) s = t at *
      have hctx : t.ctx = s.ctx := (congrArg State.ctx hrest :)
      rw [← hctx]
      refine ⟨fun c => ?_, fun a h => ?_, hrest⟩
      · by_cases hc : c / 64 = q
        · rw [putPiece_elem_same t tile m ws hc, helems, if_neg (by omega), if_pos (by omega)]
        · have hsame : tileElem (putPiece t.ctx.core tile m ws t q) tile m c = tileElem t tile m c :=
            tileElem_congr rfl fun i hi => putPiece_read_apart t _ tile m ws q (elem_apart _ tile hm hm (.inr hc) hi)
          rw [hsame, helems]
          exact if_congr (by omega) rfl rfl
      · rw [putPiece_read_apart t _ tile m ws q (hctx ▸ h q (Nat.lt_succ_self q)), hbytes a fun p hp => h p (Nat.lt_succ_of_lt hp)]

/-- A row written: its first elements are the words, its others and every byte outside it stay. -/
theorem setTileRow_elem (s : State) (tile : Nat) {m : Nat} (hm : m < 64) (ws : List Word32) (c : Nat) :
    tileElem (s.setTileRow s.ctx.core tile m ws) tile m c = ws.getD c (tileElem s tile m c) := by
  rw [setTileRow_eq, (putPieces_rowWritten s tile hm ws _).elems]
  split
  · rfl
  · rw [List.getD_eq_default _ _ (by omega)]

theorem setTileRow_read_apart (s : State) (tile : Nat) {m : Nat} (hm : m < 64) (ws : List Word32) {a k : Nat} (hw : ws.length ≤ 64 * k)
    (h : ∀ p, p < k → a < accAddr s.ctx.core tile m (64 * p) ∨ accAddr s.ctx.core tile m (64 * p) + 256 ≤ a) :
    (s.setTileRow s.ctx.core tile m ws).mem.read a = s.mem.read a :=
  (putPieces_rowWritten s tile hm ws _).bytes a fun p hp => h p (by omega)

theorem setTileRow_rest (s : State) (tile : Nat) {m : Nat} (hm : m < 64) (ws : List Word32) :
    { s.setTileRow s.ctx.core tile m ws with mem := s.mem } = s := (putPieces_rowWritten s tile hm ws _).rest

theorem setTileRow_ctx (s : State) (tile : Nat) {m : Nat} (hm : m < 64) (ws : List Word32) :
    (s.setTileRow s.ctx.core tile m ws).ctx = s.ctx := (congrArg State.ctx (setTileRow_rest s tile hm ws) :)

theorem setTileRow_elem_other (s : State) (tile : Nat) {m r : Nat} (hm : m < 64) (hr : r < 64) (h : r ≠ m) (ws : List Word32) (c : Nat) :
    tileElem (s.setTileRow s.ctx.core tile m ws) tile r c = tileElem s tile r c :=
  tileElem_congr (setTileRow_ctx s tile hm ws) fun _ hi =>
    (putPieces_rowWritten s tile hm ws _).bytes _ fun _ _ => elem_apart _ tile hm hr (.inl h) hi

end Sys2Proof.Proofs
end

section
/-! The elements a matrix operation updates (spec 08 R214 to R216; 05 R136, R137): O19. -/

namespace Sys2Proof.Claims.OnlyTile

open Machine Proofs

variable {s t : State} {tile m : Nat} {new : Nat → Nat → Word32}

theorem ctx_eq {rows : Nat → Bool} (h : OnlyTile s t tile rows new) : t.ctx = s.ctx := (congrArg State.ctx h.rest :)

/-- A row that is not among those that change keeps its elements. -/
theorem elem_other {rows : Nat → Bool} (h : OnlyTile s t tile rows new) (hm : m < 64) (hr : rows m = false) (c : Nat) :
    tileElem t tile m c = tileElem s tile m c := by
  refine tileElem_congr h.ctx_eq fun i hi => h.bytes _ fun r hr64 hrow p _ => elem_apart _ tile hr64 hm (.inl ?_) hi
  rintro rfl
  rw [hr] at hrow
  cases hrow

theorem noRows (s : State) (tile : Nat) (new : Nat → Nat → Word32) : OnlyTile s s tile (fun i => decide (i < 0)) new where
  elems _ _ _ h := absurd h (by simp)
  bytes _ _ := rfl
  rest := rfl

/-- The next row written. -/
theorem setRow (h : OnlyTile s t tile (fun i => decide (i < m)) new) (hm : m < 64) {ws : List Word32} (hw : ws.length ≤ 64 * s.g)
    (hws : ∀ c, c < 64 * s.g → ws.getD c (tileElem s tile m c) = new m c) :
    OnlyTile s (t.setTileRow s.ctx.core tile m ws) tile (fun i => decide (i < m + 1)) new := by
  have hc : t.ctx.core = s.ctx.core := congrArg Ctx.core h.ctx_eq
  rw [← hc]
  refine ⟨fun r c hr hrow hcol => ?_, fun a ha => ?_, ?_⟩
  · by_cases he : r = m
    · subst he
      rw [setTileRow_elem t tile hm, h.elem_other hm (by simp), hws c hcol]
    · rw [setTileRow_elem_other t tile hm hr he]
      exact h.elems r c hr (by simp at *; omega) hcol
  · rw [setTileRow_read_apart t tile hm ws hw (hc ▸ ha m hm (by simp))]
    exact h.bytes a fun r hr hrow => ha r hr (by simp at *; omega)
  · exact (congrArg (fun u : State => { u with mem := s.mem }) (setTileRow_rest t tile hm ws)).trans h.rest

end Sys2Proof.Claims.OnlyTile

namespace Sys2Proof.Proofs

open Machine Claims

variable {s : State} {tile m n lo hi : Nat} {o : MatOp}

/-! ### The chunks added into a tile (R137, R216) -/

/-- What the chunks from lo up to hi make of an element, with their flags. -/
def newElem (s : State) (tile lo hi : Nat) (o : MatOp) (r c : Nat) : Word32 × Fl := o.element lo hi r c (tileElem s tile r c)

/-- The flags of the elements of the first m rows and n columns. -/
def elemFlags (f : Nat → Nat → Word32 × Fl) (m n : Nat) : Fl :=
  (List.range m).foldl (fun x r => (List.range n).foldl (fun y c => y ||| (f r c).2) x) 0

/-- A row's elements with their columns. -/
theorem zipIdx_row (f : Nat → Word32) (h : Nat → Word32 → Word32 × Fl) (n : Nat) :
    ((List.range n).map f).zipIdx.map (fun e => h e.2 e.1) = (List.range n).map (fun c => h c (f c)) := by
  refine List.ext_getElem (by simp) fun i _ _ => ?_
  simp

/-- One row of a matrix operation, after others with flags fl (R137). -/
def matRow (s : State) (core tile m n lo hi : Nat) (o : MatOp) (fl : Fl) : State × Fl :=
  let rs := (List.range n).map (newElem s tile lo hi o m)
  (s.setTileRow core tile m (rs.map (·.1)), rs.foldl (fun f r => f ||| r.2) fl)

theorem matWrite_succ {t : State} {fl : Fl} (h : s.matWrite s.ctx.core tile m n lo hi o = (t, fl)) (hc : t.ctx.core = s.ctx.core) :
    s.matWrite s.ctx.core tile (m + 1) n lo hi o = matRow t s.ctx.core tile m n lo hi o fl := by
  have hrow : (t.tileRow s.ctx.core tile m n).zipIdx.map (fun e => o.element lo hi m e.2 e.1) =
      (List.range n).map (newElem t tile lo hi o m) := by
    rw [← hc, tileRow_eq, zipIdx_row _ (fun c w => o.element lo hi m c w)]
    rfl
  rw [State.matWrite] at h ⊢
  rw [List.range_succ, List.foldl_append, h]
  simp only [List.foldl_cons, List.foldl_nil, hrow, matRow]

/-- A matrix operation writes the elements of its first m rows and n columns, and no other byte. -/
theorem matWrite_onlyTile (hm : m ≤ 64) (hn : n ≤ 64 * s.g) :
    OnlyTile s (s.matWrite s.ctx.core tile m n lo hi o).1 tile (fun r => decide (r < m))
        (fun r c => if c < n then (newElem s tile lo hi o r c).1 else tileElem s tile r c) ∧
      (s.matWrite s.ctx.core tile m n lo hi o).2 = elemFlags (newElem s tile lo hi o) m n := by
  induction m with
  | zero => exact ⟨.noRows s tile _, rfl⟩
  | succ m ih =>
      obtain ⟨htile, hfl⟩ := ih (Nat.le_of_succ_le hm)
      generalize hw : s.matWrite s.ctx.core tile m n lo hi o = w at htile hfl
      have hrow : newElem w.1 tile lo hi o m = newElem s tile lo hi o m :=
        funext fun c => by rw [newElem, htile.elem_other hm (by simp), newElem]
      rw [matWrite_succ hw (congrArg Ctx.core htile.ctx_eq), matRow, hrow]
      refine ⟨htile.setRow hm (by simpa using hn) fun c hc => ?_, ?_⟩
      · by_cases h : c < n <;> simp [h]
      · rw [hfl, List.foldl_map, elemFlags, elemFlags, List.range_succ, List.foldl_append]
        rfl

/-! ### The bytes of the operands (R136, R215, R247) -/

/-- Granules of part of an extent are granules of the extent. -/
theorem anyPoison_part {addr len at_ k : Nat} (h : s.anyPoison addr len = false) (hk : at_ + k ≤ len) : s.anyPoison (addr + at_) k = false := by
  simp only [State.anyPoison, State.granSpan, State.gran, NSet.anyRange, List.any_eq_false] at h ⊢
  intro x hx
  have := h x hx
  split at this <;> split <;> simp at * <;> omega

theorem badPart_shows {va len : Nat} {bs : List Byte} {es : List (Nat × Nat)} (h : shows s va len bs) (hes : ∀ e ∈ es, e.1 + e.2 ≤ len) :
    s.badPart va es = none := by
  obtain ⟨-, -, hs⟩ := h
  unfold State.badPart
  split
  · next addr hsp =>
      rw [hsp] at hs
      rw [List.find?_eq_none.mpr fun e he => by rw [anyPoison_part hs.1 (hes e he)]; exact Bool.false_ne_true]
      rfl
  · rfl

end Sys2Proof.Proofs
end

section
/-! MMA and MMAT (spec 08 R214 to R216): O19. -/

namespace Sys2Proof.Proofs

open Machine Claims

variable {s : State} {o : MatOp} {m n : Nat}

/-! ### The parts of the operands that elements use (R136, R215) -/

/-- A chunk's elements fill at most 64 bytes. -/
theorem chunkLen_half_le (o : MatOp) (c : Nat) : o.chunkLen c * o.f.half ≤ 128 := by
  have h : o.chunkLen c * o.f.half ≤ o.f.chunk * o.f.half := Nat.mul_le_mul_right _ (Nat.min_le_left ..)
  exact h.trans (Nat.div_mul_le_self ..)

theorem half_pos (f : MFmt) : 0 < f.half := by cases f <;> decide

theorem chunkLen_le (o : MatOp) (c : Nat) : o.chunkLen c ≤ 128 :=
  (Nat.le_mul_of_pos_right _ (half_pos _)).trans (chunkLen_half_le o c)

/-- The elements of the chunks come first in an extent, then, for MX formats, their scales. -/
theorem extent_elements (f : MFmt) (k : Nat) : 4096 * f.chunks k ≤ f.extent k := by
  unfold MFmt.extent
  split <;> omega

theorem extent_mx {f : MFmt} (k : Nat) (h : f.isMx = true) : f.extent k = 4096 * f.chunks k + 256 * f.chunks k := by
  rw [MFmt.extent, if_pos h]
  omega

theorem usedA_within (hm : m ≤ 64) : ∀ e ∈ o.usedA m, e.1 + e.2 ≤ o.f.extent o.k := by
  intro e he
  simp only [MatOp.usedA, List.mem_flatMap, List.mem_range, List.mem_cons] at he
  obtain ⟨c, hc, i, hi, rfl | he⟩ := he
  · have := extent_elements o.f o.k
    have := chunkLen_half_le o c
    dsimp only
    omega
  · split at he
    · next hx =>
        obtain rfl := List.mem_singleton.mp he
        have := extent_mx o.k hx
        have := chunkLen_le o c
        dsimp only
        omega
    · cases he

theorem usedB_within (hn : n ≤ 64 * o.g) : ∀ e ∈ o.usedB n, e.1 + e.2 ≤ o.g * o.f.extent o.k := by
  intro e he
  simp only [MatOp.usedB, List.mem_flatMap, List.mem_range, List.mem_append] at he
  obtain ⟨c, hc, he | he⟩ := he
  · have hext : 4096 * o.g * (c + 1) ≤ o.g * o.f.extent o.k := by
      calc 4096 * o.g * (c + 1) ≤ 4096 * o.g * o.f.chunks o.k := Nat.mul_le_mul_left _ hc
        _ = o.g * (4096 * o.f.chunks o.k) := by ring
        _ ≤ o.g * o.f.extent o.k := Nat.mul_le_mul_left _ (extent_elements ..)
    rw [Nat.mul_succ] at hext
    split at he
    · obtain ⟨j, hj, rfl⟩ := List.mem_map.mp he
      have hcol : n * o.f.half ≤ 64 * (o.g * o.f.half) := by
        calc n * o.f.half ≤ 64 * o.g * o.f.half := Nat.mul_le_mul_right _ hn
          _ = 64 * (o.g * o.f.half) := by ring
      have hrows : 32 * (o.g * o.f.half) * (j + 1) ≤ 4096 * o.g := by
        calc 32 * (o.g * o.f.half) * (j + 1) = 32 * o.g * ((j + 1) * o.f.half) := by ring
          _ ≤ 32 * o.g * (o.chunkLen c * o.f.half) := Nat.mul_le_mul_left _ (Nat.mul_le_mul_right _ (List.mem_range.mp hj))
          _ ≤ 32 * o.g * 128 := Nat.mul_le_mul_left _ (chunkLen_half_le o c)
          _ = 4096 * o.g := by ring
      rw [Nat.mul_succ] at hrows
      dsimp only
      rw [Nat.mul_assoc 32 o.g o.f.half]
      omega
    · obtain ⟨i, hi, rfl⟩ := List.mem_map.mp he
      have := List.mem_range.mp hi
      have := chunkLen_half_le o c
      dsimp only
      omega
  · split at he
    · next hx =>
        obtain ⟨i, hi, rfl⟩ := List.mem_map.mp he
        have := List.mem_range.mp hi
        have hext : o.g * o.f.extent o.k = 4096 * o.g * o.f.chunks o.k + 256 * o.g * o.f.chunks o.k := by
          rw [extent_mx o.k hx]
          ring
        have hscale : 256 * o.g * (c + 1) ≤ 256 * o.g * o.f.chunks o.k := Nat.mul_le_mul_left _ hc
        rw [Nat.mul_succ] at hscale
        have := chunkLen_le o c
        dsimp only
        omega
    · cases he

/-! ### The operation (R214 to R216) -/

/-- A matrix operation that stands alone, with operands it can read, adds its chunks into its tile at once. -/
theorem matOp_alone {trans : Bool} {d : TReg} {a b : AReg} {xm xn xk : XReg} {f : MFmt} {opA opB : List Byte}
    (h0 : ¬((s.rdX xm).toNat = 0 ∨ (s.rdX xn).toNat = 0 ∨ (s.rdX xk).toNat = 0))
    (hm : (s.rdX xm).toNat ≤ 64) (hn : (s.rdX xn).toNat ≤ 64 * s.g)
    (hA : shows s (s.ea a 0) (f.extent (s.rdX xk).toNat) opA) (hB : shows s (s.ea b 0) (s.g * f.extent (s.rdX xk).toNat) opB)
    (halone : s.mmas.all (fun r => !(r.core == s.ctx.core && r.strand == s.ctx.strand && r.num == s.ctx.num)) = true) :
    State.matOp trans d a b xm xn xk f s =
      let w := s.matWrite s.ctx.core (s.me.tb + d.val) (s.rdX xm).toNat (s.rdX xn).toNat 0 (f.chunks (s.rdX xk).toNat)
        ⟨s.g, trans, f, (s.rdX xk).toNat, opA, opB⟩
      w.1.addFlags w.2 := by
  have hnone : s.mmas.any (fun r => r.core == s.ctx.core && r.strand == s.ctx.strand && r.num == s.ctx.num) = false := by
    simpa [imp_iff_not_or, or_assoc] using halone
  have hbadA : s.badPart (s.ea a 0) (MatOp.usedA ⟨s.g, trans, f, (s.rdX xk).toNat, opA, opB⟩ (s.rdX xm).toNat) = none :=
    badPart_shows hA (usedA_within hm)
  have hbadB : s.badPart (s.ea b 0) (MatOp.usedB ⟨s.g, trans, f, (s.rdX xk).toNat, opA, opB⟩ (s.rdX xn).toNat) = none :=
    badPart_shows hB (usedB_within hn)
  simp only [State.matOp, if_neg h0, State.readVa_shows hA, State.readVa_shows hB, Acc.run, hbadA, hbadB, hnone, if_false, State.tileOf,
    Bool.false_eq_true]

theorem exec_mat {trans : Bool} {g : Guard} {d : TReg} {a b : AReg} {xm xn xk : XReg} {f : MFmt}
    (hp : performs (if trans then .mmat g d a b xm xn xk f else .mma g d a b xm xn xk f) g s) :
    exec (if trans then .mmat g d a b xm xn xk f else .mma g d a b xm xn xk f) s = .next (State.matOp trans d a b xm xn xk f s) := by
  cases trans
  · exact slotOp_performs (State.matOp false d a b xm xn xk f) hp rfl
  · exact slotOp_performs (State.matOp true d a b xm xn xk f) hp rfl

/-- A change of memory alone leaves the acting strand. -/
theorem me_of_onlyTile {t : State} {tile : Nat} {rows : Nat → Bool} {new : Nat → Nat → Word32} (h : OnlyTile s t tile rows new) :
    t.me = s.me := (congrArg State.me h.rest :)

/-- Settles O19: the tile is written row by row, each element once, and the flags follow. -/
theorem matrixOperationsUpdateTheirElements : Obligations.MatrixOperationsUpdateTheirElements := by
  intro trans g d a b xm xn xk f s opA opB i m n k o tile new hp _ hn hm
  refine ⟨fun h0 => ?_, fun hm0 hn0 hk0 hA hB halone => ?_⟩
  · rw [exec_mat hp, State.matOp, if_pos h0]
  · obtain ⟨htile, hfl⟩ := matWrite_onlyTile (s := s) (tile := tile) (lo := 0) (hi := f.chunks k) (o := o) hm hn
    let w := s.matWrite s.ctx.core tile m n 0 (f.chunks k) o
    have hme : withFlags w.1.me w.2 = withFlags s.me (elemFlags (newElem s tile 0 (f.chunks k) o) m n) := by
      rw [me_of_onlyTile htile, hfl]
    have hw : State.matOp trans d a b xm xn xk f s = w.1.addFlags w.2 :=
      matOp_alone (fun h0 => h0.elim hm0 (·.elim hn0 hk0)) hm hn hA hB halone
    exact ⟨w.1, w.1.addFlags w.2, (exec_mat hp).trans (congrArg _ hw), htile, hme ▸ (OnlyMe.refl w.1).addFlags w.2⟩

end Sys2Proof.Proofs
end
